-- ==== Sys2Proof/Word.lean ====
section
/-! DEFINITION. The words, characters and numbers of the manual (R3 to R6, R37 to R38), the unit numbers of R18,
and the sparse map in one canonical form that holds every memory and every table of the package. -/

namespace Sys2Proof

/-- A 36-bit architected word (R37). Position 0 is the most significant bit (R4). -/
abbrev Word := BitVec 36

/-- A 9-bit character: position 0 is the mark bit, positions 1:8 the code (R38). -/
abbrev Chr := BitVec 9

/-- A 14-bit syllable (R186). -/
abbrev Syll := BitVec 14

/-- An octet of a frame or an image. -/
abbrev Octet := BitVec 8

/-- A 72-bit architected value: a position, a posting time, a long float, a word pair. -/
abbrev Pair := BitVec 72

/-- Word register number (R195). -/
abbrev Reg := Fin 32
/-- Decimal register DA, DB, DC, DD (R195). -/
abbrev DReg := Fin 4
/-- Data capability register K0 to K7 (R195). -/
abbrev KReg := Fin 8
/-- Ledger die number (R18). -/
abbrev DieId := Fin 8
/-- Partition number (R25). -/
abbrev PartId := Fin 16
/-- Cluster number 8d + c (R406, TYPE 7). -/
abbrev ClusterId := Fin 64
/-- Core number 64d + 8c + k (R440). -/
abbrev CoreId := Fin 512
/-- Ledger port 0 to 31 (R27); 32 and 33 are mirror ports A and B (R408, ID 61). -/
abbrev PortId := Fin 34

namespace BitVec'

/-- Positions a to b of a value of n bits, most significant first (R4), as a value of k bits. -/
def pos {n : Nat} (w : BitVec n) (a k : Nat) : BitVec k :=
  w.extractLsb' (n - a - k) k

/-- The single position i of a value (R4). -/
def at' {n : Nat} (w : BitVec n) (i : Nat) : Bool := w.getLsbD (n - 1 - i)

/-- The value with position i set to b. -/
def setAt {n : Nat} (w : BitVec n) (i : Nat) (b : Bool) : BitVec n :=
  if b then w ||| (1#n <<< (n - 1 - i)) else w &&& ~~~(1#n <<< (n - 1 - i))

/-- The value with positions a to a + k - 1 replaced by the low k bits of v. -/
def setPos {n : Nat} (w : BitVec n) (a k : Nat) (v : Nat) : BitVec n :=
  let sh := n - a - k
  let m : BitVec n := BitVec.ofNat n ((2 ^ k - 1) <<< sh)
  (w &&& ~~~m) ||| (BitVec.ofNat n ((v % 2 ^ k) <<< sh))

end BitVec'

/-- A Boolean as a field value. -/
def bit (b : Bool) : Nat := if b then 1 else 0

/-! ### Sparse maps -/

/-- A map from numbers to values as a list of entries. Canonical: keys strictly rising, no entry equal to
what an unlisted key reads as (`Sparse.wf`). -/
abbrev Sparse (α : Type) := List (Nat × α)

namespace Sparse
variable {α : Type}

/-- What key k reads as, d being what an unlisted key reads as. -/
def get (d : α) : Sparse α → Nat → α
  | [], _ => d
  | (j, v) :: m, k => if j = k then v else get d m k

/-- Removes key k. -/
def erase (m : Sparse α) (k : Nat) : Sparse α := m.filter fun e => decide (e.1 ≠ k)

/-- Puts v at key k, keeping the keys rising. -/
def insert : Sparse α → Nat → α → Sparse α
  | [], k, v => [(k, v)]
  | (j, w) :: m, k, v =>
    if k < j then (k, v) :: (j, w) :: m
    else if k = j then (k, v) :: m
    else (j, w) :: insert m k v

/-- Writes v at key k in the canonical form: writing what an unlisted key reads as removes the entry. -/
def set [DecidableEq α] (d : α) (m : Sparse α) (k : Nat) (v : α) : Sparse α :=
  if v = d then erase m k else insert m k v

/-- The canonical form: keys strictly rising, no entry equal to what an unlisted key reads as. -/
abbrev wf (d : α) (m : Sparse α) : Prop :=
  m.Pairwise (fun a b => a.1 < b.1) ∧ ∀ e ∈ m, e.2 ≠ d

/-- Writes the values of a list at consecutive keys from k. -/
def setList [DecidableEq α] (d : α) (m : Sparse α) (k : Nat) : List α → Sparse α
  | [] => m
  | v :: vs => setList d (set d m k v) (k + 1) vs

/-- Reads n consecutive keys from k. -/
def getList (d : α) (m : Sparse α) (k : Nat) : Nat → List α
  | 0 => []
  | n + 1 => get d m k :: getList d m (k + 1) n

/-- Drops every key from a up to but not including b, however many keys are listed. -/
def clear (m : Sparse α) (a b : Nat) : Sparse α :=
  m.filter fun e => decide (e.1 < a) || decide (b ≤ e.1)

end Sparse

/-! ### Positions of the order (R76, R79) -/

/-- A position: posting tick, port, sequence (R76). -/
structure Position where
  tick : BitVec 48
  port : BitVec 6
  seq  : BitVec 18
  deriving DecidableEq, Repr

/-- Tick a precedes tick b, compared across a wrap (R79). -/
def tickBefore (a b : BitVec 48) : Bool :=
  let n := (b - a).toNat
  decide (0 < n) && decide (n < 2 ^ 47)

/-- Tick a is at or before tick b. -/
def tickLe (a b : BitVec 48) : Bool := decide (a = b) || tickBefore a b

/-- p precedes q (R79). -/
def Position.before (p q : Position) : Bool :=
  if p.tick ≠ q.tick then tickBefore p.tick q.tick
  else if p.port ≠ q.port then decide (p.port.toNat < q.port.toNat)
  else decide (p.seq.toNat < q.seq.toNat)

/-- The 72 bits of a position (R76). -/
def Position.bits (p : Position) : Pair := (p.tick ++ p.port ++ p.seq : BitVec 72)

/-- The position that 72 bits spell. -/
def Position.ofBits (w : Pair) : Position :=
  { tick := BitVec'.pos w 0 48, port := BitVec'.pos w 48 6, seq := BitVec'.pos w 54 18 }

/-- Word 0 and word 1 of a word pair. -/
def Pair.hi (w : Pair) : Word := BitVec'.pos w 0 36
def Pair.lo (w : Pair) : Word := BitVec'.pos w 36 36
/-- The pair of two words, the word at the lower address first. -/
def Pair.mk (h l : Word) : Pair := (h ++ l : BitVec 72)

/-! ### Characters and words (R6, R38) -/

/-- The four characters of a word, from the lowest address (R6). -/
def Word.chars (w : Word) : List Chr :=
  [BitVec'.pos w 0 9, BitVec'.pos w 9 9, BitVec'.pos w 18 9, BitVec'.pos w 27 9]

/-- A word from four characters, the first at the lowest address; missing characters are 0o000. -/
def Word.ofChars : List Chr → Word
  | a :: b :: c :: d :: _ => (a ++ b ++ c ++ d : BitVec 36)
  | [a, b, c] => (a ++ b ++ c ++ 0#9 : BitVec 36)
  | [a, b] => (a ++ b ++ 0#18 : BitVec 36)
  | [a] => (a ++ 0#27 : BitVec 36)
  | [] => 0

/-- The words of a character list, four characters each. -/
def wordsOfChars : List Chr → List Word
  | a :: b :: c :: d :: cs => Word.ofChars [a, b, c, d] :: wordsOfChars cs
  | [] => []
  | cs => [Word.ofChars cs]

/-- The mark bit of a character (R38). -/
def Chr.mark (c : Chr) : Bool := BitVec'.at' c 0
/-- The 8-bit code of a character (R38). -/
def Chr.code (c : Chr) : BitVec 8 := c.truncate 8
/-- A character from mark and code. -/
def Chr.mk (m : Bool) (c : BitVec 8) : Chr := (BitVec.ofBool m ++ c : BitVec 9)

/-! ### Octets -/

/-- A number from octets, the most significant first. -/
def ofOctetsBE (l : List Octet) : Nat := l.foldl (fun a o => a * 256 + o.toNat) 0
/-- A number from octets, the least significant first (R399). -/
def ofOctetsLE (l : List Octet) : Nat := l.foldr (fun o a => a * 256 + o.toNat) 0
/-- n octets of a number, the most significant first. -/
def octetsBE : Nat → Nat → List Octet
  | 0, _ => []
  | n + 1, v => BitVec.ofNat 8 (v / 256 ^ n) :: octetsBE n v
/-- n octets of a number, the least significant first. -/
def octetsLE : Nat → Nat → List Octet
  | 0, _ => []
  | n + 1, v => BitVec.ofNat 8 v :: octetsLE n (v / 256)

/-- The bits of the low n bits of v, most significant first. -/
def bitsOf : Nat → Nat → List Bool
  | 0, _ => []
  | n + 1, v => v.testBit n :: bitsOf n v

/-- A number from bits, most significant first. -/
def ofBits (l : List Bool) : Nat := l.foldl (fun a b => 2 * a + bit b) 0

/-- Bits cut into octets, most significant first, the last padded with zero bits. -/
def bitsToOctets (l : List Bool) : List Octet :=
  go l (l.length / 8 + 1)
where
  go : List Bool → Nat → List Octet
    | [], _ => []
    | _, 0 => []
    | l, n + 1 =>
      let h := l.take 8
      BitVec.ofNat 8 (ofBits h * 2 ^ (8 - h.length)) :: go (l.drop 8) n

/-- a divided by b, rounded up. -/
def ceilDiv (a b : Nat) : Nat := (a + b - 1) / b

end Sys2Proof
end

