-- ==== Sys2Proof/Syntax.lean ====
section
/-! DEFINITION. The commands of the package: one constructor of `Instr` for each row of the opcode table, with the
operands that the row's rule gives it. Core instructions name the core that executes them first. -/

namespace Sys2Proof

/-! ### Operands of core instructions -/

/-- A memory tail Kn:offset (R194). -/
inductive Tail where
  | off     (k : KReg) (o : BitVec 9)
  | offLong (k : KReg) (o : BitVec 23)
  | idx     (k : KReg) (x : Reg)
  | idxLong (k : KReg) (x : Reg) (d : BitVec 14)
  deriving DecidableEq, Repr

/-- Shift amount of the shift group (R201). -/
inductive ShAmt where
  | imm (n : BitVec 6)
  | reg (t : Reg)
  deriving DecidableEq, Repr

/-- Condition codes (R203). -/
inductive Cond where
  | eq | ne | lt | ge | le | gt | ltu | geu | leu | gtu | any | none
  deriving DecidableEq, Repr

/-- Second operand of CMPB (R205). -/
inductive CmpArg where
  | reg (b : Reg)
  | imm (b : BitVec 9)
  deriving DecidableEq, Repr

/-- Word offset of format P (R192). -/
inductive PostOff where
  | short (w : BitVec 15)
  | long  (w : BitVec 29)
  deriving DecidableEq, Repr

/-- Modes of SCAN (R258); the class modes name the table's capability. -/
inductive ScanMode where
  | eq | ne | mark
  | cls (kt : KReg)
  | ncls (kt : KReg)
  deriving DecidableEq, Repr

/-- A capability register as the capability instructions name it: the X bit and the 4-bit number (R284). -/
structure CapNum where
  x : Bool
  n : BitVec 4
  deriving DecidableEq, Repr

/-! ### Operands of events -/

/-- What has become of the stored symbols that a read meets (R379): the changed symbols of the line, and those of its tag line
(R381), each by its number with what is added to it. What the read makes of them is R380's. -/
structure Ecc where
  line : List (Nat × BitVec 4)
  tag : List (Nat × BitVec 4)
  deriving DecidableEq, Repr

/-- No symbol has changed. -/
def Ecc.clean : Ecc := { line := [], tag := [] }

/-- Who announces a Horizon (R82). -/
inductive HzUnit where
  | die (d : DieId)
  | hub
  deriving DecidableEq, Repr

/-- A register that a plain register write names (R10). -/
inductive RegTarget where
  /-- a 32-bit register of PF BAR0 (R437) -/
  | bar0 (off : Nat) (v : BitVec 32)
  /-- a write to PF BAR0 that breaks the size rules (R439); such a read is BAR0_BAD_ACCESS -/
  | bar0Bad
  /-- a 32-bit register of VF p's BAR0 (R438) -/
  | vfBar0 (p : PartId) (off : Nat) (v : BitVec 32)
  /-- a word of space 2 (R100, R316) -/
  | space2 (off : Nat) (v : Word)
  /-- a word of a queue record (R348) -/
  | queue (d : DieId) (p : PartId) (q : Fin 8) (word : Fin 8) (v : Word)
  deriving DecidableEq, Repr

/-- A port's timestamps, in ns, of a PTP message that it received and of the client's last request (R331). -/
structure PtpStamps where
  rx : Int
  tx : Int
  deriving DecidableEq, Repr

/-- Rows of R388: why a die is fenced. -/
inductive FenceCause where
  | link | tickCheck | stall | blamed | supply | host
  deriving DecidableEq, Repr

/-- A Boardwalk link (R29): die d to the hub, or the tandem link of pair k. -/
inductive BwLink where
  | hub (d : DieId)
  | tandem (k : Fin 4)
  deriving DecidableEq, Repr

/-- Result of a core's read of host memory (R450). -/
inductive Host3Result where
  | data (l : List Octet)
  | failed
  deriving DecidableEq, Repr

/-- What a mailbox or boot load read (R451, R479). -/
inductive DmaResult where
  | octets (l : List Octet)
  | failed
  deriving DecidableEq, Repr

/-- Where a Hamper image comes from (R428, SOURCE). -/
inductive PlanSource where
  | flash0 | flash1 | host | lead (id : Fin 4)
  deriving DecidableEq, Repr

/-- A host function that makes an access (R446). -/
inductive HostFn where
  | pf
  | vf (p : PartId)
  deriving DecidableEq, Repr

/-- Advanced Error Reporting of the PF and the ECRC enables (R433; layout of the PCI Express specification). -/
structure Aer where
  uncMask : BitVec 32
  uncSev : BitVec 32
  corMask : BitVec 32
  ecrcGen : Bool
  ecrcCheck : Bool
  deriving DecidableEq, Repr

/-- Writes of the configuration space (R433, R436, R450, R453), field by field: NumVFs, Bus Master Enable, the power state of a
function (D3hot or D0), MSI-X Enable and Function Mask of a function, Max_Payload_Size and Max_Read_Request_Size as PCI Express codes
them, the completion timeout of Device Control 2, AER, and a BAR (i: 0, 2 or 4 divided by 2) of the PF or of the VFs. -/
inductive CfgWrite where
  | numVfs (n : Nat)
  | busMaster (on : Bool)
  | powerState (f : HostFn) (d3hot : Bool)
  | msixControl (f : HostFn) (enable mask : Bool)
  | deviceControl (mps mrrs : BitVec 3)
  | deviceControl2 (timeout : BitVec 4)
  | aer (x : Aer)
  | bar (vf : Bool) (i : Fin 3) (v : BitVec 64)
  deriving DecidableEq, Repr

/-- What the board makes of the strap lands: an override to VDD_IO or VSS, or none (R470). -/
structure StrapLands where
  tandem : Option Bool
  bootSrc1 : Option Bool
  bootSrc0 : Option Bool
  mirrorId1 : Option Bool
  mirrorId0 : Option Bool
  testMode : Option Bool
  deriving DecidableEq, Repr

/-- Straps as sampled (R470). -/
structure Straps where
  tandem : Bool
  bootSrc : BitVec 2
  mirrorId : BitVec 2
  testMode : Bool
  deriving DecidableEq, Repr

/-- The steps of the package (spec/opcode_table.json), one constructor for each row. -/
inductive Instr where
  -- format R (R189)
  | add (c : CoreId) (d s : Reg)
  | sub (c : CoreId) (d s : Reg)
  | and (c : CoreId) (d s : Reg)
  | or (c : CoreId) (d s : Reg)
  | mov (c : CoreId) (d s : Reg)
  | home (c : CoreId) (d s : Reg)
  -- immediates (R197)
  | ldi (c : CoreId) (d : Reg) (imm : BitVec 14)
  | ldiL (c : CoreId) (d : Reg) (imm : Word)
  | addi (c : CoreId) (d : Reg) (imm : BitVec 14)
  | andi (c : CoreId) (d : Reg) (imm : BitVec 14)
  | ori (c : CoreId) (d : Reg) (imm : BitVec 14)
  | xori (c : CoreId) (d : Reg) (imm : BitVec 14)
  -- three-register group (R198)
  | add3 (c : CoreId) (d s t : Reg)
  | sub3 (c : CoreId) (d s t : Reg)
  | and3 (c : CoreId) (d s t : Reg)
  | or3 (c : CoreId) (d s t : Reg)
  | xor3 (c : CoreId) (d s t : Reg)
  | andn (c : CoreId) (d s t : Reg)
  | min (c : CoreId) (d s t : Reg)
  | max (c : CoreId) (d s t : Reg)
  | mul (c : CoreId) (d s t : Reg)
  | mulh (c : CoreId) (d s t : Reg)
  | mulhu (c : CoreId) (d s t : Reg)
  | div (c : CoreId) (d s t : Reg)
  | divu (c : CoreId) (d s t : Reg)
  | rem (c : CoreId) (d s t : Reg)
  | remu (c : CoreId) (d s t : Reg)
  -- one-operand group (R200)
  | neg (c : CoreId) (d s : Reg)
  | not (c : CoreId) (d s : Reg)
  | popc (c : CoreId) (d s : Reg)
  | clz (c : CoreId) (d s : Reg)
  -- shift group (R201)
  | shl (c : CoreId) (d s : Reg) (a : ShAmt)
  | shrl (c : CoreId) (d s : Reg) (a : ShAmt)
  | shra (c : CoreId) (d s : Reg) (a : ShAmt)
  | rotl (c : CoreId) (d s : Reg) (a : ShAmt)
  -- fields (R202); l1 is L - 1
  | ext (c : CoreId) (d s : Reg) (p l1 : BitVec 6)
  | ins (c : CoreId) (d s : Reg) (p l1 : BitVec 6)
  -- comparison (R204, R205)
  | cset (c : CoreId) (cc : Cond) (d a b : Reg)
  | cseti (c : CoreId) (cc : Cond) (d a : Reg) (imm : BitVec 14)
  | cmpb (c : CoreId) (cc : Cond) (a : Reg) (b : CmpArg) (disp : BitVec 14)
  -- special registers (R215)
  | mfs (c : CoreId) (d : Reg) (n : BitVec 6)
  | mts (c : CoreId) (n : BitVec 6) (s : Reg)
  -- loads and stores (R207)
  | ldc (c : CoreId) (d : Reg) (t : Tail)
  | ldw (c : CoreId) (d : Reg) (t : Tail)
  | ldp (c : CoreId) (d : Reg) (t : Tail)
  | stc (c : CoreId) (s : Reg) (t : Tail)
  | stw (c : CoreId) (s : Reg) (t : Tail)
  | stp (c : CoreId) (s : Reg) (t : Tail)
  -- multiply-accumulate (R210)
  | mac (c : CoreId) (a : Reg) (kb : KReg) (i : Reg) (kc : KReg) (j : Reg) (s t : BitVec 6)
  -- transactions (R111, R130)
  | txnNext (c : CoreId) (d : Reg)
  | txnCommit (c : CoreId) (s : Reg)
  | txnAbort (c : CoreId) (s : Reg)
  | txnRespond (c : CoreId) (l : Reg) (t : Tail)
  | alarm (c : CoreId) (s : Reg)
  | loopr (c : CoreId) (s : Reg) (lam : BitVec 3) (b : BitVec 11)
  | jr (c : CoreId) (s : Reg)
  | callr (c : CoreId) (s first last : Reg)
  -- format Y (R191)
  | nop (c : CoreId)
  | isync (c : CoreId)
  | msync (c : CoreId)
  | fsync (c : CoreId)
  | eret (c : CoreId)
  | pret (c : CoreId)
  | fspill (c : CoreId)
  | ffill (c : CoreId)
  | ret (c : CoreId)
  | loopOff (c : CoreId)
  | alarmOff (c : CoreId)
  | break_ (c : CoreId) (code : BitVec 14)
  | br (c : CoreId) (disp : BitVec 14)
  | brL (c : CoreId) (target : BitVec 18)
  | call (c : CoreId) (target : BitVec 18) (mask : BitVec 32)
  | callS (c : CoreId) (target : BitVec 18) (first last : Reg)
  | loop (c : CoreId) (count : BitVec 14) (lam : BitVec 3) (b : BitVec 11)
  | doorbell (c : CoreId) (mask : BitVec 8)
  | codeWr (c : CoreId) (a s : Reg)
  | txnWait (c : CoreId)
  | txnClaim (c : CoreId) (t : Tail)
  | txnClaimx (c : CoreId) (t : Tail)
  | dcas (c : CoreId) (x y : DReg) (w : Reg) (t : Tail)
  | dpost (c : CoreId) (x : DReg) (w : Reg) (k : KReg) (o : PostOff)
  | dacc (c : CoreId) (x : DReg) (w : Reg) (k : KReg) (o : PostOff)
  | undefinedEncoding (c : CoreId)
  -- decimal (R225 to R245)
  | dadd (c : CoreId) (x y : DReg)
  | dsub (c : CoreId) (x y : DReg)
  | dcmp (c : CoreId) (d : Reg) (x y : DReg)
  | dmov (c : CoreId) (x y : DReg)
  | dneg (c : CoreId) (x : DReg)
  | dabs (c : CoreId) (x : DReg)
  | dclr (c : CoreId) (x : DReg)
  | dshl (c : CoreId) (x : DReg) (n : BitVec 6)
  | drnd (c : CoreId) (x : DReg) (n : BitVec 6) (rm : BitVec 3)
  | dmul (c : CoreId) (x y : DReg)
  | dmulw (c : CoreId) (x y : DReg)
  | ddiv (c : CoreId) (x y z : DReg) (rm : BitVec 3)
  | cvbd (c : CoreId) (x : DReg) (s : Reg)
  | cvbdL (c : CoreId) (x : DReg) (s : Reg)
  | cvdb (c : CoreId) (d : Reg) (x : DReg)
  | cvdbL (c : CoreId) (d : Reg) (x : DReg)
  | dldw (c : CoreId) (x : DReg) (n : BitVec 3) (t : Tail)
  | dstw (c : CoreId) (x : DReg) (n : BitVec 3) (t : Tail)
  | daddm (c : CoreId) (x : DReg) (n : BitVec 3) (t : Tail)
  | dsubm (c : CoreId) (x : DReg) (n : BitVec 3) (t : Tail)
  | dcmpm (c : CoreId) (d : Reg) (x : DReg) (n : BitVec 3) (t : Tail)
  | dmulm (c : CoreId) (x : DReg) (n : BitVec 3) (t : Tail)
  | cvcd (c : CoreId) (x : DReg) (w : Reg) (k : KReg) (wx : Reg)
  | cvdc (c : CoreId) (x : DReg) (w : Reg) (k : KReg) (wx : Reg)
  -- strings (R246 to R262)
  | movc (c : CoreId) (kd : KReg) (wd : Reg) (ks : KReg) (ws wl : Reg)
  | fillc (c : CoreId) (kd : KReg) (wd wl wf : Reg)
  | movem (c : CoreId) (kd : KReg) (wd : Reg) (ks : KReg) (ws wl : Reg) (skip strip pad : Bool)
  | tr (c : CoreId) (kd : KReg) (wd : Reg) (ks : KReg) (ws wl : Reg) (kt : KReg) (tmark : Bool)
  | scan (c : CoreId) (wr : Reg) (ks : KReg) (ws wl : Reg) (m : ScanMode)
  | cmpc (c : CoreId) (ka : KReg) (wa : Reg) (kb : KReg) (wb wl : Reg)
  | edit (c : CoreId) (x : DReg) (kd : KReg) (wd : Reg) (kp : KReg) (wp wl : Reg)
  -- floating point (R268)
  | fadd (c : CoreId) (d b : Reg) (l : Bool) (rm : BitVec 3)
  | fsub (c : CoreId) (d b : Reg) (l : Bool) (rm : BitVec 3)
  | fmul (c : CoreId) (d b : Reg) (l : Bool) (rm : BitVec 3)
  | fdiv (c : CoreId) (d b : Reg) (l : Bool) (rm : BitVec 3)
  | fsqrt (c : CoreId) (d b : Reg) (l : Bool) (rm : BitVec 3)
  | fcvtsl (c : CoreId) (d b : Reg)
  | fcvtls (c : CoreId) (d b : Reg) (rm : BitVec 3)
  | fcvtfi (c : CoreId) (d b : Reg) (l : Bool) (rm : BitVec 3)
  | fcvtif (c : CoreId) (d b : Reg) (l : Bool) (rm : BitVec 3)
  | fneg (c : CoreId) (d b : Reg) (l : Bool)
  | fabs (c : CoreId) (d b : Reg) (l : Bool)
  | fcmp (c : CoreId) (d a b : Reg) (l : Bool)
  | frec (c : CoreId) (d : Reg) (n : BitVec 3)
  | fclrt (c : CoreId)
  -- capabilities, keys, TLB (R284 to R305)
  | cmov (c : CoreId) (kd ks : CapNum)
  | cclr (c : CoreId) (kd : CapNum)
  | csetb (c : CoreId) (kd ks : CapNum) (wb wl : Reg)
  | candr (c : CoreId) (kd ks : CapNum) (wm : Reg)
  | csetk (c : CoreId) (kd ks : CapNum) (wk : Reg)
  | cget (c : CoreId) (d : Reg) (ks : CapNum)
  | cld (c : CoreId) (kd : CapNum) (t : Tail)
  | cst (c : CoreId) (ks : CapNum) (t : Tail)
  | capln (c : CoreId) (t : Tail)
  | dataln (c : CoreId) (t : Tail)
  | setkey (c : CoreId) (s : Reg) (t : Tail)
  | getkey (c : CoreId) (d : Reg) (t : Tail)
  | tlbInv (c : CoreId) (s : Reg)
  | tlbInva (c : CoreId)
  | tlbLock (c : CoreId) (s : Reg)
  | tlbUnlk (c : CoreId) (s : Reg)
  | tlbRd (c : CoreId) (d s : Reg)
  -- core events
  | interruptTake (c : CoreId)
  | multiplyResult (c : CoreId)
  | divideResult (c : CoreId)
  | decimalUnitResult (c : CoreId)
  | floatResult (c : CoreId)
  /-- id names the access; cc is the far wait it took (R142) -/
  | memoryResponse (id : Nat) (cc : Nat)
  /-- the walk at the head of the cluster's walker; e1, e2 what the two reads meet; cc the far wait -/
  | pageWalk (cl : ClusterId) (e1 e2 : Ecc) (cc : Nat)
  | gateCheck (id : Nat)
  /-- part k of access id; e what the read of its line meets -/
  | lineAccess (id k : Nat) (e : Ecc)
  | targetViolation (id : Nat)
  -- order (03)
  | tickEdge
  | tickCheck (d : DieId)
  | curfewCheck (p : PartId)
  | standinResponse (p : PartId)
  | epochSeal (p : PartId)
  | releaseLaunch (p : PartId)
  | alarmFire (c : CoreId)
  | scrubSlice (d : DieId) (row : Bool) (es : List Ecc)
  | statisticsSnapshot
  | horizonAnnounce (u : HzUnit)
  | horizonReceive (dst src : HzUnit)
  | horizonStall (d : DieId)
  | horizonStallFence (d : DieId)
  | releaseReceive (d : DieId) (p : PartId)
  | visibleEpochSwitch (d : DieId) (p : PartId)
  | hubVisibleSwitch (p : PartId)
  -- Sundial
  /-- second: the secondary source; time: the source's time; local: posting time at the measurement; gapMs: time since
  its previous measurement, in ms -/
  | sourceMeasurement (second : Bool) (time loc : Pair) (gapMs : Nat)
  | sourceLoss (second : Bool)
  /-- loc: posting time at the edge -/
  | ppsEdge (loc : Pair)
  | ppsOutPulse
  | originReached
  | lockWaitExpiry
  | holdLimitExpiry
  | sdSetLoWrite (v : Word)
  | grantMaxRead (p : PartId)
  | registerWrite (r : RegTarget)
  -- ports
  | frameReceive (n : PortId) (o : List Octet) (fcsOk fecOk : Bool)
  | frameTransmit (n : PortId)
  | linkStateChange (n : PortId) (lanes : BitVec 4) (fec up : Bool)
  | ptpMessage (n : PortId) (t : PtpStamps)
  | ptpDelayRequest (n : PortId)
  | open_ (n : PortId)
  | request (n : PortId)
  | ack (n : PortId)
  | close_ (n : PortId)
  | lptSessionIdle (n : PortId) (i : Nat)
  | lptAckDelay (n : PortId) (i : Nat)
  | lptResend (n : PortId) (sid seq : BitVec 32)
  | lptHoldExpiry (n : PortId) (sid seq : BitVec 32)
  | frameCopyArrive (d : DieId)
  | departurePass (n : PortId) (p : PartId)
  | queueRptrWrite (d : DieId) (p : PartId) (q : Fin 8) (v : Nat)
  | queueWptrWrite (d : DieId) (p : PartId) (q : Fin 8) (v : Nat)
  | queueCondition (d : DieId) (p : PartId) (q : Fin 8)
  -- Boardwalk
  | boardwalkLinkRetry (l : BwLink)
  | boardwalkLinkLost (l : BwLink)
  -- claims, posting and commit
  | claimArrive (d : DieId)
  | claimGrant (d : DieId) (line : Nat)
  /-- waitNs: how long the claim waited, for GRANT_MAX (R140) -/
  | grantReceive (d : DieId) (waitNs : Nat)
  | frontierSend (d : DieId) (p : PartId)
  | frontierReceive (d : DieId)
  | claimRelease (d : DieId)
  | postingRequest (id : Nat) (e : Ecc)
  | postingResult (id : Nat) (cc : Nat)
  | daccApply (d : DieId) (e : Ecc)
  | resolveRequest
  | gateAnswer (d : DieId) (cc : Nat)
  | abortNotice (d : DieId)
  | abortRestore (d : DieId) (slot : Nat)
  | repairTimeout (d : DieId) (line : Nat)
  -- tandem and mirror
  | digestSend (d : DieId) (p : PartId)
  | digestCompare (p : PartId)
  | dieFence (d : DieId)
  | heartSend
  | log
  | logResend (p : PartId) (e : Nat) (peer : Fin 4)
  | mirrorAck
  | fetch (e : Ecc)
  | line
  | heart (t2 : Int)
  | take
  | join
  | joined
  | followerDropped (i : Fin 4)
  | leadLost
  | takeover
  | mirrorLinkFallback (b : Bool)
  -- host
  | perst
  | pfFlr
  | vfFlr (p : PartId)
  | windowRead (f : HostFn) (w : PartId) (off : Nat) (e : Ecc)
  /-- slots: byte enables and data of consecutive 8-byte slots from off -/
  | windowWrite (f : HostFn) (w : PartId) (off : Nat) (slots : List (BitVec 8 × BitVec 64)) (e : Ecc)
  | windowRuleWrite (f : HostFn) (w : PartId) (reg : Fin 2) (v : BitVec 32)
  /-- v: the value written, or none for a read; size in bytes -/
  | space2ViewAccess (off size : Nat) (v : Option (BitVec 64))
  | hubMsgWrite (c : CoreId) (v : Word)
  | bar0BadAccess
  | host3Completion (id : Nat) (r : Host3Result) (cc : Nat)
  | doorbellWrite (f : HostFn) (q : Fin 64) (v : BitVec 32)
  | qCtlWrite (f : HostFn) (q : Fin 64) (v : BitVec 32)
  /-- the unit at RPTR of a submission queue and the payload octets that the hub's DMA read -/
  | hostInjection (q : Fin 64) (header : BitVec 64) (r : DmaResult)
  | hostResponseWrite (p : PartId)
  | mbxComplete
  -- mailbox commands
  /-- vpgm: VPGM within its range -/
  | patchLoad (tag : BitVec 8) (r : DmaResult) (vpgm : Bool)
  | planLoad (tag : BitVec 8) (src : PlanSource) (r : DmaResult)
  | planWithdraw (tag : BitVec 8)
  | planRead (tag : BitVec 8)
  | takeoverCommand (tag : BitVec 8)
  | fence (tag : BitVec 8)
  | retire (tag : BitVec 8)
  | restart (tag : BitVec 8)
  | rowRepair (tag : BitVec 8)
  | rowPprDone (d : DieId) (pc bank row : Nat)
  | power (tag : BitVec 8)
  | calSet (tag : BitVec 8)
  -- plan and power
  | stagingDeadline
  | planTakeEffect
  | swapDone (g : Fin 50)
  /-- railsOk: every rail in tolerance (R487); fusesOk: every fuse bit has a majority (R472) -/
  | pwrOkRise (lands : StrapLands) (railsOk fusesOk : Bool)
  | pwrOkFall
  | sysRstN
  | domainPowerGrant
  /-- fails: which cores of the cluster fail -/
  | romSelfCheck (cl : ClusterId) (fails : BitVec 8)
  | clockSwitch
  | nightEntry
  | wake (tag : BitVec 8)
  | thermalAlert (hot : Bool)
  | dieThermalFault (d : DieId)
  | hubThermalFault
  | secondaryPortSwitch (i : Fin 4)
  | peerHeardExpiry (i : Fin 4)
  | spareRowCopyDone (d : DieId) (pc bank row : Nat)
  | vpgmOutOfRange
  | hostLinkStateChange (up : Bool) (width : BitVec 4) (rate : BitVec 3)
  | configurationSpaceWrite (w : CfgWrite)
  | mailboxNop (tag : BitVec 8)
  | unknownMailboxCode (tag code : BitVec 8)
  | mbxCmdWhileBusy (v : BitVec 32)
  | msiXUnmask (v : Fin 2048)
  deriving DecidableEq, Repr

end Sys2Proof
end

