-- ==== Sys2Proof/Config.lean ====
section
/-! DEFINITION. What the manual leaves open: the free values (constants without a body, so that nothing can be proved of
them). -/

namespace Sys2Proof

/-- Free 36-bit values, taken in turn by State.free: values that no rule gives. UNVERIFIED, log entry 5. -/
opaque Config.freeWord : Nat → Word

/-- The words of the microcode ROM (R182); they are not in the manual. log entry 5. -/
opaque Config.rom : BitVec 13 → BitVec 32

/-- Results and conditions of the units that a microword uses within an instruction: the sequencer's number, its microwords so
far, the port or condition (R181, R183). UNVERIFIED, log entry 5. -/
opaque Config.microWord : Nat → Nat → Nat → Word
opaque Config.microBit : Nat → Nat → Nat → Bool

/-- The ALU flags as a word: zero, negative, carry (R183). log entry 5. -/
opaque Config.aluFlags : Bool → Bool → Bool → Word

/-- The symbol code beyond its guarantees (R380): what a codeword with these changed places makes of them, none for a detected
error, else the place that it corrects and what it adds there. The code's construction is not in the manual. log entry 67. -/
opaque Config.eccDecode : List (Nat × BitVec 4) → Option (Nat × BitVec 4)

/-- The check symbols of a codeword, from its 36 data symbols (R379). log entry 67. -/
opaque Config.eccCheck : List (BitVec 4) → List (BitVec 4)

/-- Bank and DRAM row of a line within its pseudo-channel (R386); the mapping is not in the manual. log entry 25. -/
opaque Config.dramPlace : Nat → Nat × Nat

/-- The bank of the spare that replaces a row: die, pseudo-channel, bank, row; R386 says only that it is another bank. log entry 25. -/
opaque Config.spareBank : Nat → Nat → Nat → Nat → Nat

/-- How the error log names a Boardwalk link (R397); the numbering is not in the manual. log entry 25. -/
opaque Config.linkName : BwLink → Word

/-- The HELD epochs of the follower that has a MIRROR_ID, summed over partitions, as another follower knows them (R375): by the
counter of free values. How it learns them is not in the manual. log entry 20. -/
opaque Config.peerHeld : Nat → Nat → Nat

/-- The Lerid patch key held in the microcode ROM (R476). log entry 7. -/
opaque Config.patchKey : Nat

/-- How the error log packs a bank and a DRAM row into one word (R397); the packing is not in the manual. log entry 25. -/
opaque Config.dramRow : Nat → Nat → Word

/-- VERSION of each record of the feature chain (R441), by ID; the manual states none. log entry 25. -/
opaque Config.featureVersion : Nat → BitVec 8

end Sys2Proof
end

