-- ==== Sys2Proof/Machine/State.lean ====
section
/-! DEFINITION. The state of the package as plain data: every register, memory, queue and status that the manual gives
it, the commands that wait, and the package right after reset (before PWR_OK rises, R472, R474). -/

namespace Sys2Proof.Machine

/-! ### Why a step stops -/

/-- Faults. None is raised: every failure that the manual describes leaves a next state (an entry, a halt record, a
violation record, a status word). -/
inductive Fault where
  /-- Raised by no command. Kept so that the type has a value; safe. -/
  | unreachable
  deriving DecidableEq, Repr

/-- Refusals. -/
inductive Refusal where
  /-- Raised by an arm of exec whose command has no meaning yet; safe. -/
  | notModelled (mnemonic : String)
  deriving DecidableEq, Repr

/-! ### Cores (05) -/

/-- A capability: its two words (R48). -/
structure Cap where
  w0 : Word
  w1 : Word
  deriving DecidableEq, Repr

/-- The empty capability (R288). -/
def Cap.empty : Cap := { w0 := 0, w1 := 0 }

/-- Cause names (R179). -/
inductive Cause where
  | none | start | illegal | alignment | divideZero | modeHazard | frameEmpty | codeRange
  | capBounds | capRights | caplineStore | capFormat | fetchBounds | scratchRange | pageFault | pageProtect
  | walkBusError | walkSideEffect | tlbLock | gateViolation | targetViolation | linePoison
  | decimalData | decimalOverflow | decimalDivide | editPattern | stringState | floatTrap
  | txnState | claimFormat | claimRegion | claimMissing | regionKind | accountRange | responseLength
  | frameOverflow | frameUnderflow | loopState | break_
  | intAborted | intAlarm | intHub | intQueue | intDoorbell | cataclysm
  deriving DecidableEq, Repr

/-- CTL without its reserved positions (R153). -/
structure Ctl where
  bk1 : Bool
  exl : Bool
  sres : Bool
  lact : Bool
  lben : Bool
  deriving DecidableEq, Repr

def Ctl.reset : Ctl := { bk1 := false, exl := false, sres := false, lact := false, lben := false }

/-- The special registers of R150 that are held as words. -/
structure Special where
  cause : Word
  epc : Word
  faddr : Word
  savemode : Word
  cause1 : Word
  epc1 : Word
  savemode1 : Word
  excEntry : Word
  dmode : Word
  fmode : Word
  lstart : Word
  lend : Word
  lcount : Word
  fsmem0 : Word
  fsdepth0 : Word
  fsmem1 : Word
  fsdepth1 : Word
  ien : Word
  ipend : Word
  deriving DecidableEq, Repr

def Special.reset : Special :=
  { cause := 0, epc := 0, faddr := 0, savemode := 0, cause1 := 0, epc1 := 0, savemode1 := 0, excEntry := 0, dmode := 0,
    fmode := 0, lstart := 0, lend := 0, lcount := 0, fsmem0 := 0, fsdepth0 := 0, fsmem1 := 0, fsdepth1 := 0, ien := 0,
    ipend := 0 }

/-- The counters of R142; clk is their sum, not wrapped (the model's own). -/
structure Counters where
  cycles : Word
  farwait : Word
  stalls : Word
  idle : Word
  clk : Nat
  deriving DecidableEq, Repr

def Counters.reset : Counters := { cycles := 0, farwait := 0, stalls := 0, idle := 0, clk := 0 }

/-- A pending mode shadow (R159, R161): instructions still to run under the old value, WHICH, the old register value
(WHICH 0 to 2) and the old KC (WHICH 3). -/
structure Shadow where
  left : Nat
  which : BitVec 2
  old : Word
  oldKc : Cap
  deriving DecidableEq, Repr

/-- A frame of the save area (R164). -/
structure Frame where
  set : Bool
  ra : BitVec 18
  mask : BitVec 32
  regs : List Word
  deriving DecidableEq, Repr

/-- A TLB entry (R303). -/
structure TlbEntry where
  v : Bool
  lk : Bool
  lg : Bool
  rd : Bool
  wr : Bool
  pst : Bool
  cp : Bool
  se : Bool
  kind : BitVec 2
  rf : Bool
  vpn : BitVec 20
  frame : BitVec 24
  deriving DecidableEq, Repr

def TlbEntry.reset : TlbEntry :=
  { v := false, lk := false, lg := false, rd := false, wr := false, pst := false, cp := false, se := false, kind := 0,
    rf := false, vpn := 0, frame := 0 }

/-- A binary multiply or divide in flight: destination key, result, and the core cycle from which it can be used
(R199). -/
structure IntOp where
  dest : Nat
  val : Word
  due : Nat
  deriving DecidableEq, Repr

/-- A decimal operation in flight (R234): what it writes, whether it sets MOVF. -/
structure DecOp where
  writes : List (Nat × Int)
  movf : Bool
  due : Nat
  deriving DecidableEq, Repr

/-- A floating-point operation in flight (R269, R274, R275): register writes, raised flags (IV first), whether it traps,
its trap record words, whether it is in the divide-and-root part. -/
structure FpOp where
  writes : List (Nat × Word)
  flags : BitVec 6
  traps : Bool
  record : List Word
  root : Bool
  due : Nat
  deriving DecidableEq, Repr

/-- Progress of a string or edit instruction in the terms of W28 to W30 (R250). -/
structure StrProg where
  n : Nat
  m : Nat
  f0 : Bool
  f1 : Bool
  k : Nat
  lead : Nat
  deriving DecidableEq, Repr

def StrProg.zero : StrProg := { n := 0, m := 0, f0 := false, f1 := false, k := 0, lead := 0 }

/-- The instruction in progress: its progress, the characters that its earlier rounds of reads returned, what it waits
for. With nothing awaited, the instruction waits by itself, and its own command tries again. -/
structure Cur where
  instr : Instr
  /-- a string instruction: its next unit, whether its checks are done, whether it was resumed and has performed no unit
  yet, the cycles of the units of this run (R250, R251, R253) -/
  prog : StrProg
  begun : Bool
  resumed : Bool
  cost : Nat
  rounds : List (List Chr)
  /-- status and Dx of a posting operation (R126) -/
  post : Option (Nat × Int)
  /-- the access awaited -/
  acc : Option Nat
  /-- the virtual address whose walk is awaited (R301) -/
  walk : Option Nat
  /-- the gate's answer is awaited (R130) -/
  gate : Bool
  /-- an interrupt may abandon the wait (R176) -/
  soft : Bool
  /-- translations that walks of this instruction have returned -/
  xlat : List TlbEntry
  deriving DecidableEq, Repr

/-- One ledger core (R147 to R150, R158 to R178). -/
structure CoreRegs where
  /-- key n: Wn of bank 0; key 32 + n, n from 24: bank 1 (R147) -/
  w : Sparse Word
  /-- DA to DD as signed integers (R148, R222) -/
  d : Sparse Int
  /-- 0 to 7 K0–K7, 8 KC, 9 KS, 10 SKC, 11 SKC1, 16 to 23 KX0–KX7, 24 KCX, 25 KSX (R149) -/
  k : Sparse Cap
  sp : Special
  ctl : Ctl
  cnt : Counters
  shadow : Option Shadow
  /-- the save area, oldest frame first (R164) -/
  frames : List Frame
  deriving DecidableEq, Repr

def CoreRegs.reset : CoreRegs :=
  { w := [], d := [], k := [], sp := .reset, ctl := .reset, cnt := .reset, shadow := none, frames := [] }

/-- The beside units of a core (R162) and the trap record (R276, R277). -/
structure Beside where
  mul : List IntOp
  div : Option IntOp
  dec : Option DecOp
  fp : List FpOp
  trap : Sparse Word
  ftPend : Bool
  deriving DecidableEq, Repr

def Beside.reset : Beside := { mul := [], div := none, dec := none, fp := [], trap := [], ftPend := false }

/-- The microcode sequencer of a core (R180 to R185). -/
structure Micro where
  /-- the current microaddress -/
  upc : BitVec 13
  /-- the last 16 microaddresses, oldest first -/
  trace : List (BitVec 13)
  didx : Word
  sidx : Word
  /-- the value last moved into each destination port of a unit -/
  ports : Sparse Word
  /-- the ALU's result and carry -/
  alu : Word
  carry : Bool
  /-- the patch holding register -/
  hold : Word
  /-- CORE_ID, which the sequencer reads as special register 21 -/
  coreId : Word
  /-- the model's own: what the free values of this sequencer are applied to, drawn at its start, and the microwords since -/
  born : Nat
  ticks : Nat
  deriving DecidableEq, Repr

/-- No rule gives the sequencer's values at reset: DESIGN CHOICE, log entry 5. -/
def Micro.reset : Micro :=
  { upc := 0, trace := List.replicate 16 0, didx := 0, sidx := 0, ports := [], alu := 0, carry := false, hold := 0,
    coreId := 0, born := 0, ticks := 0 }

structure Core where
  r : CoreRegs
  u : Beside
  /-- address of the next instruction (R196) -/
  pc : Nat
  /-- the syllables held from pc on (R154) -/
  fetchQ : List Syll
  /-- the loop buffer: form held for an address (R158) -/
  loopBuf : List (Nat × Syll)
  /-- a write to the code store has invalidated the buffer: it is emptied at the next loop-back (R155) -/
  bufStale : Bool
  /-- a DOORBELL of this core has set its own INT_DOORBELL bit, as of the cycle after (R219) -/
  bell : Bool
  /-- started and powered -/
  running : Bool
  halted : Bool
  haltRec : Word
  /-- slot held, R111 -/
  txn : Option Nat
  alarm : Option Word
  /-- tick of the die at which the alarm was armed (R86, R88) -/
  alarmTick : Option (BitVec 48)
  tvPend : Option Word
  tlb : Sparse TlbEntry
  victim : Nat
  cur : Option Cur
  /-- match registers and patch RAM (R182) -/
  matchRegs : Sparse Word
  patchRam : Sparse (BitVec 32)
  micro : Micro
  diagSel : Word
  /-- an uncorrectable error stands in a register or in the save area (R173, reason 5) -/
  regBad : Bool
  /-- a core register with a correctable symbol (R382) -/
  regCe : Option Nat
  deriving DecidableEq, Repr

def Core.reset : Core :=
  { r := .reset, u := .reset, pc := 0, fetchQ := [], loopBuf := [], bufStale := false, bell := false, running := false, halted := false, haltRec := 0,
    txn := none, alarm := none, alarmTick := none, tvPend := none, tlb := [], victim := 0, cur := none, matchRegs := [], patchRam := [],
    micro := .reset, diagSel := 0, regBad := false, regCe := none }

/-- KEY, CAPLINE and POISON of a line (R51). key none: the initial key of the line's region, or 0 for a scratch line; keyed:
a key instruction has changed it (R52). -/
structure LineMeta where
  key : Option (BitVec 4)
  keyed : Bool
  capline : Bool
  poison : Bool
  deriving DecidableEq, Repr

def LineMeta.reset : LineMeta := { key := none, keyed := false, capline := false, poison := false }

/-- One cluster (R22, R143, R146). -/
structure Cluster where
  code : Sparse Syll
  /-- damaged code-store units of four syllables (R382) -/
  codeBad : List Nat
  /-- correctable symbols in code-store units: unit, codeword, place (R382) -/
  codeCe : List (Nat × Nat × Nat)
  scratch : Sparse Chr
  scratchMeta : Sparse LineMeta
  /-- scratch lines with an uncorrectable error not yet found (R143) -/
  scratchBad : List Nat
  /-- correctable symbols in scratch lines: line, codeword, place (R382) -/
  scratchCe : List (Nat × Nat × Nat)
  /-- slots that hold a borrowed set of eight claim registers (R115) -/
  pool : List Nat
  part : Option PartId
  retired : Bool
  /-- walks asked for, first come first: core and virtual address (R302) -/
  walks : List (CoreId × Nat)
  selfChecked : Bool
  deriving DecidableEq, Repr

def Cluster.reset : Cluster :=
  { code := [], codeBad := [], codeCe := [], scratch := [], scratchMeta := [], scratchBad := [], scratchCe := [], pool := [], part := none,
    retired := false, walks := [], selfChecked := false }

/-! ### Accesses in flight (R281 to R283, R314) -/

/-- What an access does at its target. -/
inductive AccOp where
  | read
  | write
  /-- CLD: a capability load (R291) -/
  | cld
  /-- CST: a capability store (R292) -/
  | cst
  /-- CAPLN (true) and DATALN (false): a whole line (R293) -/
  | wholeLine (cap : Bool)
  | setkey (k : BitVec 4)
  | getkey
  /-- DPOST: control word, addend (R126) -/
  | dpost (ctl : Word) (x : Int)
  /-- DCAS: control word, comparand, new value (R126) -/
  | dcas (ctl : Word) (x y : Int)
  deriving DecidableEq, Repr

/-- One part of an access (R282): addresses of its first character (for scratch, the offset), length, KEY and SYS of its
capability, the characters to write, and the characters read once performed. -/
structure AccPart where
  va : Nat
  pa : Nat
  len : Nat
  scratch : Bool
  /-- it is a whole operand, not one of the parts of a larger one (R59, R449) -/
  whole : Bool
  /-- the line is claimed by the issuing core's transaction -/
  claimed : Bool
  /-- a store of an aborted transaction to a ledger line: it is discarded (R131) -/
  void : Bool
  key : BitVec 4
  sys : Bool
  data : List Chr
  /-- the bank of the gate's rules that admitted it, for SWAP_DONE (R320) -/
  bank : Bool
  /-- the slot of that bank that admitted it, 127 for the default map (R317) -/
  slot : Nat
  /-- a part of a store that every check has accepted (R314) -/
  cleared : Bool
  /-- its check has failed while an earlier part is still to be checked: the cause (R282) -/
  refused : Option Cause
  resp : Option (List Chr)
  deriving DecidableEq, Repr

/-- Where an access stands. -/
inductive AccSt where
  | sent
  | admitted
  /-- refused or failed: the cause at the core, and the failing character's virtual address -/
  | failed (cause : Cause) (va : Nat)
  /-- a posting operation's result: status and the value for Dx (R126) -/
  | posted (status : Nat) (dx : Int)
  deriving DecidableEq, Repr

structure Access where
  id : Nat
  core : CoreId
  op : AccOp
  part : PartId
  /-- a posted store (R314) -/
  posted : Bool
  /-- slot of the claim under which it is made, on the issuing core's die -/
  slot : Option Nat
  parts : List AccPart
  /-- its place in the order of arrival, once admitted (R55) -/
  arrival : Nat
  /-- an unclaimed read sent while its die holds such reads (R93) -/
  held : Bool
  /-- its wait for before-image space has been counted (R124) -/
  waited : Bool
  st : AccSt
  deriving DecidableEq, Repr

/-! ### Slots, claims, images (04) -/

/-- Slot states (R135). -/
inductive SlotSt where
  | free | queued | taken | declared | granted | resolving | committed | aborted
  deriving DecidableEq, Repr

/-- Outcomes of the gate, with the codes of R358. -/
inductive Outcome where
  | committed | software | curfew | memerr
  deriving DecidableEq, Repr

/-- The peer of a session or of a frame (R334, R367): MAC, IP address (128 bits, IPv4 mapped), UDP port, VLAN tags as their
four octets (0 for none), and the port address that it used (the model's own; 0 when not known). -/
structure Peer where
  self : Nat
  mac : Nat
  v6 : Bool
  ip : Nat
  udp : Nat
  outer : Nat
  inner : Nat
  deriving DecidableEq, Repr

def Peer.none : Peer := { self := 0, mac := 0, v6 := false, ip := 0, udp := 0, outer := 0, inner := 0 }

/-- A claim of a transaction as its core holds it: engine die, claimed line, the record's lines, granted (R115, R121). -/
structure ClaimReg where
  die : Nat
  line : Nat
  lines : List Nat
  granted : Bool
  deriving DecidableEq, Repr

/-- A DACC entry (R126, R127): die, line, word of the line, FW, addend, and the virtual address for R315. -/
structure DaccEntry where
  die : Nat
  line : Nat
  word : Nat
  fw : Nat
  x : Int
  va : Nat
  key : BitVec 4
  sys : Bool
  /-- its wait for before-image space has been counted (R124) -/
  waited : Bool
  deriving DecidableEq, Repr

/-- How a transaction entered (R112, R136). -/
structure Origin where
  host : Bool
  /-- landing port, or host queue for an injection -/
  port : Nat
  sid : BitVec 32
  seq : BitVec 32
  tag : BitVec 32
  peer : Peer
  deriving DecidableEq, Repr

def Origin.none : Origin := { host := false, port := 0, sid := 0, seq := 0, tag := 0, peer := .none }

/-- An admission slot (R108). -/
structure Slot where
  st : SlotSt
  part : PartId
  pos : Position
  curfew : BitVec 48
  org : Origin
  /-- the landed octets and their characters (R40, R41) -/
  octets : List Octet
  chars : List Chr
  dense : Bool
  core : Option CoreId
  claims : List ClaimReg
  borrowed : Bool
  acc : List DaccEntry
  /-- pointer of its packet in the admit queue, if it lies there (R108, R351) -/
  place : Option Nat
  /-- body placed by TXN.RESPOND -/
  resp : Option (List Octet)
  outcome : Option Outcome
  restored : Bool
  departed : Bool
  deriving DecidableEq, Repr

def Slot.reset : Slot :=
  { st := .free, part := 0, pos := ⟨0, 0, 0⟩, curfew := 0, org := .none, octets := [], chars := [], dense := false,
    core := none, claims := [], borrowed := false, acc := [], place := none, resp := none, outcome := none, restored := false,
    departed := false }

/-- A claim at its engine (R118, R119): line of the die, the record's lines, position, partition, declaring die and slot,
granted, in the overflow area (R120). -/
structure Claim where
  line : Nat
  lines : List Nat
  part : PartId
  pos : Position
  fromDie : DieId
  slot : Nat
  granted : Bool
  overflow : Bool
  /-- changed symbols of its unit of the overflow area (R382) -/
  hurt : List (Nat × BitVec 4)
  deriving DecidableEq, Repr

/-- A before-image (slot and epoch) or a join image (join true, tagged J) (R122, R128, R373). -/
structure Image where
  line : Nat
  part : PartId
  epoch : Nat
  /-- declaring die and slot; none for an accumulator or join image -/
  owner : Option (DieId × Nat)
  join : Bool
  chars : List Chr
  info : LineMeta
  /-- changed symbols of its 80-byte unit (R382) -/
  hurt : List (Nat × BitVec 4)
  deriving DecidableEq, Repr

/-- A line under repair (R385), from the partner die or from a follower. -/
structure Repair where
  line : Nat
  part : PartId
  epoch : Nat
  partner : Bool
  deriving DecidableEq, Repr

/-- What a digest record of a transaction is made of (R358): bits of the record. -/
structure DigestRec where
  part : PartId
  epoch : Nat
  pos : Position
  bits : List Bool
  deriving DecidableEq, Repr

/-- A queue record (R348). -/
structure Queue where
  en : Bool
  kind : BitVec 2
  dense : Bool
  size : Nat
  tmpl : Nat
  base : Nat
  wptr : Nat
  rptr : Nat
  cen : Bool
  hen : Bool
  die : Nat
  cluster : Nat
  cores : BitVec 8
  vector : Nat
  thresh : Nat
  overrun : Bool
  qerr : Bool
  drops : Word
  /-- the condition as last seen (R356) -/
  cond : Bool
  deriving DecidableEq, Repr

def Queue.reset : Queue :=
  { en := false, kind := 0, dense := false, size := 0, tmpl := 0, base := 0, wptr := 0, rptr := 0, cen := false,
    hen := false, die := 0, cluster := 0, cores := 0, vector := 0, thresh := 0, overrun := false, qerr := false,
    drops := 0, cond := false }

/-- Ledger memory of a die with its tables (R51, R57, R118, R122). -/
structure DieMem where
  mem : Sparse Chr
  info : Sparse LineMeta
  /-- initial keys that images have given to ranges of lines, the latest first: first line, last line, key (R52) -/
  keys : List (Nat × Nat × BitVec 4)
  images : List Image
  repairs : List Repair
  /-- DACC entries of committed transactions not yet applied: issuing core, epoch, partition, entry (R127) -/
  dacc : List (CoreId × Nat × PartId × DaccEntry)
  /-- DRAM rows remapped to a spare: pseudo-channel, bank, row, under post-package repair (R386, R387) -/
  remaps : List (Nat × Nat × Nat × Bool)
  /-- the bank of the spare that serves a remapped row: pseudo-channel, bank, row, bank of the spare (R386) -/
  spares : List (Nat × Nat × Nat × Nat)
  /-- rows being copied to a spare (R386) -/
  copying : List (Nat × Nat × Nat)
  /-- corrected symbols that a row has given within the scrub pass: pseudo-channel, bank, row, count (R386) -/
  rowCe : List (Nat × Nat × Nat × Nat)
  deriving DecidableEq, Repr

def DieMem.reset : DieMem :=
  { mem := [], info := [], keys := [], images := [], repairs := [], dacc := [], remaps := [],
    spares := [], copying := [], rowCe := [] }

/-- The order side of a die (03, 04). -/
structure DieOrder where
  tick : BitVec 48
  /-- Horizon last announced by the die -/
  hzSent : BitVec 48
  /-- latest Horizon of each unit: 0 to 7 dies, 8 the hub (R83) -/
  hzSeen : Sparse (BitVec 48)
  visible : Sparse Nat
  holding : Sparse (Option Nat)
  /-- frontiers received: key 16 × die + partition (R117) -/
  frontier : Sparse (Option Position)
  frontSent : Sparse (Option Position)
  edgeStep : Nat
  slots : Sparse Slot
  claims : List Claim
  deriving DecidableEq, Repr

def DieOrder.reset : DieOrder :=
  { tick := 0, hzSent := 0, hzSeen := [], visible := [], holding := [], frontier := [], frontSent := [], edgeStep := 0,
    slots := [], claims := [] }

structure Die where
  fenced : Bool
  member : Bool
  /-- the hub has decided to fence the die, with this row of R388 -/
  fenceDue : Option FenceCause
  o : DieOrder
  m : DieMem
  /-- queue RAM by character (R346) -/
  qram : Sparse Chr
  /-- queue RAM lines with an uncorrectable error, and correctable symbols: line, codeword, place (R382) -/
  qramBad : List Nat
  qramCe : List (Nat × Nat × Nat)
  /-- queue records: key 8 × partition + queue (R348) -/
  queues : Sparse Queue
  hubMsg : Sparse Word
  scrub : Sparse Nat
  scrubPass : Sparse Word
  ceCount : Word
  daccWrap : Word
  daccSkip : Word
  digests : List DigestRec
  unordered : Sparse (BitVec 64)
  deriving DecidableEq, Repr

def Die.reset : Die :=
  { fenced := false, member := false, fenceDue := none, o := .reset, m := .reset, qram := [], qramBad := [], qramCe := [], queues := [], hubMsg := [],
    scrub := [], scrubPass := [], ceCount := 0, daccWrap := 0, daccSkip := 0, digests := [], unordered := [] }

/-! ### Gates (R308 to R319) -/

/-- A gate rule (R309). -/
structure Rule where
  en : Bool
  lock : Bool
  kind : BitVec 2
  rd : Bool
  wr : Bool
  pst : Bool
  pmask : BitVec 16
  first : Nat
  last : Nat
  deriving DecidableEq, Repr

def Rule.reset : Rule :=
  { en := false, lock := false, kind := 0, rd := false, wr := false, pst := false, pmask := 0, first := 0, last := 0 }

structure Gate where
  bank0 : Sparse Rule
  bank1 : Sparse Rule
  abank : Bool
  swapDone : Bool
  swaps : BitVec 12
  status : Word
  source : Word
  addrHi : Word
  addrLo : Word
  stamp : Word
  deriving DecidableEq, Repr

def Gate.reset : Gate :=
  { bank0 := [], bank1 := [], abank := false, swapDone := true, swaps := 0, status := 0, source := 0, addrHi := 0,
    addrLo := 0, stamp := 0 }

/-! ### Sessions (R334) -/

/-- States of a request number (R337). -/
inductive NumSt where
  | none | inflight | held
  deriving DecidableEq, Repr

/-- A session entry (R334). -/
structure Session where
  isOpen : Bool
  gen : BitVec 18
  peer : Peer
  nonce : BitVec 32
  part : Option PartId
  base : BitVec 32
  /-- states of the numbers of the window, key the number -/
  win : Sparse NumSt
  lastTick : BitVec 48
  /-- a request is not yet acknowledged (R339) -/
  ackDue : Bool
  deriving DecidableEq, Repr

def Session.reset : Session :=
  { isOpen := false, gen := 1, peer := .none, nonce := 0, part := none, base := 0, win := [], lastTick := 0,
    ackDue := false }

/-! ### Boardwalk messages (R29, R30) -/

/-- Requests to the commit gate (R129). -/
inductive Resolve where
  | commit | abort | memerr
  deriving DecidableEq, Repr

/-- A request, an answer and a grant name the slot and the position that it holds. -/
inductive Msg where
  | horizon (src dst : HzUnit) (t : BitVec 48)
  | release (dst : DieId) (p : PartId) (e : Nat)
  | claim (dst : DieId) (c : Claim)
  | grant (dst : DieId) (slot line : Nat) (engine : DieId) (pos : Position)
  | frontier (src dst : DieId) (p : PartId) (f : Position)
  | claimRelease (dst : DieId) (line slot : Nat) (src : DieId)
  | resolve (src : DieId) (slot : Nat) (pos : Position) (r : Resolve)
  | answer (dst : DieId) (slot : Nat) (pos : Position) (o : Outcome)
  | notice (dst : DieId) (slot : Nat) (pos : Position) (o : Outcome)
  /-- a landed-frame copy; to a tandem partner, with the landing die's decision and the session table (R110, R357) -/
  | copy (dst : DieId) (s : Slot) (admitted : Bool) (sess : Option (Sparse Session))
  | digest (src : DieId) (p : PartId) (e : Nat) (ord unord : BitVec 64)
  | switched (src : DieId) (p : PartId) (e : Nat)
  /-- a repair asks the partner die of a tandem pair for a line as of an epoch, and its answer: STATUS as in R372 (R385) -/
  | fetchLine (src dst : DieId) (line e : Nat)
  | lineAnswer (src dst : DieId) (line e status : Nat) (key : BitVec 4) (capline : Bool) (chars : List Chr)
  deriving DecidableEq, Repr

/-! ### Sundial (03) -/

/-- Qualification of a source (R64): a measurement has been delivered, ms of unbroken run, last offset. -/
structure Source where
  seen : Bool
  runMs : Nat
  last : Int
  /-- posting time at the last measurement -/
  at_ : Nat
  qualified : Bool
  /-- frequency correction of its servo at the last measurement (R331) -/
  y : Int
  deriving DecidableEq, Repr

def Source.reset : Source := { seen := false, runMs := 0, last := 0, at_ := 0, qualified := false, y := 0 }

/-- States of the Sundial (R65). -/
inductive SdSt where
  | unset | acquiring | locked | holdover | free
  deriving DecidableEq, Repr

structure SdRegs where
  st : SdSt
  source : BitVec 3
  which : Bool
  port : BitVec 6
  admitOpen : Bool
  slewing : Bool
  night : Bool
  beforeOrigin : Bool
  time : Pair
  tick : BitVec 48
  era : Word
  epoch : Nat
  tickNs : Nat
  epochTicks : Nat
  origin : Nat
  offset : Int
  freq : Int
  holdMs : Nat
  setHi : Word
  setLo : Word
  err : Word
  deriving DecidableEq, Repr

def SdRegs.reset : SdRegs :=
  { st := .unset, source := 0, which := false, port := 0, admitOpen := false, slewing := false, night := false,
    beforeOrigin := false, time := 0, tick := 0, era := 0, epoch := 0, tickNs := 100, epochTicks := 20, origin := 0,
    offset := 0, freq := 0, holdMs := 0, setHi := 0, setLo := 0, err := 0 }

structure Sundial where
  g : SdRegs
  /-- SD_SET_LO has been written and posting time runs (R104) -/
  running : Bool
  /-- the pair that the last write of SD_SET_LO took as a posting time (R104) -/
  setTaken : Pair
  /-- the whole seconds of a kind 3 source have been taken (R63) -/
  secondsTaken : Bool
  pri : Source
  sec : Source
  /-- admission has opened since the reset (R67) -/
  opened : Bool
  /-- last step of R85 launched at this edge -/
  edgeStep : Nat
  /-- SEQ counters of the internal sources, key PORT (R78), and the tick they count in -/
  seq : Sparse Nat
  seqTick : BitVec 48
  hzHub : BitVec 48
  /-- Horizons the hub has received, key die (R83) -/
  hzSeen : Sparse (BitVec 48)
  stalled : BitVec 8
  /-- posting time at the last entry into HOLDOVER -/
  holdStart : Nat
  /-- frequency corrections of the last 64 s of lock, with their posting times (R68) -/
  freqLog : List (Nat × Int)
  holdReported : Bool
  lockReported : Bool
  /-- positions of the SUNDIAL events, recorded for audit (R78) -/
  audit : List Position
  /-- time since reset by the hub's edges, ns; it never stands still (R326) -/
  ran : Nat
  deriving DecidableEq, Repr

def Sundial.reset : Sundial :=
  { g := .reset, running := false, setTaken := 0, secondsTaken := false, pri := .reset, sec := .reset, opened := false, edgeStep := 0,
    seq := [], seqTick := 0, hzHub := 0, hzSeen := [], stalled := 0, holdStart := 0, freqLog := [], holdReported := false, lockReported := false,
    audit := [], ran := 0 }

/-! ### Partitions as the hub holds them -/

/-- States of R363. -/
inductive PartSt where
  | normal | reexec | degraded | stopped | following | joining
  deriving DecidableEq, Repr

/-- The gate's record of a transaction (R129, R132). -/
structure GateTxn where
  pos : Position
  epoch : Nat
  curfew : BitVec 48
  die : DieId
  slot : Nat
  org : Origin
  /-- octets of the request body for the echo ranges (R133) -/
  octets : List Octet
  outcome : Option Outcome
  deriving DecidableEq, Repr

/-- An entry of an input log (R136, R367). -/
structure LogEntry where
  pos : Position
  kind : Nat
  data : List Octet
  marks : List Bool
  target : Position
  peer : Peer
  deriving DecidableEq, Repr

/-- Counters of R140. -/
structure PCounters where
  admitted : Word
  refused : Word
  committed : Word
  swabort : Word
  curfew : Word
  memerr : Word
  standin : Word
  bimgWait : Word
  grantMax : Word
  deriving DecidableEq, Repr

def PCounters.reset : PCounters :=
  { admitted := 0, refused := 0, committed := 0, swabort := 0, curfew := 0, memerr := 0, standin := 0, bimgWait := 0,
    grantMax := 0 }

structure Partition where
  st : PartSt
  stEpoch : Nat
  sealed : Nat
  released : Nat
  visible : Nat
  cnt : PCounters
  txns : List GateTxn
  /-- input logs by epoch, entries in order of stamping -/
  logs : Sparse (List LogEntry)
  /-- changed symbols of the input-log buffer, by epoch (R382) -/
  logHurt : Sparse (List (Nat × BitVec 4))
  /-- digests the hub holds: die, epoch, ORDERED, UNORDERED -/
  digests : List (DieId × Nat × BitVec 64 × BitVec 64)
  /-- ORDERED and UNORDERED of sealed epochs, for the trailer (R367) and re-execution (R360) -/
  sealedDigests : Sparse (Option (BitVec 64 × BitVec 64))
  /-- stand-ins to depart: the transaction (R133) -/
  standins : List GateTxn
  /-- epoch acknowledged by each follower, key MIRROR_ID (R369) -/
  acked : Sparse Nat
  /-- a follower's log segments received and not applied, by epoch, and, of a LAST segment, its number and its trailer (R367,
  R369) -/
  held : Sparse (List (Nat × List LogEntry))
  heldLast : Sparse (Option (Nat × Nat × BitVec 64 × BitVec 64))
  /-- entries of epochs held complete that have not been entered yet, with their epochs (R370) -/
  todo : List (Nat × LogEntry)
  applied : Nat
  /-- J of a join in progress (R373) -/
  joinEpoch : Option Nat
  /-- the follower that joins -/
  joinTo : Nat
  /-- last epoch of a re-execution in progress (R360) -/
  reexecTo : Nat
  /-- epoch at which the last partial image of p took effect (R426) -/
  planEpoch : Option Nat
  deriving DecidableEq, Repr

def Partition.reset : Partition :=
  { st := .normal, stEpoch := 0, sealed := 0, released := 0, visible := 0, cnt := .reset, txns := [], logs := [], logHurt := [],
    digests := [], sealedDigests := [], standins := [], acked := [], held := [], heldLast := [],
    todo := [], applied := 0, joinEpoch := none, joinTo := 0, reexecTo := 0, planEpoch := none }

/-! ### Ports (10) -/

/-- An LPT message as taken from its datagram (R332). -/
structure Lpt where
  type : Nat
  flags : BitVec 16
  sid : BitVec 32
  seq : BitVec 32
  ack : BitVec 32
  sack : BitVec 32
  deadline : Nat
  steer : BitVec 16
  tag : BitVec 32
  body : List Octet
  /-- the whole message, header included: the landed form -/
  octets : List Octet
  peer : Peer
  deriving DecidableEq, Repr

/-- A response in a departure queue (R350): held until its epoch is visible, then kept for LPT (R343). -/
structure Cached where
  part : PartId
  /-- the transaction's admit die and slot -/
  die : Nat
  slot : Nat
  departed : Bool
  epoch : Nat
  sid : BitVec 32
  seq : BitVec 32
  tag : BitVec 32
  peer : Peer
  /-- timed resends so far (R343) -/
  sends : Nat
  /-- sends that wait for the link: the departure, or resends (R329, R355) -/
  due : Nat
  /-- tick of the last send -/
  tick : BitVec 48
  /-- pointer of its packet, which holds the body, in the departure queue (R350) -/
  ptr : Nat
  /-- departs with RETX set after a takeover (R377) -/
  retx : Bool
  deriving DecidableEq, Repr

/-- One foreign server's dataset as Announce carries it (R331; IEEE 1588-2019). -/
structure PtpDataset where
  priority1 : Nat
  clockClass : Nat
  accuracy : Nat
  variance : Nat
  priority2 : Nat
  identity : Nat
  stepsRemoved : Nat
  deriving DecidableEq, Repr

/-- The PTP client (R330, R331); times in ns. -/
structure PtpClient where
  foreign : List (Nat × PtpDataset)
  server : Option Nat
  integral : Int
  pathDelay : Int
  interval : Int
  t1 : Int
  t2 : Int
  corr : Int
  pend : Bool
  /-- t1, t2, t4 and the correction of a two-step Pdelay_Resp -/
  pd : Option (Int × Int × Int × Int)
  /-- sequence numbers of the last request sent and of the last Sync -/
  reqSeq : Nat
  syncSeq : Nat
  /-- where the time server sends from, while it sends unicast (R330) -/
  unicast : Option Peer
  deriving DecidableEq, Repr

def PtpClient.reset : PtpClient :=
  { foreign := [], server := none, integral := 0, pathDelay := 0, interval := 0, t1 := 0, t2 := 0, corr := 0,
    pend := false, pd := none, reqSeq := 0, syncSeq := 0, unicast := none }

/-- Counters of R347, in the order of their offsets from +8. -/
structure PortCnt where
  rxFrames : Word
  rxErr : Word
  rxPause : Word
  rxFilter : Word
  rxIperr : Word
  rxPtp : Word
  rxSide : Word
  txFrames : Word
  badHdr : Word
  noSession : Word
  refused : Word
  resent : Word
  standins : Word
  deriving DecidableEq, Repr

def PortCnt.reset : PortCnt :=
  { rxFrames := 0, rxErr := 0, rxPause := 0, rxFilter := 0, rxIperr := 0, rxPtp := 0, rxSide := 0, txFrames := 0,
    badHdr := 0, noSession := 0, refused := 0, resent := 0, standins := 0 }

structure Port where
  lanes : BitVec 4
  fec : Bool
  up : Bool
  cnt : PortCnt
  sessions : Sparse Session
  /-- shadow of the partner port's sessions (R357) -/
  shadow : Sparse Session
  inbox : List Lpt
  ptpIn : List (List Octet)
  /-- frames waiting: priority of R329 and octets without FCS -/
  out : List (Nat × List Octet)
  seq : Nat
  seqTick : BitVec 48
  refusedTick : BitVec 48
  refusedTo : List (Nat × Nat × Nat)
  /-- second of the hub's time since reset and echo answers sent in it (R326) -/
  echoSec : Nat
  echoSent : Nat
  cached : List Cached
  ptp : PtpClient
  /-- partition whose departure queue was served last (R329) -/
  rr : Nat
  adopted4 : List Nat
  adopted6 : List Nat
  deriving DecidableEq, Repr

def Port.reset : Port :=
  { lanes := 0, fec := false, up := false, cnt := .reset, sessions := [], shadow := [], inbox := [], ptpIn := [],
    out := [], seq := 0, seqTick := 0, refusedTick := 0, refusedTo := [], echoSec := 0, echoSent := 0, cached := [], ptp := .reset, rr := 0,
    adopted4 := [], adopted6 := [] }

/-! ### Mirror (11) -/

/-- Payloads of mirror frames (R366). -/
inductive MPayload where
  | log (p : PartId) (first last : Bool) (seg e : Nat) (entries : List LogEntry) (total : Nat) (ord unord : BitVec 64)
  | ack (p : PartId) (held applied : Nat) (miss : List (Nat × Nat))
  | fetch (p die line e : Nat) (tag : BitVec 32)
  | line (p die line e : Nat) (tag : BitVec 32) (status : Nat) (info : Octet) (data : List Octet)
  | heart (role flags heard sd : Nat) (t1 t3 t4 : Nat) (epochs : List Nat)
  | take (lead : Nat) (held : List Nat)
  | join (p : PartId)
  | joined (p : PartId) (j done : Nat)
  deriving DecidableEq, Repr

/-- A mirror frame (R365). -/
structure MFrame where
  src : Fin 4
  term : Nat
  fseq : Nat
  body : MPayload
  deriving DecidableEq, Repr

/-- What a package knows of a peer (R364, R371). -/
structure MPeer where
  heard : Bool
  secondary : Bool
  role : Nat
  flags : Nat
  leadHeard : Bool
  lastT1 : Nat
  lastT4 : Nat
  epochs : List Nat
  fseq : Nat
  deriving DecidableEq, Repr

def MPeer.reset : MPeer :=
  { heard := false, secondary := false, role := 0, flags := 0, leadHeard := false, lastT1 := 0, lastT4 := 0,
    epochs := [], fseq := 0 }

structure Mirror where
  /-- 0 solo, 1 lead, 2 follower, 3 stale (R394) -/
  role : BitVec 2
  id : Fin 4
  dropped : BitVec 4
  synced : Bool
  diverged : Bool
  term : Nat
  drop : Word
  peers : Sparse MPeer
  inbox : List MFrame
  lead : Option (Fin 4)
  /-- the lead has been declared lost (R375) -/
  leadLost : Bool
  /-- fetches of repairs and joins awaiting a LINE: tag, die, line, partition -/
  fetchTag : Nat
  /-- the plan chain is being loaded, and its octets received (R431) -/
  loading : Bool
  chainIn : List Octet
  slow : BitVec 2
  /-- the highest tick of any position replayed, and that once the package has taken the lead (R71) -/
  replayed : Option (BitVec 48)
  replayTick : Option (BitVec 48)
  /-- a takeover has begun and waits for the held epochs to be applied (R377) -/
  taking : Bool
  /-- the lead whose place it takes, whose announced epochs stay CACHED (R377) -/
  oldLead : Option (Fin 4)
  /-- integral of the servo on the lead's heartbeats (R331, R371) -/
  integral : Int
  deriving DecidableEq, Repr

def Mirror.reset : Mirror :=
  { role := 0, id := 0, dropped := 0, synced := false, diverged := false, term := 0, drop := 0, peers := [], inbox := [],
    lead := none, leadLost := false, fetchTag := 0, loading := false, chainIn := [], slow := 0, replayed := none, replayTick := none,
    taking := false, oldLead := none, integral := 0 }

/-- An error-log entry (R393). -/
structure LogRec where
  w0 : Word
  w1 : Word
  w2 : Word
  w3 : Word
  deriving DecidableEq, Repr

def LogRec.reset : LogRec := { w0 := 0, w1 := 0, w2 := 0, w3 := 0 }

/-- Status of tandem pair k (R394). -/
structure TsPair where
  tandem : Bool
  fencedLo : Bool
  fencedHi : Bool
  mismatches : BitVec 12
  reexecs : BitVec 12
  epoch : Word
  digest : Word
  deriving DecidableEq, Repr

def TsPair.reset : TsPair :=
  { tandem := false, fencedLo := false, fencedHi := false, mismatches := 0, reexecs := 0, epoch := 0, digest := 0 }

/-! ### The plan (12) -/

structure PlanPart where
  clusters : BitVec 64
  homes : List Nat
  vbase : List Word
  ptRoot : Nat
  admitDie : List Nat
  excEntry : Word
  kx : List Cap
  hfirst : Nat
  hlast : Nat
  hflags : BitVec 4
  deriving DecidableEq, Repr

def PlanPart.reset : PlanPart :=
  { clusters := 0, homes := [], vbase := [], ptRoot := 0, admitDie := [], excEntry := 0, kx := [], hfirst := 0, hlast := 0,
    hflags := 0 }

structure Region where
  part : Nat
  die : Nat
  slot : Nat
  kind : Nat
  flags : BitVec 4
  key : Nat
  first : Nat
  last : Nat
  deriving DecidableEq, Repr

structure PlanQueue where
  en : Nat
  form : Nat
  size : Nat
  tmpl : Nat
  base : Nat
  iflags : Nat
  idie : Nat
  icluster : Nat
  cores : Nat
  vector : Nat
  thresh : Nat
  deriving DecidableEq, Repr

structure PlanQArea where
  part : Nat
  die : Nat
  flags : Nat
  first : Nat
  last : Nat
  qs : List PlanQueue
  deriving DecidableEq, Repr

/-- A landing-template rule (R345, R414). -/
structure TRule where
  kind : Nat
  value : Nat
  low : Nat
  high : Nat
  lo : Nat
  hi : Nat
  deriving DecidableEq, Repr

structure PlanPort where
  mac : Nat
  untagged : Bool
  vids : List Nat
  v4 : List Nat
  v6 : List Nat
  steer : List Nat
  templates : List (List TRule)
  deriving DecidableEq, Repr

structure PlanStandin where
  body : List Octet
  echo : List (Nat × Nat × Nat)
  deriving DecidableEq, Repr

structure PlanCode where
  die : Nat
  cluster : Nat
  start : Nat
  sylls : List Syll
  deriving DecidableEq, Repr

structure PlanLine where
  chars : List Chr
  key : Nat
  capline : Bool
  deriving DecidableEq, Repr

structure PlanData where
  inst : Nat
  target : Nat
  die : Nat
  cluster : Nat
  line : Nat
  lines : List PlanLine
  deriving DecidableEq, Repr

structure PlanMember where
  valid : Bool
  primary : Nat
  secondary : Nat
  mac : Nat
  outer : Nat
  inner : Nat
  deriving DecidableEq, Repr

/-- A decoded image: the plan (R406 to R420). -/
structure Plan where
  gen : Nat
  /-- key 64 × ID + INDEX; only the values an image carries, clamped -/
  params : List (Nat × Int)
  parts : List (Nat × PlanPart)
  regions : List Region
  queues : List (Nat × PlanQArea)
  ports : List (Nat × PlanPort)
  standins : List (Nat × PlanStandin)
  codes : List PlanCode
  datas : List PlanData
  hubGate : List (BitVec 4 × BitVec 16)
  mirror : List PlanMember
  power : Option (BitVec 128)
  /-- partitions for which an image has given ACCOUNTS (R409) -/
  accounts : BitVec 16
  deriving DecidableEq, Repr

def Plan.empty : Plan :=
  { gen := 0, params := [], parts := [], regions := [], queues := [], ports := [], standins := [], codes := [],
    datas := [], hubGate := [], mirror := [], power := none,
    accounts := 0 }

/-- A staged or committed partial image (R424, R425). -/
structure Staged where
  plan : Plan
  part : Nat
  epoch : Nat
  gen : Nat
  committed : Bool
  octets : List Octet
  deriving DecidableEq, Repr

/-- The plan-status block (R428). -/
structure HpStatus where
  last : BitVec 3
  reason : BitVec 5
  section_ : BitVec 8
  source : BitVec 2
  scope : Bool
  part : BitVec 4
  signed : Bool
  keyslot : Bool
  hdr : Bool
  errOff : BitVec 32
  clamps : BitVec 32
  clampOff : BitVec 32
  deriving DecidableEq, Repr

def HpStatus.reset : HpStatus :=
  { last := 0, reason := 0, section_ := 0, source := 0, scope := false, part := 0, signed := false, keyslot := false,
    hdr := false, errOff := 0xFFFFFFFF, clamps := 0, clampOff := 0xFFFFFFFF }

structure PlanState where
  eff : Option Plan
  staged : Option Staged
  hp : HpStatus
  /-- images of the plan chain (R431): the whole image and the partial images since -/
  chain : List (List Octet)
  deriving DecidableEq, Repr

def PlanState.reset : PlanState := { eff := none, staged := none, hp := .reset, chain := [] }

/-! ### Host attachment (13) -/

/-- The mailbox (R444). waiting: the result of a command that has run and is to be shown by MBX_COMPLETE. -/
structure Mailbox where
  done : Bool
  tag : BitVec 8
  code : BitVec 8
  status : BitVec 8
  args : Sparse (BitVec 32)
  res : Sparse (BitVec 32)
  waiting : Option (BitVec 8 × List (BitVec 32))
  deriving DecidableEq, Repr

def Mailbox.reset : Mailbox :=
  { done := true, tag := 0, code := 0, status := 0, args := [], res := [], waiting := none }

/-- Global registers (R439). -/
structure HostRegs where
  evtIen : Bool
  epPoison : Bool
  evt : BitVec 6
  evtEn : BitVec 6
  evtVec : BitVec 11
  mbxVec : BitVec 11
  mbxIen : Bool
  snapPeriod : Nat
  width : BitVec 4
  rate : BitVec 3
  err : BitVec 3
  h3Base : BitVec 64
  h3En : Bool
  deriving DecidableEq, Repr

def HostRegs.reset : HostRegs :=
  { evtIen := false, epPoison := false, evt := 0, evtEn := 0, evtVec := 0, mbxVec := 0, mbxIen := false,
    snapPeriod := 10000, width := 0, rate := 0, err := 0, h3Base := 0, h3En := false }

/-- A window rule (R446). -/
structure Win where
  en : Bool
  sys : Bool
  we : Bool
  key : BitVec 4
  base : BitVec 16
  deriving DecidableEq, Repr

def Win.reset : Win := { en := false, sys := false, we := false, key := 0, base := 0 }

/-- The window error record (R448). -/
structure WinErr where
  valid : Bool
  reason : BitVec 3
  window : BitVec 4
  vf : Bool
  write : Bool
  count : Nat
  addr : Nat
  deriving DecidableEq, Repr

def WinErr.reset : WinErr :=
  { valid := false, reason := 0, window := 0, vf := false, write := false, count := 0, addr := 0 }

/-- A host DMA queue (R454). -/
structure HostQueue where
  base : BitVec 64
  en : Bool
  size : Nat
  die : Nat
  ien : Bool
  vector : Nat
  thresh : Nat
  wptr : Nat
  rptr : Nat
  qerr : Bool
  dmaErr : Bool
  /-- stopped by DMAERR until EN is written 0 and then 1 -/
  stopped : Bool
  pend : Bool
  drops : BitVec 32
  cond : Bool
  deriving DecidableEq, Repr

def HostQueue.reset : HostQueue :=
  { base := 0, en := false, size := 0, die := 0, ien := false, vector := 0, thresh := 0, wptr := 0, rptr := 0,
    qerr := false, dmaErr := false, stopped := false, pend := false, drops := 0, cond := false }

/-- A response waiting for its response queue (R456). -/
structure HostResp where
  q : Nat
  outcome : Nat
  tag : BitVec 16
  pos : Position
  epoch : Option Nat
  body : List Octet
  deriving DecidableEq, Repr

/-- Statistics snapshot (R443): the sequence, the tick and the copied counters by index. -/
structure Snap where
  seq : Nat
  tick : BitVec 48
  post : Sparse Word
  port : Sparse Word
  deriving DecidableEq, Repr

def Snap.reset : Snap := { seq := 0, tick := 0, post := [], port := [] }

/-- An MSI-X table entry and its pending bit (R437, R453; PCI Express specification). -/
structure MsixVec where
  addr : BitVec 64
  data : BitVec 32
  masked : Bool
  pending : Bool
  deriving DecidableEq, Repr

def MsixVec.reset : MsixVec := { addr := 0, data := 0, masked := true, pending := false }

/-- What the configuration space of one function holds (R433, R453): MSI-X Enable, Function Mask, the power state D3hot. -/
structure FnCfg where
  msixEn : Bool
  msixMask : Bool
  d3hot : Bool
  deriving DecidableEq, Repr

def FnCfg.reset : FnCfg := { msixEn := false, msixMask := false, d3hot := false }

/-- The PF's configuration registers (R433, R436, R450). Codes of the sizes: 128 × 2^code octets. -/
structure PfCfg where
  mps : Nat
  mrrs : Nat
  timeout : BitVec 4
  aer : Aer
  /-- BAR0, BAR2, BAR4 of the PF under 0 to 2, of the VFs under 3 to 5 -/
  bars : Sparse (BitVec 64)
  deriving DecidableEq, Repr

/-- PRESUMED, log entry 68: the reset values of the PCI Express specification. -/
def PfCfg.reset : PfCfg :=
  { mps := 0, mrrs := 2, timeout := 0,
    aer := { uncMask := 0x00400000, uncSev := 0x00462030, corMask := 0x0000E000, ecrcGen := false, ecrcCheck := false }, bars := [] }

structure HostIf where
  g : HostRegs
  mbx : Mailbox
  win : Sparse Win
  winErr : WinErr
  msix : Sparse MsixVec
  q : Sparse HostQueue
  resp : Sparse (List HostResp)
  snap : Snap
  linkUp : Bool
  busMaster : Bool
  numVfs : Nat
  /-- configuration of a function: 0 the PF, 1 + p VF p -/
  fns : Sparse FnCfg
  cfg : PfCfg
  deriving DecidableEq, Repr

def HostIf.reset : HostIf :=
  { g := .reset, mbx := .reset, win := [], winErr := .reset, msix := [], q := [], resp := [], snap := .reset,
    linkUp := false, busMaster := false, numVfs := 0, fns := [], cfg := .reset }

/-! ### Power, fuses, patch (14) -/

structure Fuses where
  partCode : Nat
  stepping : BitVec 8
  serial : BitVec 64
  romRev : BitVec 4
  present : BitVec 8
  patchSvn : Nat
  sigRequired : Bool
  key0 : Nat
  key1 : Nat
  valid0 : Bool
  valid1 : Bool
  revoke0 : Bool
  revoke1 : Bool
  cal : Sparse Int
  deriving DecidableEq, Repr

/-- A ZL-808 as shipped, no key enrolled, no factory offset. DESIGN CHOICE, log entry 4. -/
def Fuses.reset : Fuses :=
  { partCode := 808, stepping := 0xA1, serial := 0, romRev := 1, present := 0xFF, patchSvn := 0, sigRequired := false,
    key0 := 0, key1 := 0, valid0 := false, valid1 := false, revoke0 := false, revoke1 := false, cal := [] }

/-- A fuse burn under way (R480): the fields still to burn. -/
inductive FuseField where
  | key (slot : Bool) (k : Nat)
  | valid (slot : Bool)
  | revoke (slot : Bool)
  | sigRequired
  | svn (n : Nat)
  deriving DecidableEq, Repr

structure Patch where
  active : Bool
  id : BitVec 12
  svn : BitVec 8
  reject : BitVec 4
  source : BitVec 2
  matchRegs : List Word
  words : List (BitVec 32)
  deriving DecidableEq, Repr

def Patch.reset : Patch :=
  { active := false, id := 0, svn := 0, reject := 0, source := 0, matchRegs := [], words := [] }

/-- A patch accepted and not yet complete: its fuse fields are burning (R480). -/
structure Burning where
  fields : List FuseField
  patch : Patch
  deriving DecidableEq, Repr

/-- Power states (R461). -/
inductive PwrSt where
  | dawn | noon | dusk | night
  deriving DecidableEq, Repr

/-- What ends once the sequencer's queue is empty and every cluster that waits to start has started (R432, R466). -/
inductive PwrAfter where
  | nothing | apply | wake
  deriving DecidableEq, Repr

structure Power where
  pwrOk : Bool
  straps : Straps
  /-- domain i is on (R457) -/
  domains : BitVec 128
  /-- power-up requests in order of arrival (R468) -/
  queue : List Nat
  st : PwrSt
  /-- clock switch requested, and the epoch at whose first edge it happens (R463); in a wake, the state it ends in -/
  clockTo : Option (PwrSt × Nat)
  /-- step of R472 reached; 0 before PWR_OK, 7 done -/
  bootStep : Nat
  /-- step 1 cannot end: a rail out of tolerance, a fuse bit without majority, or TEST_MODE (R470, R472, R487) -/
  stuck : Bool
  /-- clusters that start once they are on and self-checked -/
  starts : BitVec 64
  after : PwrAfter
  /-- epoch at whose beginning admission closes for Night (R464) -/
  nightAt : Option Nat
  thermAlert : Bool
  hubDead : Bool
  deriving DecidableEq, Repr

def Power.reset : Power :=
  { pwrOk := false, straps := { tandem := false, bootSrc := 0, mirrorId := 0, testMode := false }, domains := 0,
    queue := [], st := .dawn, clockTo := none, bootStep := 0, stuck := false, starts := 0, after := .nothing, nightAt := none, thermAlert := false,
    hubDead := false }

/-! ### Outputs -/

/-- What leaves the package, in the order in which it leaves. -/
inductive Sent where
  | frame (port : Nat) (o : List Octet)
  | msix (f : HostFn) (v : Nat)
  /-- completion of a host read: data, EP -/
  | completion (v : List (BitVec 64)) (ep : Bool)
  /-- a Memory Write of the PF (R449, R456) -/
  | memWrite (addr : Nat) (o : List Octet)
  /-- a Memory Read of the PF (R449) -/
  | memRead (addr len : Nat)
  | pps
  deriving DecidableEq, Repr

/-! ### The package -/

structure Units where
  cores : Sparse Core
  clusters : Sparse Cluster
  dies : Sparse Die
  gates : Sparse Gate
  ports : Sparse Port
  parts : Sparse Partition
  deriving DecidableEq, Repr

def Units.reset : Units := { cores := [], clusters := [], dies := [], gates := [], ports := [], parts := [] }

structure Hub where
  sd : Sundial
  elCount : Word
  elog : Sparse LogRec
  ts : Sparse TsPair
  mirror : Mirror
  plan : PlanState
  host : HostIf
  pwr : Power
  fuses : Fuses
  patch : Patch
  burning : Option Burning
  calUser : Sparse Int
  deriving DecidableEq, Repr

def Hub.reset : Hub :=
  { sd := .reset, elCount := 0, elog := [], ts := [], mirror := .reset, plan := .reset, host := .reset, pwr := .reset,
    fuses := .reset, patch := .reset, burning := none, calUser := [] }

structure State where
  /-- commands that wait, first in first out -/
  pending : List Instr
  u : Units
  h : Hub
  accesses : List Access
  nextId : Nat
  msgs : List Msg
  sent : List Sent
  free : Nat
  deriving DecidableEq, Repr

/-- The package right after reset: before PWR_OK rises, every register at its At-reset value. -/
def State.reset : State :=
  { pending := [], u := .reset, h := .reset, accesses := [], nextId := 0, msgs := [], sent := [], free := 0 }

end Sys2Proof.Machine
end

