-- ==== Sys2Proof/Machine/Frames.lean ====
section
/-! DEFINITION. Frames that the package builds: Ethernet framing (R325, R328), CRC-32C (R365, R400), and the octets of mirror frames
(R365 to R373). -/

namespace Sys2Proof.Machine

/-! ### Ethernet -/

/-- The four octets of a tag, or none. -/
def tagOctets (t : Nat) : List Octet := if t = 0 then [] else octetsBE 4 t

/-- A frame, padded to 64 octets with its FCS (R328). -/
def buildEth (dst src outer inner etype : Nat) (body : List Octet) : List Octet :=
  let o := octetsBE 6 dst ++ octetsBE 6 src ++ tagOctets outer ++ tagOctets inner ++ octetsBE 2 etype ++ body
  o ++ List.replicate (60 - o.length) 0

/-- The tags of a peer of the group as their four octets: one tag has TPID 0x8100, the outer of two 0x88A8 (R325, R419). -/
def PlanMember.tags (m : PlanMember) : Nat × Nat :=
  let tag (tpid v : Nat) : Nat := tpid * 65536 + v
  if m.outer = 0 ∧ m.inner = 0 then (0, 0)
  else if m.outer = 0 then (tag 0x8100 m.inner, 0)
  else if m.inner = 0 then (tag 0x8100 m.outer, 0)
  else (tag 0x88A8 m.outer, tag 0x8100 m.inner)

/-! ### CRC-32C (R365, R400) -/

def crc32Bit (c : BitVec 32) : BitVec 32 := if c.getLsbD 0 then (c >>> 1) ^^^ 0x82F63B78 else c >>> 1
def crc32Octet (c : BitVec 32) (o : Octet) : BitVec 32 :=
  crc32Bit <| crc32Bit <| crc32Bit <| crc32Bit <| crc32Bit <| crc32Bit <| crc32Bit <| crc32Bit (c ^^^ o.zeroExtend 32)
/-- CRC-32C: reflected, initial value all ones, complemented. -/
def crc32c (l : List Octet) : BitVec 32 := ~~~(l.foldl crc32Octet (BitVec.allOnes 32))

/-! ### Log entries (R367) -/

def zeros (n : Nat) : List Octet := List.replicate n 0
def padTo (n : Nat) (o : List Octet) : List Octet := o ++ zeros (n - o.length)

/-- PEER of an entry. -/
def Peer.octets (p : Peer) : List Octet :=
  octetsBE 6 p.mac ++ octetsBE 2 p.udp ++ octetsBE 4 p.outer ++ octetsBE 4 p.inner ++ octetsBE 16 p.ip ++ zeros 4

/-- MARKS of an entry: bit 7 - (k modulo 8) of octet k / 8 is mark k. -/
def marksOctets (l : List Bool) : List Octet :=
  (List.range (ceilDiv l.length 8)).map fun i =>
    (List.range 8).foldl (fun a k => if l.getD (8 * i + k) false then a ||| (0x80#8 >>> k) else a) 0

/-- Octets before DATA: PEER stands in a FRAME entry only. -/
def entryHead (kind : Nat) : Nat := if kind = 1 then 60 else 24

/-- Octets of an entry. -/
def LogEntry.size (e : LogEntry) : Nat :=
  ceilDiv (entryHead e.kind + e.data.length + if e.kind = 1 then ceilDiv e.data.length 8 else 0) 4 * 4

def LogEntry.octets (e : LogEntry) : List Octet :=
  padTo e.size (octetsBE 9 e.pos.bits.toNat ++ octetsBE 1 e.kind ++ octetsBE 2 e.data.length ++ octetsBE 9 e.target.bits.toNat ++
    zeros 3 ++ (if e.kind = 1 then e.peer.octets else []) ++ e.data ++ if e.kind = 1 then marksOctets e.marks else [])

/-! ### Mirror frames -/

def MPayload.isHeart : MPayload → Bool
  | .heart _ _ _ _ _ _ _ _ => true
  | _ => false

/-- TYPE of a payload (R366). -/
def MPayload.type : MPayload → Nat
  | .log _ _ _ _ _ _ _ _ _ => 1
  | .ack _ _ _ _ => 2
  | .fetch _ _ _ _ _ => 3
  | .line _ _ _ _ _ _ _ _ => 4
  | .heart _ _ _ _ _ _ _ _ => 5
  | .take _ _ => 6
  | .join _ => 7
  | .joined _ _ _ => 8

/-- Sixteen values of 9 octets, one for each partition. -/
def nineOctets (l : List Nat) : List Octet := (List.range 16).flatMap fun i => octetsBE 9 (l.getD i 0)

/-- The octets of a payload (R367, R369, R371 to R373, R376). -/
def MPayload.octets : MPayload → List Octet
  | .log p first last seg e entries total o u =>
    octetsBE 1 p ++ octetsBE 1 (bit first + 2 * bit last) ++ octetsBE 2 seg ++ octetsBE 9 e ++ octetsBE 2 entries.length ++ zeros 1 ++
      entries.flatMap LogEntry.octets ++
      if last then octetsBE 4 total ++ octetsBE 8 o.toNat ++ octetsBE 8 u.toNat else []
  | .ack p held applied miss =>
    octetsBE 1 p ++ zeros 1 ++ octetsBE 2 miss.length ++ octetsBE 9 held ++ zeros 3 ++ octetsBE 9 applied ++ zeros 3 ++
      miss.flatMap fun m => octetsBE 9 m.1 ++ octetsBE 2 m.2 ++ zeros 1
  | .fetch p die l e tag => octetsBE 1 p ++ octetsBE 1 die ++ octetsBE 4 l ++ octetsBE 9 e ++ octetsBE 4 tag.toNat
  | .line p die l e tag status info data =>
    octetsBE 1 p ++ octetsBE 1 die ++ octetsBE 4 l ++ octetsBE 9 e ++ octetsBE 4 tag.toNat ++ octetsBE 1 status ++ [info] ++
      padTo 72 (data.take 72)
  | .heart role flags heard sd t1 t3 t4 epochs =>
    octetsBE 1 role ++ octetsBE 1 flags ++ octetsBE 1 heard ++ octetsBE 1 sd ++ octetsBE 9 t1 ++ octetsBE 9 t3 ++ octetsBE 9 t4 ++
      zeros 1 ++ nineOctets epochs
  | .take lead held => octetsBE 1 lead ++ nineOctets held
  | .join p => octetsBE 1 p
  | .joined p j done => octetsBE 1 p ++ octetsBE 9 j ++ octetsBE 1 done

/-- A mirror frame's octets after its Ethernet header: the header of R365, the payload, PCRC. -/
def MFrame.octets (f : MFrame) (group dst : Nat) : List Octet :=
  let b := f.body.octets
  let o := octetsBE 1 1 ++ octetsBE 1 f.body.type ++ octetsBE 2 group ++ octetsBE 1 f.src ++ octetsBE 1 dst ++ octetsBE 2 b.length ++
    octetsBE 4 f.term ++ octetsBE 4 f.fseq ++ b
  o ++ octetsBE 4 (crc32c o).toNat

end Sys2Proof.Machine
end

