-- ==== Sys2Proof/WellFormed.lean ====
section
/-! DEFINITION. Which commands are well formed: for a core instruction, that its encoding is defined (R188, R195, R210,
R215, R227, R266, R267, R284). Every other command is well formed. -/

namespace Sys2Proof

/-- A register that starts a pair (R195). -/
def pairOk (d : Reg) : Bool := d.val ≠ 31

/-- Class of a capability number (R284): true for the code class. -/
def CapNum.isCode (k : CapNum) : Bool := k.n = 8 || k.n = 10 || k.n = 11

/-- A capability number as a destination (R284). -/
def CapNum.dst (k : CapNum) : Bool := decide (k.n.toNat ≤ 9)

/-- A capability number as a source (R284). -/
def CapNum.src (k : CapNum) : Bool :=
  decide (k.n.toNat ≤ 9) || (!k.x && (k.n = 10 || k.n = 11))

/-- Source and destination of one class (R284). -/
def capPair (kd ks : CapNum) : Bool := kd.dst && ks.src && decide (kd.isCode = ks.isCode)

/-- The register fields of a layout S instruction (R227). -/
def stringRegs (a b l : Reg) : Bool :=
  decide (a.val < 28) && decide (b.val < 28) && decide (l.val < 28) && decide (a ≠ b) && decide (a ≠ l) && decide (b ≠ l)

/-- Rounding field of a floating-point instruction (R266). -/
def fpRm (rm : BitVec 3) : Bool := rm ≠ 5 && rm ≠ 6

/-- A floating-point register under format bit l (R267). -/
def fpReg (l : Bool) (r : Reg) : Bool := !l || pairOk r

/-- A tail without the LONG bit (R221, DCAS). -/
def Tail.short : Tail → Bool
  | .off _ _ => true
  | .idx _ _ => true
  | _ => false

/-- The command's fields are legal. -/
def Instr.wellFormed : Instr → Bool
  | .ldp _ d _ => pairOk d
  | .stp _ s _ => pairOk s
  | .ext _ _ _ p l => decide (p.toNat + l.toNat + 1 ≤ 36)
  | .ins _ _ _ p l => decide (p.toNat + l.toNat + 1 ≤ 36)
  | .mfs _ _ n => decide (n.toNat ≤ 25)
  | .mts _ n _ => decide (n.toNat ≤ 25)
  | .mac _ a _ i _ j _ _ =>
    pairOk a && decide (i ≠ j) && decide (i.val ≠ a.val) && decide (i.val ≠ a.val + 1) && decide (j.val ≠ a.val) &&
      decide (j.val ≠ a.val + 1)
  | .txnNext _ d => decide (d.val < 30)
  | .dcas _ _ _ _ t => t.short
  | .dmulw _ x _ => x.val ≠ 1 && x.val ≠ 3
  | .ddiv _ x _ z _ => decide (z ≠ x)
  | .cvbdL _ _ s => pairOk s
  | .cvdbL _ d _ => pairOk d
  | .dldw _ _ n _ => n ≠ 0
  | .dstw _ _ n _ => n ≠ 0
  | .daddm _ _ n _ => n ≠ 0
  | .dsubm _ _ n _ => n ≠ 0
  | .dcmpm _ _ _ n _ => n ≠ 0
  | .dmulm _ _ n _ => n ≠ 0
  | .movc _ _ wd _ ws wl => stringRegs wd ws wl
  | .fillc _ _ wd wl wf => stringRegs wd wf wl
  | .movem _ _ wd _ ws wl _ _ _ => stringRegs wd ws wl
  | .tr _ _ wd _ ws wl _ _ => stringRegs wd ws wl
  | .scan _ wr _ ws wl _ => stringRegs wr ws wl
  | .cmpc _ _ wa _ wb wl => stringRegs wa wb wl
  | .edit _ _ _ wd _ wp wl => stringRegs wd wp wl
  | .fadd _ d b l rm => fpRm rm && fpReg l d && fpReg l b
  | .fsub _ d b l rm => fpRm rm && fpReg l d && fpReg l b
  | .fmul _ d b l rm => fpRm rm && fpReg l d && fpReg l b
  | .fdiv _ d b l rm => fpRm rm && fpReg l d && fpReg l b
  | .fsqrt _ d b l rm => fpRm rm && fpReg l d && fpReg l b
  | .fcvtsl _ d _ => pairOk d
  | .fcvtls _ _ b rm => fpRm rm && pairOk b
  | .fcvtfi _ _ b l rm => fpRm rm && fpReg l b
  | .fcvtif _ d _ l rm => fpRm rm && fpReg l d
  | .fneg _ d b l => fpReg l d && fpReg l b
  | .fabs _ d b l => fpReg l d && fpReg l b
  | .fcmp _ _ a b l => fpReg l a && fpReg l b
  | .cmov _ kd ks => capPair kd ks
  | .cclr _ kd => kd.dst
  | .csetb _ kd ks _ _ => capPair kd ks
  | .candr _ kd ks _ => capPair kd ks
  | .csetk _ kd ks _ => capPair kd ks
  | .cget _ d ks => pairOk d && ks.src
  | .cld _ kd _ => kd.dst && !kd.isCode
  | .cst _ ks _ => ks.src && !ks.isCode
  | .tlbRd _ d _ => pairOk d
  | _ => true

end Sys2Proof
end

