-- ==== Sys2Proof/Decode.lean ====
section
/-! DEFINITION. Decoding. The opcode table gives no row any bits, so `decodeTableWord` names no command. After it, the
encoding of core instructions in syllables (R186 to R194, R221, R225 to R227, R267, R268, R284, R287, R288): the encoder, the
length that a first syllable gives, and the decoder, total on every list of syllables. -/

namespace Sys2Proof

/-- The command that the table's bits spell: the table gives no row bits. -/
def decodeTableWord (_nbits _w : Nat) : Option Instr := none

/-! ### Fields -/

/-- Field of k bits from position a of a syllable (R186). -/
def fld (w : Syll) (a k : Nat) : BitVec k := BitVec'.pos w a k

def regBits (r : Reg) : BitVec 5 := BitVec.ofNat 5 r.val
def kBits (k : KReg) : BitVec 3 := BitVec.ofNat 3 k.val
def dBits (x : DReg) : BitVec 2 := BitVec.ofNat 2 x.val
def regOf (b : BitVec 5) : Reg := ⟨b.toNat, b.isLt⟩
def kOf (b : BitVec 3) : KReg := ⟨b.toNat, b.isLt⟩
def dOf (b : BitVec 2) : DReg := ⟨b.toNat, b.isLt⟩
def b1 (b : Bool) : BitVec 1 := BitVec.ofBool b

/-- Format R (R189). -/
def synR (op : Nat) (a b : Reg) : Syll := (0#1 ++ BitVec.ofNat 3 op ++ regBits a ++ regBits b : BitVec 14)
/-- Format X (R190). -/
def synX (a : Reg) (m : Nat) : Syll := (6#4 ++ regBits a ++ BitVec.ofNat 5 m : BitVec 14)
/-- Format Y (R191). -/
def synY (m : Nat) : Syll := (7#4 ++ BitVec.ofNat 10 m : BitVec 14)

/-- Condition codes (R203). -/
def Cond.code : Cond → Nat
  | .eq => 0 | .ne => 1 | .lt => 2 | .ge => 3 | .le => 4 | .gt => 5
  | .ltu => 6 | .geu => 7 | .leu => 8 | .gtu => 9 | .any => 10 | .none => 11

def condOf : Nat → Option Cond
  | 0 => some .eq | 1 => some .ne | 2 => some .lt | 3 => some .ge | 4 => some .le | 5 => some .gt
  | 6 => some .ltu | 7 => some .geu | 8 => some .leu | 9 => some .gtu | 10 => some .any | 11 => some .none
  | _ => Option.none

/-- A memory tail (R194). -/
def Tail.sylls : Tail → List Syll
  | .off k o => [(kBits k ++ 0#1 ++ 0#1 ++ o : BitVec 14)]
  | .offLong k o => [(kBits k ++ 0#1 ++ 1#1 ++ BitVec'.pos o 0 9 : BitVec 14), BitVec'.pos o 9 14]
  | .idx k x => [(kBits k ++ 1#1 ++ 0#1 ++ regBits x ++ 0#4 : BitVec 14)]
  | .idxLong k x d => [(kBits k ++ 1#1 ++ 1#1 ++ regBits x ++ 0#4 : BitVec 14), d]

/-- The tail that tail A and, when LONG is 1, tail B spell (R194). -/
def tailOf (ws : List Syll) : Option Tail :=
  match ws with
  | [] => none
  | a :: r =>
    let k := kOf (fld a 0 3)
    if fld a 3 1 = 0#1 then
      if fld a 4 1 = 0#1 then some (.off k (fld a 5 9))
      else match r with
        | b :: _ => some (.offLong k (fld a 5 9 ++ b : BitVec 23))
        | [] => none
    else if fld a 10 4 ≠ 0#4 then none
    else if fld a 4 1 = 0#1 then some (.idx k (regOf (fld a 5 5)))
    else match r with
      | b :: _ => some (.idxLong k (regOf (fld a 5 5)) b)
      | [] => none

/-- Word offset of format P (R192). -/
def PostOff.isLong : PostOff → Bool
  | .short _ => false
  | .long _ => true

def synP (pop : Nat) (x : DReg) (k : KReg) (w : Reg) (o : PostOff) : List Syll :=
  match o with
  | .short v =>
    [(1#1 ++ BitVec.ofNat 2 (2 * pop) ++ dBits x ++ kBits k ++ regBits w ++ BitVec'.pos v 0 1 : BitVec 14),
      BitVec'.pos v 1 14]
  | .long v =>
    [(1#1 ++ BitVec.ofNat 2 (2 * pop + 1) ++ dBits x ++ kBits k ++ regBits w ++ BitVec'.pos v 0 1 : BitVec 14),
      BitVec'.pos v 1 14, BitVec'.pos v 15 14]

/-- Layout D (R226). -/
def synD (x y z : DReg) (w : Reg) (rm : BitVec 3) : Syll :=
  (dBits x ++ dBits y ++ dBits z ++ regBits w ++ rm : BitVec 14)
/-- Layout M (R226), before its tail. -/
def synM (x : DReg) (n : BitVec 3) (w : Reg) : Syll := (dBits x ++ n ++ regBits w ++ 0#4 : BitVec 14)
/-- Layout S (R226). -/
def synS (ka : KReg) (wa : Reg) (kb : KReg) (f : BitVec 3) (wb wl : Reg) (g : BitVec 4) : List Syll :=
  [(kBits ka ++ regBits wa ++ kBits kb ++ f : BitVec 14), (regBits wb ++ regBits wl ++ g : BitVec 14)]
/-- Layout FA (R267). -/
def synFA (d b : Reg) (l : Bool) (rm : BitVec 3) : Syll := (regBits d ++ regBits b ++ b1 l ++ rm : BitVec 14)
/-- Layouts CR and CW, syllable 2 (R288). -/
def synCR (kd ks : CapNum) : Syll := (kd.n ++ b1 kd.x ++ ks.n ++ b1 ks.x ++ 0#4 : BitVec 14)
/-- Layouts CW, syllable 3, and TW (R288). -/
def synW2 (a b : Reg) : Syll := (regBits a ++ regBits b ++ 0#4 : BitVec 14)
/-- Layout CM, syllable 2 (R288). -/
def synCM (k : CapNum) : Syll := (k.n ++ b1 k.x ++ 0#9 : BitVec 14)
/-- A register in positions 0:4, the rest reserved (layouts KM, C syllable 3, R202). -/
def synW1 (a : Reg) : Syll := (regBits a ++ 0#9 : BitVec 14)

def noCap : CapNum := { x := false, n := 0 }

/-- F and G of SCAN and the capability in KA (R258). -/
def ScanMode.code : ScanMode → BitVec 3
  | .eq => 0 | .ne => 1 | .mark => 2 | .cls _ => 3 | .ncls _ => 4
def ScanMode.ka : ScanMode → KReg
  | .cls k => k | .ncls k => k | _ => 0

/-- The MINOR of a layout S instruction (R225), which W31 of an interruption state holds (R250). -/
def Instr.minor : Instr → Nat
  | .movc .. => 128
  | .fillc .. => 129
  | .movem .. => 130
  | .tr .. => 131
  | .scan .. => 132
  | .cmpc .. => 133
  | .edit .. => 134
  | .fadd .. => 384
  | .fsub .. => 385
  | .fmul .. => 386
  | .fdiv .. => 387
  | .fsqrt .. => 388
  | .fcvtsl .. => 389
  | .fcvtls .. => 390
  | .fcvtfi .. => 391
  | .fcvtif .. => 392
  | .fneg .. => 393
  | .fabs .. => 394
  | .fcmp .. => 395
  | _ => 0

/-- F and G of a layout S instruction (R226). -/
def Instr.fg : Instr → BitVec 3 × BitVec 4
  | .movem _ _ _ _ _ _ sk st pd => ((b1 sk ++ b1 st ++ b1 pd : BitVec 3), 0)
  | .tr _ _ _ _ _ _ kt tm => ((b1 tm ++ 0#2 : BitVec 3), (kBits kt ++ 0#1 : BitVec 4))
  | .scan _ _ _ _ _ m => (m.code, 0)
  | .edit _ x _ _ _ _ _ => (0, (dBits x ++ 0#2 : BitVec 4))
  | _ => (0, 0)

/-- The syllables of a core instruction; none for the other commands. -/
def encode : Instr → List Syll
  | .add _ d s => [synR 0 d s]
  | .sub _ d s => [synR 1 d s]
  | .and _ d s => [synR 2 d s]
  | .or _ d s => [synR 3 d s]
  | .mov _ d s => [synR 4 d s]
  | .home _ d s => [synR 5 d s]
  | .ldi _ d imm => [synX d 0, imm]
  | .addi _ d imm => [synX d 2, imm]
  | .andi _ d imm => [synX d 3, imm]
  | .ori _ d imm => [synX d 4, imm]
  | .xori _ d imm => [synX d 5, imm]
  | .ldiL _ d imm => [synX d 1, (0#6 ++ BitVec'.pos imm 0 8 : BitVec 14), BitVec'.pos imm 8 14, BitVec'.pos imm 22 14]
  | .add3 _ d s t => [synX d 6, (regBits s ++ regBits t ++ 0#4 : BitVec 14)]
  | .sub3 _ d s t => [synX d 6, (regBits s ++ regBits t ++ 1#4 : BitVec 14)]
  | .and3 _ d s t => [synX d 6, (regBits s ++ regBits t ++ 2#4 : BitVec 14)]
  | .or3 _ d s t => [synX d 6, (regBits s ++ regBits t ++ 3#4 : BitVec 14)]
  | .xor3 _ d s t => [synX d 6, (regBits s ++ regBits t ++ 4#4 : BitVec 14)]
  | .andn _ d s t => [synX d 6, (regBits s ++ regBits t ++ 5#4 : BitVec 14)]
  | .min _ d s t => [synX d 6, (regBits s ++ regBits t ++ 6#4 : BitVec 14)]
  | .max _ d s t => [synX d 6, (regBits s ++ regBits t ++ 7#4 : BitVec 14)]
  | .mul _ d s t => [synX d 6, (regBits s ++ regBits t ++ 8#4 : BitVec 14)]
  | .mulh _ d s t => [synX d 6, (regBits s ++ regBits t ++ 9#4 : BitVec 14)]
  | .mulhu _ d s t => [synX d 6, (regBits s ++ regBits t ++ 10#4 : BitVec 14)]
  | .div _ d s t => [synX d 6, (regBits s ++ regBits t ++ 11#4 : BitVec 14)]
  | .divu _ d s t => [synX d 6, (regBits s ++ regBits t ++ 12#4 : BitVec 14)]
  | .rem _ d s t => [synX d 6, (regBits s ++ regBits t ++ 13#4 : BitVec 14)]
  | .remu _ d s t => [synX d 6, (regBits s ++ regBits t ++ 14#4 : BitVec 14)]
  | .neg _ d s => [synX d 7, (regBits s ++ 0#5 ++ 0#4 : BitVec 14)]
  | .not _ d s => [synX d 7, (regBits s ++ 1#5 ++ 0#4 : BitVec 14)]
  | .popc _ d s => [synX d 7, (regBits s ++ 2#5 ++ 0#4 : BitVec 14)]
  | .clz _ d s => [synX d 7, (regBits s ++ 3#5 ++ 0#4 : BitVec 14)]
  | .shl _ d s a => [synX d 8, (match a with
    | .imm n => (0#2 ++ 1#1 ++ n ++ regBits s : BitVec 14)
    | .reg t => (0#2 ++ 0#1 ++ regBits t ++ 0#1 ++ regBits s : BitVec 14))]
  | .shrl _ d s a => [synX d 8, (match a with
    | .imm n => (1#2 ++ 1#1 ++ n ++ regBits s : BitVec 14)
    | .reg t => (1#2 ++ 0#1 ++ regBits t ++ 0#1 ++ regBits s : BitVec 14))]
  | .shra _ d s a => [synX d 8, (match a with
    | .imm n => (2#2 ++ 1#1 ++ n ++ regBits s : BitVec 14)
    | .reg t => (2#2 ++ 0#1 ++ regBits t ++ 0#1 ++ regBits s : BitVec 14))]
  | .rotl _ d s a => [synX d 8, (match a with
    | .imm n => (3#2 ++ 1#1 ++ n ++ regBits s : BitVec 14)
    | .reg t => (3#2 ++ 0#1 ++ regBits t ++ 0#1 ++ regBits s : BitVec 14))]
  | .ext _ d s p l => [synX d 9, synW1 s, (p ++ l ++ 0#2 : BitVec 14)]
  | .ins _ d s p l => [synX d 10, synW1 s, (p ++ l ++ 0#2 : BitVec 14)]
  | .cset _ cc d a b => [synX d 11, (BitVec.ofNat 4 cc.code ++ regBits a ++ regBits b : BitVec 14)]
  | .cseti _ cc d a imm => [synX d 12, (BitVec.ofNat 4 cc.code ++ regBits a ++ 0#5 : BitVec 14), imm]
  | .cmpb _ cc a b disp => [synX a 13, (match b with
    | .imm v => (BitVec.ofNat 4 cc.code ++ 1#1 ++ v : BitVec 14)
    | .reg r => (BitVec.ofNat 4 cc.code ++ 0#1 ++ regBits r ++ 0#4 : BitVec 14)), disp]
  | .mfs _ d n => [synX d 14, (0#8 ++ n : BitVec 14)]
  | .mts _ n s => [synX s 15, (0#8 ++ n : BitVec 14)]
  | .ldc _ d t => synX d 16 :: t.sylls
  | .ldw _ d t => synX d 17 :: t.sylls
  | .ldp _ d t => synX d 18 :: t.sylls
  | .stc _ d t => synX d 19 :: t.sylls
  | .stw _ d t => synX d 20 :: t.sylls
  | .stp _ d t => synX d 21 :: t.sylls
  | .mac _ a kb i kc j s t =>
    [synX a 22, (kBits kb ++ regBits i ++ s : BitVec 14), (kBits kc ++ regBits j ++ t : BitVec 14)]
  | .txnNext _ d => [synX d 23]
  | .txnCommit _ s => [synX s 24]
  | .txnAbort _ s => [synX s 25]
  | .txnRespond _ l t => synX l 26 :: t.sylls
  | .alarm _ s => [synX s 27]
  | .loopr _ s lam b => [synX s 28, (lam ++ b : BitVec 14)]
  | .jr _ s => [synX s 29]
  | .callr _ s f l => [synX s 30, synW2 f l]
  | .nop _ => [synY 0]
  | .isync _ => [synY 1]
  | .msync _ => [synY 2]
  | .fsync _ => [synY 3]
  | .eret _ => [synY 4]
  | .pret _ => [synY 5]
  | .fspill _ => [synY 6]
  | .ffill _ => [synY 7]
  | .ret _ => [synY 8]
  | .loopOff _ => [synY 9]
  | .alarmOff _ => [synY 10]
  | .break_ _ code => [synY 11, code]
  | .br _ d => [synY 12, d]
  | .brL _ t => [synY 13, (0#10 ++ BitVec'.pos t 0 4 : BitVec 14), BitVec'.pos t 4 14]
  | .call _ t m =>
    let v : BitVec 56 := (0#6 ++ t ++ m : BitVec 56)
    [synY 14, BitVec'.pos v 0 14, BitVec'.pos v 14 14, BitVec'.pos v 28 14, BitVec'.pos v 42 14]
  | .callS _ t f l =>
    let v : BitVec 28 := (t ++ regBits f ++ regBits l : BitVec 28)
    [synY 15, BitVec'.pos v 0 14, BitVec'.pos v 14 14]
  | .loop _ n lam b => [synY 16, n, (lam ++ b : BitVec 14)]
  | .doorbell _ m => [synY 17, (0#6 ++ m : BitVec 14)]
  | .codeWr _ a s => [synY 18, synW2 a s]
  | .txnWait _ => [synY 19]
  | .txnClaim _ t => synY 20 :: t.sylls
  | .txnClaimx _ t => synY 21 :: t.sylls
  | .dcas _ x y wc t => synY 22 :: (dBits x ++ dBits y ++ regBits wc ++ 0#5 : BitVec 14) :: t.sylls
  | .dpost _ x wc k o => synP 0 x k wc o
  | .dacc _ x wc k o => synP 1 x k wc o
  | .dadd _ x y => [synY 64, synD x y 0 0 0]
  | .dsub _ x y => [synY 65, synD x y 0 0 0]
  | .dcmp _ d x y => [synY 66, synD x y 0 d 0]
  | .dmov _ x y => [synY 67, synD x y 0 0 0]
  | .dneg _ x => [synY 68, synD x 0 0 0 0]
  | .dabs _ x => [synY 69, synD x 0 0 0 0]
  | .dclr _ x => [synY 70, synD x 0 0 0 0]
  | .dshl _ x n => [synY 71, (dBits x ++ n ++ 0#6 : BitVec 14)]
  | .drnd _ x n rm => [synY 72, (dBits x ++ n ++ rm ++ 0#3 : BitVec 14)]
  | .dmul _ x y => [synY 73, synD x y 0 0 0]
  | .dmulw _ x y => [synY 74, synD x y 0 0 0]
  | .ddiv _ x y z rm => [synY 75, synD x y z 0 rm]
  | .cvbd _ x s => [synY 76, synD x 0 0 s 0]
  | .cvbdL _ x s => [synY 77, synD x 0 0 s 0]
  | .cvdb _ d x => [synY 78, synD x 0 0 d 0]
  | .cvdbL _ d x => [synY 79, synD x 0 0 d 0]
  | .dldw _ x n t => synY 96 :: synM x n 0 :: t.sylls
  | .dstw _ x n t => synY 97 :: synM x n 0 :: t.sylls
  | .daddm _ x n t => synY 98 :: synM x n 0 :: t.sylls
  | .dsubm _ x n t => synY 99 :: synM x n 0 :: t.sylls
  | .dcmpm _ d x n t => synY 100 :: synM x n d :: t.sylls
  | .dmulm _ x n t => synY 101 :: synM x n 0 :: t.sylls
  | .cvcd _ x wc k wx => [synY 102, (dBits x ++ regBits wc ++ kBits k ++ 0#4 : BitVec 14), synW1 wx]
  | .cvdc _ x wf k wx => [synY 103, (dBits x ++ regBits wf ++ kBits k ++ 0#4 : BitVec 14), synW1 wx]
  | .movc _ kd wd ks ws wl => synY 128 :: synS kd wd ks 0 ws wl 0
  | .fillc _ kd wd wl wf => synY 129 :: synS kd wd 0 0 wf wl 0
  | .movem _ kd wd ks ws wl sk st pd => synY 130 :: synS kd wd ks (b1 sk ++ b1 st ++ b1 pd : BitVec 3) ws wl 0
  | .tr _ kd wd ks ws wl kt tm => synY 131 :: synS kd wd ks (b1 tm ++ 0#2 : BitVec 3) ws wl (kBits kt ++ 0#1 : BitVec 4)
  | .scan _ wr ks ws wl m => synY 132 :: synS m.ka wr ks m.code ws wl 0
  | .cmpc _ ka wa kb wb wl => synY 133 :: synS ka wa kb 0 wb wl 0
  | .edit _ x kd wd kp wp wl => synY 134 :: synS kd wd kp 0 wp wl (dBits x ++ 0#2 : BitVec 4)
  | .fadd _ d b l rm => [synY 384, synFA d b l rm]
  | .fsub _ d b l rm => [synY 385, synFA d b l rm]
  | .fmul _ d b l rm => [synY 386, synFA d b l rm]
  | .fdiv _ d b l rm => [synY 387, synFA d b l rm]
  | .fsqrt _ d b l rm => [synY 388, synFA d b l rm]
  | .fcvtsl _ d b => [synY 389, synFA d b false 0]
  | .fcvtls _ d b rm => [synY 390, synFA d b false rm]
  | .fcvtfi _ d b l rm => [synY 391, synFA d b l rm]
  | .fcvtif _ d b l rm => [synY 392, synFA d b l rm]
  | .fneg _ d b l => [synY 393, synFA d b l 0]
  | .fabs _ d b l => [synY 394, synFA d b l 0]
  | .fcmp _ d a b l => [synY 395, synFA d a l 0, synW1 b]
  | .frec _ d n => [synY 396, (regBits d ++ n ++ 0#6 : BitVec 14)]
  | .fclrt _ => [synY 397]
  | .cmov _ kd ks => [synY 512, synCR kd ks]
  | .cclr _ kd => [synY 513, synCR kd noCap]
  | .csetb _ kd ks wb wl => [synY 514, synCR kd ks, synW2 wb wl]
  | .candr _ kd ks wm => [synY 515, synCR kd ks, synW2 wm 0]
  | .csetk _ kd ks wk => [synY 516, synCR kd ks, synW2 wk 0]
  | .cget _ d ks => [synY 517, synCR noCap ks, synW2 d 0]
  | .cld _ kd t => synY 518 :: synCM kd :: t.sylls
  | .cst _ ks t => synY 519 :: synCM ks :: t.sylls
  | .capln _ t => synY 520 :: t.sylls
  | .dataln _ t => synY 521 :: t.sylls
  | .setkey _ s t => synY 522 :: synW1 s :: t.sylls
  | .getkey _ d t => synY 523 :: synW1 d :: t.sylls
  | .tlbInv _ s => [synY 524, synW2 s 0]
  | .tlbInva _ => [synY 525]
  | .tlbLock _ s => [synY 526, synW2 s 0]
  | .tlbUnlk _ s => [synY 527, synW2 s 0]
  | .tlbRd _ d s => [synY 528, synW2 d s]
  | _ => []

/-! ### Lengths (R187, R188, R190 to R192, R225, R268, R287) -/

/-- Length without the LONG syllable of a tail, and the place of tail A when the instruction carries a tail that may be
long; an undefined first syllable is one syllable long (R188). -/
def baseLength (w : Syll) : Nat × Option Nat :=
  if fld w 0 1 = 1#1 then (if fld w 2 1 = 1#1 then 3 else 2, none)
  else if (fld w 0 4).toNat < 6 then (1, none)
  else if fld w 0 4 = 6#4 then
    match (fld w 9 5).toNat with
    | 0 => (2, none) | 1 => (4, none) | 2 => (2, none) | 3 => (2, none) | 4 => (2, none) | 5 => (2, none)
    | 6 => (2, none) | 7 => (2, none) | 8 => (2, none) | 9 => (3, none) | 10 => (3, none) | 11 => (2, none)
    | 12 => (3, none) | 13 => (3, none) | 14 => (2, none) | 15 => (2, none)
    | 16 => (2, some 1) | 17 => (2, some 1) | 18 => (2, some 1) | 19 => (2, some 1) | 20 => (2, some 1)
    | 21 => (2, some 1) | 22 => (3, none) | 26 => (2, some 1) | 28 => (2, none) | 30 => (2, none)
    | _ => (1, none)
  else
    let m := (fld w 4 10).toNat
    if m = 11 ∨ m = 12 ∨ m = 17 ∨ m = 18 then (2, none)
    else if m = 13 ∨ m = 15 ∨ m = 16 ∨ m = 22 then (3, none)
    else if m = 14 then (5, none)
    else if m = 20 ∨ m = 21 then (2, some 1)
    else if 64 ≤ m ∧ m ≤ 79 then (2, none)
    else if 96 ≤ m ∧ m ≤ 101 then (3, some 2)
    else if m = 102 ∨ m = 103 then (3, none)
    else if 128 ≤ m ∧ m ≤ 134 then (3, none)
    else if 384 ≤ m ∧ m ≤ 394 then (2, none)
    else if m = 395 then (3, none)
    else if m = 396 then (2, none)
    else if m = 512 ∨ m = 513 then (2, none)
    else if 514 ≤ m ∧ m ≤ 517 then (3, none)
    else if m = 518 ∨ m = 519 then (3, some 2)
    else if m = 520 ∨ m = 521 then (2, some 1)
    else if m = 522 ∨ m = 523 then (3, some 2)
    else if m = 524 then (2, none)
    else if 526 ≤ m ∧ m ≤ 528 then (2, none)
    else (1, none)

/-- Length of the instruction that starts a list of syllables. -/
def lengthOf (ws : List Syll) : Nat :=
  match ws with
  | [] => 1
  | w :: _ =>
    match baseLength w with
    | (n, none) => n
    | (n, some p) =>
      match ws[p]? with
      | some a => if fld a 4 1 = 1#1 then n + 1 else n
      | none => n

/-! ### The decoder -/

/-- A value when a condition holds. -/
def guardOpt {α : Type} (c : Bool) (v : α) : Option α := if c then some v else none

/-- Format X (R190). -/
def decodeX (c : CoreId) (a : Reg) (m : Nat) (r : List Syll) : Option Instr :=
  match m, r with
  | 0, w :: _ => some (.ldi c a w)
  | 2, w :: _ => some (.addi c a w)
  | 3, w :: _ => some (.andi c a w)
  | 4, w :: _ => some (.ori c a w)
  | 5, w :: _ => some (.xori c a w)
  | 1, w :: x :: y :: _ => guardOpt (fld w 0 6 = 0#6) (.ldiL c a (fld w 6 8 ++ x ++ y : BitVec 36))
  | 6, w :: _ =>
    let s := regOf (fld w 0 5)
    let t := regOf (fld w 5 5)
    match (fld w 10 4).toNat with
    | 0 => some (.add3 c a s t)
    | 1 => some (.sub3 c a s t)
    | 2 => some (.and3 c a s t)
    | 3 => some (.or3 c a s t)
    | 4 => some (.xor3 c a s t)
    | 5 => some (.andn c a s t)
    | 6 => some (.min c a s t)
    | 7 => some (.max c a s t)
    | 8 => some (.mul c a s t)
    | 9 => some (.mulh c a s t)
    | 10 => some (.mulhu c a s t)
    | 11 => some (.div c a s t)
    | 12 => some (.divu c a s t)
    | 13 => some (.rem c a s t)
    | 14 => some (.remu c a s t)
    | _ => none
  | 7, w :: _ =>
    let s := regOf (fld w 0 5)
    if fld w 10 4 ≠ 0#4 then none
    else match (fld w 5 5).toNat with
      | 0 => some (.neg c a s)
      | 1 => some (.not c a s)
      | 2 => some (.popc c a s)
      | 3 => some (.clz c a s)
      | _ => none
  | 8, w :: _ =>
    let s := regOf (fld w 9 5)
    let amt : Option ShAmt :=
      if fld w 2 1 = 1#1 then some (.imm (fld w 3 6))
      else guardOpt (fld w 8 1 = 0#1) (.reg (regOf (fld w 3 5)))
    match amt with
    | none => none
    | some t =>
      match (fld w 0 2).toNat with
      | 0 => some (.shl c a s t)
      | 1 => some (.shrl c a s t)
      | 2 => some (.shra c a s t)
      | _ => some (.rotl c a s t)
  | 9, w :: x :: _ =>
    guardOpt (fld w 5 9 = 0#9 ∧ fld x 12 2 = 0#2) (.ext c a (regOf (fld w 0 5)) (fld x 0 6) (fld x 6 6))
  | 10, w :: x :: _ =>
    guardOpt (fld w 5 9 = 0#9 ∧ fld x 12 2 = 0#2) (.ins c a (regOf (fld w 0 5)) (fld x 0 6) (fld x 6 6))
  | 11, w :: _ => (condOf (fld w 0 4).toNat).map fun cc => .cset c cc a (regOf (fld w 4 5)) (regOf (fld w 9 5))
  | 12, w :: x :: _ =>
    if fld w 9 5 ≠ 0#5 then none
    else (condOf (fld w 0 4).toNat).map fun cc => .cseti c cc a (regOf (fld w 4 5)) x
  | 13, w :: x :: _ =>
    match condOf (fld w 0 4).toNat with
    | none => none
    | some cc =>
      if fld w 4 1 = 1#1 then some (.cmpb c cc a (.imm (fld w 5 9)) x)
      else guardOpt (fld w 10 4 = 0#4) (.cmpb c cc a (.reg (regOf (fld w 5 5))) x)
  | 14, w :: _ => guardOpt (fld w 0 8 = 0#8) (.mfs c a (fld w 8 6))
  | 15, w :: _ => guardOpt (fld w 0 8 = 0#8) (.mts c (fld w 8 6) a)
  | 16, t => (tailOf t).map fun t => .ldc c a t
  | 17, t => (tailOf t).map fun t => .ldw c a t
  | 18, t => (tailOf t).map fun t => .ldp c a t
  | 19, t => (tailOf t).map fun t => .stc c a t
  | 20, t => (tailOf t).map fun t => .stw c a t
  | 21, t => (tailOf t).map fun t => .stp c a t
  | 22, w :: x :: _ =>
    some (.mac c a (kOf (fld w 0 3)) (regOf (fld w 3 5)) (kOf (fld x 0 3)) (regOf (fld x 3 5)) (fld w 8 6) (fld x 8 6))
  | 23, _ => some (.txnNext c a)
  | 24, _ => some (.txnCommit c a)
  | 25, _ => some (.txnAbort c a)
  | 26, t => (tailOf t).map fun t => .txnRespond c a t
  | 27, _ => some (.alarm c a)
  | 28, w :: _ => some (.loopr c a (fld w 0 3) (fld w 3 11))
  | 29, _ => some (.jr c a)
  | 30, w :: _ => guardOpt (fld w 10 4 = 0#4) (.callr c a (regOf (fld w 0 5)) (regOf (fld w 5 5)))
  | _, _ => none

/-- Format Y, general instructions (R191). -/
def decodeY (c : CoreId) (m : Nat) (r : List Syll) : Option Instr :=
  match m, r with
  | 0, _ => some (.nop c)
  | 1, _ => some (.isync c)
  | 2, _ => some (.msync c)
  | 3, _ => some (.fsync c)
  | 4, _ => some (.eret c)
  | 5, _ => some (.pret c)
  | 6, _ => some (.fspill c)
  | 7, _ => some (.ffill c)
  | 8, _ => some (.ret c)
  | 9, _ => some (.loopOff c)
  | 10, _ => some (.alarmOff c)
  | 11, w :: _ => some (.break_ c w)
  | 12, w :: _ => some (.br c w)
  | 13, w :: x :: _ => guardOpt (fld w 0 10 = 0#10) (.brL c (fld w 10 4 ++ x : BitVec 18))
  | 14, w :: x :: y :: z :: _ =>
    let v : BitVec 56 := (w ++ x ++ y ++ z : BitVec 56)
    guardOpt (BitVec'.pos v 0 6 = 0#6) (.call c (BitVec'.pos v 6 18) (BitVec'.pos v 24 32))
  | 15, w :: x :: _ =>
    let v : BitVec 28 := (w ++ x : BitVec 28)
    some (.callS c (BitVec'.pos v 0 18) (regOf (BitVec'.pos v 18 5)) (regOf (BitVec'.pos v 23 5)))
  | 16, w :: x :: _ => some (.loop c w (fld x 0 3) (fld x 3 11))
  | 17, w :: _ => guardOpt (fld w 0 6 = 0#6) (.doorbell c (fld w 6 8))
  | 18, w :: _ => guardOpt (fld w 10 4 = 0#4) (.codeWr c (regOf (fld w 0 5)) (regOf (fld w 5 5)))
  | 19, _ => some (.txnWait c)
  | 20, t => (tailOf t).map fun t => .txnClaim c t
  | 21, t => (tailOf t).map fun t => .txnClaimx c t
  | 22, w :: t =>
    if fld w 9 5 ≠ 0#5 then none
    else (tailOf t).map fun t => .dcas c (dOf (fld w 0 2)) (dOf (fld w 2 2)) (regOf (fld w 4 5)) t
  | _, _ => none

/-- Format P (R192). -/
def decodeP (c : CoreId) (w : Syll) (r : List Syll) : Option Instr :=
  let x := dOf (fld w 3 2)
  let k := kOf (fld w 5 3)
  let wc := regOf (fld w 8 5)
  match (fld w 1 2).toNat, r with
  | 0, a :: _ => some (.dpost c x wc k (.short (fld w 13 1 ++ a : BitVec 15)))
  | 1, a :: b :: _ => some (.dpost c x wc k (.long (fld w 13 1 ++ a ++ b : BitVec 29)))
  | 2, a :: _ => some (.dacc c x wc k (.short (fld w 13 1 ++ a : BitVec 15)))
  | 3, a :: b :: _ => some (.dacc c x wc k (.long (fld w 13 1 ++ a ++ b : BitVec 29)))
  | _, _ => none

/-- Decimal instructions (R225 to R227). The fields that an entry does not use must be 0. -/
def decodeD (c : CoreId) (m : Nat) (r : List Syll) : Option Instr :=
  match r with
  | [] => none
  | w :: t =>
    let x := dOf (fld w 0 2)
    let y := dOf (fld w 2 2)
    let z := dOf (fld w 4 2)
    let g := regOf (fld w 6 5)
    let rm := fld w 11 3
    match m with
    | 64 => guardOpt (fld w 4 10 = 0#10) (.dadd c x y)
    | 65 => guardOpt (fld w 4 10 = 0#10) (.dsub c x y)
    | 66 => guardOpt (fld w 4 2 = 0#2 ∧ rm = 0#3) (.dcmp c g x y)
    | 67 => guardOpt (fld w 4 10 = 0#10) (.dmov c x y)
    | 68 => guardOpt (fld w 2 12 = 0#12) (.dneg c x)
    | 69 => guardOpt (fld w 2 12 = 0#12) (.dabs c x)
    | 70 => guardOpt (fld w 2 12 = 0#12) (.dclr c x)
    | 71 => guardOpt (fld w 8 6 = 0#6) (.dshl c x (fld w 2 6))
    | 72 => guardOpt (fld w 11 3 = 0#3) (.drnd c x (fld w 2 6) (fld w 8 3))
    | 73 => guardOpt (fld w 4 10 = 0#10) (.dmul c x y)
    | 74 => guardOpt (fld w 4 10 = 0#10) (.dmulw c x y)
    | 75 => guardOpt (fld w 6 5 = 0#5) (.ddiv c x y z rm)
    | 76 => guardOpt (fld w 2 4 = 0#4 ∧ rm = 0#3) (.cvbd c x g)
    | 77 => guardOpt (fld w 2 4 = 0#4 ∧ rm = 0#3) (.cvbdL c x g)
    | 78 => guardOpt (fld w 2 4 = 0#4 ∧ rm = 0#3) (.cvdb c g x)
    | 79 => guardOpt (fld w 2 4 = 0#4 ∧ rm = 0#3) (.cvdbL c g x)
    | 96 => if fld w 5 9 ≠ 0#9 then none else (tailOf t).map fun t => .dldw c x (fld w 2 3) t
    | 97 => if fld w 5 9 ≠ 0#9 then none else (tailOf t).map fun t => .dstw c x (fld w 2 3) t
    | 98 => if fld w 5 9 ≠ 0#9 then none else (tailOf t).map fun t => .daddm c x (fld w 2 3) t
    | 99 => if fld w 5 9 ≠ 0#9 then none else (tailOf t).map fun t => .dsubm c x (fld w 2 3) t
    | 100 =>
      if fld w 10 4 ≠ 0#4 then none else (tailOf t).map fun t => .dcmpm c (regOf (fld w 5 5)) x (fld w 2 3) t
    | 101 => if fld w 5 9 ≠ 0#9 then none else (tailOf t).map fun t => .dmulm c x (fld w 2 3) t
    | 102 =>
      match t with
      | v :: _ => guardOpt (fld w 10 4 = 0#4 ∧ fld v 5 9 = 0#9)
          (.cvcd c x (regOf (fld w 2 5)) (kOf (fld w 7 3)) (regOf (fld v 0 5)))
      | [] => none
    | 103 =>
      match t with
      | v :: _ => guardOpt (fld w 10 4 = 0#4 ∧ fld v 5 9 = 0#9)
          (.cvdc c x (regOf (fld w 2 5)) (kOf (fld w 7 3)) (regOf (fld v 0 5)))
      | [] => none
    | _ => none

/-- String instructions (layout S, R225 to R227). -/
def decodeS (c : CoreId) (m : Nat) (r : List Syll) : Option Instr :=
  match r with
  | w :: v :: _ =>
    let ka := kOf (fld w 0 3)
    let wa := regOf (fld w 3 5)
    let kb := kOf (fld w 8 3)
    let f := fld w 11 3
    let wb := regOf (fld v 0 5)
    let wl := regOf (fld v 5 5)
    let g := fld v 10 4
    match m with
    | 128 => guardOpt (f = 0#3 ∧ g = 0#4) (.movc c ka wa kb wb wl)
    | 129 => guardOpt (f = 0#3 ∧ g = 0#4 ∧ fld w 8 3 = 0#3) (.fillc c ka wa wl wb)
    | 130 => guardOpt (g = 0#4)
        (.movem c ka wa kb wb wl (fld w 11 1 = 1#1) (fld w 12 1 = 1#1) (fld w 13 1 = 1#1))
    | 131 => guardOpt (fld w 12 2 = 0#2 ∧ fld v 13 1 = 0#1)
        (.tr c ka wa kb wb wl (kOf (fld v 10 3)) (fld w 11 1 = 1#1))
    | 132 =>
      if g ≠ 0#4 then none
      else match f.toNat with
        | 0 => guardOpt (fld w 0 3 = 0#3) (.scan c wa kb wb wl .eq)
        | 1 => guardOpt (fld w 0 3 = 0#3) (.scan c wa kb wb wl .ne)
        | 2 => guardOpt (fld w 0 3 = 0#3) (.scan c wa kb wb wl .mark)
        | 3 => some (.scan c wa kb wb wl (.cls ka))
        | 4 => some (.scan c wa kb wb wl (.ncls ka))
        | _ => none
    | 133 => guardOpt (f = 0#3 ∧ g = 0#4) (.cmpc c ka wa kb wb wl)
    | 134 => guardOpt (f = 0#3 ∧ fld v 12 2 = 0#2) (.edit c (dOf (fld v 10 2)) ka wa kb wb wl)
    | _ => none
  | _ => none

/-- Floating-point instructions (R267, R268). -/
def decodeF (c : CoreId) (m : Nat) (r : List Syll) : Option Instr :=
  match m, r with
  | 397, _ => some (.fclrt c)
  | _, [] => none
  | _, w :: t =>
    let d := regOf (fld w 0 5)
    let b := regOf (fld w 5 5)
    let l : Bool := fld w 10 1 = 1#1
    let rm := fld w 11 3
    match m with
    | 384 => some (.fadd c d b l rm)
    | 385 => some (.fsub c d b l rm)
    | 386 => some (.fmul c d b l rm)
    | 387 => some (.fdiv c d b l rm)
    | 388 => some (.fsqrt c d b l rm)
    | 389 => guardOpt (fld w 10 4 = 0#4) (.fcvtsl c d b)
    | 390 => guardOpt (fld w 10 1 = 0#1) (.fcvtls c d b rm)
    | 391 => some (.fcvtfi c d b l rm)
    | 392 => some (.fcvtif c d b l rm)
    | 393 => guardOpt (rm = 0#3) (.fneg c d b l)
    | 394 => guardOpt (rm = 0#3) (.fabs c d b l)
    | 395 =>
      match t with
      | v :: _ => guardOpt (rm = 0#3 ∧ fld v 5 9 = 0#9) (.fcmp c d b (regOf (fld v 0 5)) l)
      | [] => none
    | 396 => guardOpt (fld w 8 6 = 0#6) (.frec c d (fld w 5 3))
    | _ => none

/-- Capability, storage-key and TLB instructions (R287, R288). -/
def decodeC (c : CoreId) (m : Nat) (r : List Syll) : Option Instr :=
  match m, r with
  | 525, _ => some (.tlbInva c)
  | 520, t => (tailOf t).map fun t => .capln c t
  | 521, t => (tailOf t).map fun t => .dataln c t
  | _, [] => none
  | _, w :: t =>
    let kd : CapNum := { x := fld w 4 1 = 1#1, n := fld w 0 4 }
    let ks : CapNum := { x := fld w 9 1 = 1#1, n := fld w 5 4 }
    let a := regOf (fld w 0 5)
    let b := regOf (fld w 5 5)
    match m with
    | 512 => guardOpt (fld w 10 4 = 0#4) (.cmov c kd ks)
    | 513 => guardOpt (fld w 5 9 = 0#9) (.cclr c kd)
    | 514 =>
      match t with
      | v :: _ => guardOpt (fld w 10 4 = 0#4 ∧ fld v 10 4 = 0#4) (.csetb c kd ks (regOf (fld v 0 5)) (regOf (fld v 5 5)))
      | [] => none
    | 515 =>
      match t with
      | v :: _ => guardOpt (fld w 10 4 = 0#4 ∧ fld v 5 9 = 0#9) (.candr c kd ks (regOf (fld v 0 5)))
      | [] => none
    | 516 =>
      match t with
      | v :: _ => guardOpt (fld w 10 4 = 0#4 ∧ fld v 5 9 = 0#9) (.csetk c kd ks (regOf (fld v 0 5)))
      | [] => none
    | 517 =>
      match t with
      | v :: _ => guardOpt (fld w 0 5 = 0#5 ∧ fld w 10 4 = 0#4 ∧ fld v 5 9 = 0#9) (.cget c (regOf (fld v 0 5)) ks)
      | [] => none
    | 518 => if fld w 5 9 ≠ 0#9 then none else (tailOf t).map fun t => .cld c kd t
    | 519 => if fld w 5 9 ≠ 0#9 then none else (tailOf t).map fun t => .cst c kd t
    | 522 => if fld w 5 9 ≠ 0#9 then none else (tailOf t).map fun t => .setkey c a t
    | 523 => if fld w 5 9 ≠ 0#9 then none else (tailOf t).map fun t => .getkey c a t
    | 524 => guardOpt (fld w 5 9 = 0#9) (.tlbInv c a)
    | 526 => guardOpt (fld w 5 9 = 0#9) (.tlbLock c a)
    | 527 => guardOpt (fld w 5 9 = 0#9) (.tlbUnlk c a)
    | 528 => guardOpt (fld w 10 4 = 0#4) (.tlbRd c a b)
    | _ => none

/-- The instruction that a list of syllables starts with, before the checks of `Instr.wellFormed`. -/
def decodeRaw (c : CoreId) (ws : List Syll) : Option Instr :=
  match ws with
  | [] => none
  | w :: r =>
    if fld w 0 1 = 1#1 then decodeP c w r
    else if fld w 0 4 = 6#4 then decodeX c (regOf (fld w 4 5)) (fld w 9 5).toNat r
    else if fld w 0 4 = 7#4 then
      let m := (fld w 4 10).toNat
      if m < 64 then decodeY c m r
      else if m < 128 then decodeD c m r
      else if m < 384 then decodeS c m r
      else if m < 512 then decodeF c m r
      else decodeC c m r
    else
      let a := regOf (fld w 4 5)
      let b := regOf (fld w 9 5)
      match (fld w 1 3).toNat with
      | 0 => some (.add c a b)
      | 1 => some (.sub c a b)
      | 2 => some (.and c a b)
      | 3 => some (.or c a b)
      | 4 => some (.mov c a b)
      | _ => some (.home c a b)

/-- The instruction of core c that a list of syllables starts with; none when its encoding is undefined (R188). -/
def decode (c : CoreId) (ws : List Syll) : Option Instr :=
  (decodeRaw c ws).filter Instr.wellFormed

end Sys2Proof
end

