-- ==== Sys2Proof/Machine/Fields.lean ====
section
/-! DEFINITION. Packed decimal fields: symbols, signs, values (R43 to R46). -/

namespace Sys2Proof.Machine

/-! ### Packed decimal fields -/

/-- The nine symbols of a word (R43). -/
def symbols (w : Word) : List Nat := (List.range 9).map fun i => w.toNat / 16 ^ (8 - i) % 16

/-- The sign of a symbol in sign position: true for negative (R44). -/
def signOf (x : Nat) : Option Bool :=
  if x = 11 ∨ x = 13 then some true else if 10 ≤ x then some false else none

/-- The symbol in place j of a field of n words is valid (R44). -/
def symbolOk (last : Bool) (x : Nat) : Bool := if last then decide (10 ≤ x) else decide (x < 10)

/-- Index of the word that holds the first invalid symbol (R45). -/
def firstInvalid (l : List Word) : Option Nat :=
  let n := l.length
  (List.range n).find? fun i =>
    !((List.range 9).all fun j => symbolOk (decide (i + 1 = n) && decide (j = 8)) ((symbols (l.getD i 0)).getD j 0))

/-- Value of a packed field; none when a symbol is invalid. -/
def packedValue (l : List Word) : Option Int :=
  if l = [] ∨ (firstInvalid l).isSome then none
  else
    let ss := l.flatMap symbols
    let m : Nat := ss.dropLast.foldl (fun a x => 10 * a + x) 0
    some (if signOf (ss.getLastD 12) = some true then -(m : Int) else m)

/-- Decimal digits of m, n of them, the most significant first; higher digits are dropped. -/
def digitsOf : Nat → Nat → List Nat
  | 0, _ => []
  | n + 1, m => m / 10 ^ n % 10 :: digitsOf n m

/-- A word from its symbols. -/
def symbolsWord (l : List Nat) : Word := BitVec.ofNat 36 (l.foldl (fun a x => 16 * a + x) 0)

/-- The packed field of n words that holds v, with the sign of R46; v has at most 9n − 1 digits. -/
def packWords (n : Nat) (v : Int) : List Word :=
  let ss := digitsOf (9 * n - 1) v.natAbs ++ [if v < 0 then 13 else 12]
  (List.range n).map fun i => symbolsWord ((ss.drop (9 * i)).take 9)

/-- v has at most k digits. -/
def fitsDigits (k : Nat) (v : Int) : Bool := decide (v.natAbs < 10 ^ k)

end Sys2Proof.Machine
end

