-- ==== Sys2Proof/Machine/Flags.lean ====
section
/-! DEFINITION. Tests and results that instructions compute: the condition codes (R203), compare results, the fields of
DMODE and FMODE that MTS can write (R223, R265), decimal rounding (R224), and the flags of FMODE (R265). -/

namespace Sys2Proof.Machine

/-- The test of a condition code (R203). -/
def condHolds (cc : Cond) (a b : Word) : Bool :=
  match cc with
  | .eq => decide (a = b)
  | .ne => decide (a ≠ b)
  | .lt => a.slt b
  | .ge => !(a.slt b)
  | .le => !(b.slt a)
  | .gt => b.slt a
  | .ltu => a.ult b
  | .geu => !(a.ult b)
  | .leu => !(b.ult a)
  | .gtu => b.ult a
  | .any => decide (a &&& b ≠ 0)
  | .none => decide (a &&& b = 0)

/-- The result of a comparison of two integers: −1, 0 or 1. -/
def cmpWord (a b : Int) : Word := if a < b then BitVec.allOnes 36 else if a = b then 0 else 1

/-- A sign-extended 14-bit immediate (R193). -/
def imm14 (v : BitVec 14) : Word := v.signExtend 36

/-- DMODE after a write (R223): MOVF and RM; a write of RM 7 stores 6. -/
def dmodeWrite (v : Word) : Word :=
  let rm := v.toNat % 8
  BitVec.ofNat 36 (v.toNat / 8 % 2 * 8 + (if rm = 7 then 6 else rm))

/-- FMODE after a write (R265): flags and enables in 12:22, SUBN in 32, RM in 33:35; RM 5 to 7 stores 4. -/
def fmodeWrite (v : Word) : Word :=
  let rm := v.toNat % 8
  BitVec.ofNat 36 (v.toNat / 2 ^ 13 % 2 ^ 11 * 2 ^ 13 + v.toNat / 8 % 2 * 8 + (if 4 < rm then 4 else rm))

/-- FMODE with raised flags set; f holds IV, DZ, OF, UF, NX, SB from its most significant bit (R265, R274). -/
def fmodeFlags (v : Word) (f : BitVec 6) : Word := v ||| BitVec.ofNat 36 (f.toNat * 2 ^ 18)

/-- CAUSE and CAUSE1 after a write: positions 11:29 are reserved (R151). -/
def causeWrite (v : Word) : Word := BitVec'.setPos v 11 19 0

/-- SAVEMODE and SAVEMODE1 after a write: positions 2:11 are reserved (R161). -/
def savemodeWrite (v : Word) : Word := BitVec'.setPos v 2 10 0

/-- A register that holds a syllable address in positions 18:35 (R150). -/
def low18 (v : Word) : Word := BitVec.ofNat 36 (v.toNat % 2 ^ 18)

/-- Rounds n / d, d > 0, under a rounding mode of R224. -/
def roundDec (m : Nat) (n : Int) (d : Nat) : Int :=
  let q := n.natAbs / d
  let r := n.natAbs % d
  let neg := decide (n < 0)
  let up : Bool := match m with
    | 0 => decide (d ≤ 2 * r)
    | 1 => decide (d < 2 * r) || (decide (d = 2 * r) && decide (q % 2 = 1))
    | 2 => false
    | 3 => decide (r ≠ 0)
    | 4 => neg && decide (r ≠ 0)
    | 5 => !neg && decide (r ≠ 0)
    | _ => decide (d < 2 * r)
  let v : Nat := if up then q + 1 else q
  if neg then -(v : Int) else v

end Sys2Proof.Machine
end

