-- ==== Sys2Proof/Machine/CoreRegs.lean ====
section
/-! DEFINITION. The registers of a core: capabilities (R48, R49), word, decimal and capability registers (R147 to R150), the
mode shadow (R159), counters (R142), special registers (R150, R215), and what a core can take at a boundary (R174, R175). -/

namespace Sys2Proof.Machine

/-- Applies f for every number below n, in rising order. -/
def iter {α : Type} (n : Nat) (f : Nat → α → α) (a : α) : α := (List.range n).foldl (fun x i => f i x) a

/-! ### Capabilities (R48, R49) -/

def Cap.base (k : Cap) : Nat := k.w0.toNat
def Cap.lmant (k : Cap) : Nat := (BitVec'.pos k.w1 0 20).toNat
def Cap.lexp (k : Cap) : Nat := (BitVec'.pos k.w1 20 4).toNat
def Cap.len (k : Cap) : Nat := k.lmant * 4 ^ k.lexp
def Cap.limit (k : Cap) : Nat := k.base + k.len
/-- The limit within the address space. -/
def Cap.top (k : Cap) : Nat := min k.limit (2 ^ 36)
def Cap.read (k : Cap) : Bool := BitVec'.at' k.w1 24
def Cap.write (k : Cap) : Bool := BitVec'.at' k.w1 25
def Cap.capload (k : Cap) : Bool := BitVec'.at' k.w1 26
def Cap.capstore (k : Cap) : Bool := BitVec'.at' k.w1 27
def Cap.post (k : Cap) : Bool := BitVec'.at' k.w1 28
def Cap.sys (k : Cap) : Bool := BitVec'.at' k.w1 29
def Cap.global (k : Cap) : Bool := BitVec'.at' k.w1 30
def Cap.key (k : Cap) : BitVec 4 := BitVec'.pos k.w1 32 4
/-- Characters a to a + n - 1 lie in bounds (R49). -/
def Cap.covers (k : Cap) (a n : Nat) : Bool := decide (k.base ≤ a) && decide (a + n ≤ k.top)

/-! ### Core registers (R147 to R150) -/

/-- Key of Wn in the active bank (R147). -/
def CoreRegs.wKey (r : CoreRegs) (n : Reg) : Nat := if r.ctl.bk1 && decide (24 ≤ n.val) then 32 + n.val else n.val
def CoreRegs.wr (r : CoreRegs) (n : Reg) : Word := Sparse.get 0 r.w (r.wKey n)
def CoreRegs.setW (r : CoreRegs) (n : Reg) (v : Word) : CoreRegs := { r with w := Sparse.set 0 r.w (r.wKey n) v }
/-- The register after Wn; encodings that name a pair exclude n = 31 (R195). -/
def Reg.next (n : Reg) : Reg := ⟨(n.val + 1) % 32, Nat.mod_lt _ (by decide)⟩
def CoreRegs.pair (r : CoreRegs) (n : Reg) : Pair := Pair.mk (r.wr n) (r.wr (Reg.next n))
def CoreRegs.setPair (r : CoreRegs) (n : Reg) (v : Pair) : CoreRegs :=
  (r.setW n (Pair.hi v)).setW (Reg.next n) (Pair.lo v)
def CoreRegs.dr (r : CoreRegs) (x : DReg) : Int := Sparse.get 0 r.d x.val
def CoreRegs.setD (r : CoreRegs) (x : DReg) (v : Int) : CoreRegs := { r with d := Sparse.set 0 r.d x.val v }
/-- Capability register: 0 to 7 K, 8 KC, 9 KS, 10 SKC, 11 SKC1, 16 to 25 the inactive set (R149). -/
def CoreRegs.cap (r : CoreRegs) (n : Nat) : Cap := Sparse.get Cap.empty r.k n
def CoreRegs.setCap (r : CoreRegs) (n : Nat) (v : Cap) : CoreRegs := { r with k := Sparse.set Cap.empty r.k n v }
/-- Register number of a capability operand (R284). -/
def capKey (n : CapNum) : Nat := n.n.toNat + (if n.x then 16 else 0)

/-- Exchanges K0–K7, KC, KS with KX0–KX7, KCX, KSX (R170). -/
def CoreRegs.swapSets (r : CoreRegs) : CoreRegs :=
  iter 10 (fun i x => (x.setCap i (r.cap (16 + i))).setCap (16 + i) (r.cap i)) r

/-- Words in use in the save area (R150, FSP). -/
def framesSize (l : List Frame) : Nat := (l.map fun f => f.regs.length + 2).sum
def CoreRegs.fsp (r : CoreRegs) : Nat := framesSize r.frames

def Core.updR (k : Core) (f : CoreRegs → CoreRegs) : Core := { k with r := f k.r }
def Core.updSp (k : Core) (f : Special → Special) : Core := { k with r := { k.r with sp := f k.r.sp } }
def Core.updCtl (k : Core) (f : Ctl → Ctl) : Core := { k with r := { k.r with ctl := f k.r.ctl } }

/-- CTL as a word (R153). -/
def Ctl.word (t : Ctl) : Word :=
  BitVec.ofNat 36 (bit t.bk1 * 16 + bit t.exl * 8 + bit t.sres * 4 + bit t.lact * 2 + bit t.lben)

/-- The value of DMODE, FMODE or CTL that governs the next instruction (R159). -/
def CoreRegs.govDmode (r : CoreRegs) : Word :=
  match r.shadow with
  | some h => if h.which = 0 then h.old else r.sp.dmode
  | none => r.sp.dmode
def CoreRegs.govFmode (r : CoreRegs) : Word :=
  match r.shadow with
  | some h => if h.which = 1 then h.old else r.sp.fmode
  | none => r.sp.fmode
def CoreRegs.govLben (r : CoreRegs) : Bool :=
  match r.shadow with
  | some h => if h.which = 2 then BitVec'.at' h.old 35 else r.ctl.lben
  | none => r.ctl.lben
/-- The KC that governs fetch checks (R159, R220). -/
def CoreRegs.govKc (r : CoreRegs) : Cap :=
  match r.shadow with
  | some h => if h.which = 3 then h.oldKc else r.cap 8
  | none => r.cap 8

/-- A mode write of WHICH by this instruction starts a shadow of two instructions (R159). -/
def CoreRegs.startShadow (r : CoreRegs) (which : BitVec 2) (old : Word) (oldKc : Cap) : CoreRegs :=
  { r with shadow := some { left := 2, which := which, old := old, oldKc := oldKc } }

/-- A special register as MFS reads it (R150); coreId is CORE_ID. -/
def CoreRegs.special (r : CoreRegs) (coreId : Word) (n : Nat) : Word :=
  match n with
  | 0 => r.sp.cause
  | 1 => r.sp.epc
  | 2 => r.sp.faddr
  | 3 => r.sp.savemode
  | 4 => r.sp.cause1
  | 5 => r.sp.epc1
  | 6 => r.sp.savemode1
  | 7 => r.sp.excEntry
  | 8 => r.sp.dmode
  | 9 => r.sp.fmode
  | 10 => r.ctl.word
  | 11 => r.sp.lstart
  | 12 => r.sp.lend
  | 13 => r.sp.lcount
  | 14 => BitVec.ofNat 36 r.fsp
  | 15 => r.sp.fsmem0
  | 16 => r.sp.fsdepth0
  | 17 => r.sp.fsmem1
  | 18 => r.sp.fsdepth1
  | 19 => r.sp.ien
  | 20 => r.sp.ipend
  | 21 => coreId
  | 22 => r.cnt.cycles
  | 23 => r.cnt.farwait
  | 24 => r.cnt.stalls
  | 25 => r.cnt.idle
  | _ => 0

/-- The register effect of MTS: reserved fields and RO registers ignore the write, IPEND clears the bits written as 1
(except a bit that a queue's condition holds set, R356: keep), a mode register starts a shadow (R159). -/
def CoreRegs.mts (r : CoreRegs) (n : Nat) (v : Word) (keep : Bool) : CoreRegs :=
  match n with
  | 0 => { r with sp := { r.sp with cause := causeWrite v } }
  | 1 => { r with sp := { r.sp with epc := low18 v } }
  | 2 => { r with sp := { r.sp with faddr := v } }
  | 3 => { r with sp := { r.sp with savemode := savemodeWrite v } }
  | 4 => { r with sp := { r.sp with cause1 := causeWrite v } }
  | 5 => { r with sp := { r.sp with epc1 := low18 v } }
  | 6 => { r with sp := { r.sp with savemode1 := savemodeWrite v } }
  | 7 => { r with sp := { r.sp with excEntry := low18 v } }
  | 8 => CoreRegs.startShadow { r with sp := { r.sp with dmode := dmodeWrite v } } 0 r.sp.dmode Cap.empty
  | 9 => CoreRegs.startShadow { r with sp := { r.sp with fmode := fmodeWrite v } } 1 r.sp.fmode Cap.empty
  | 10 => CoreRegs.startShadow { r with ctl := { r.ctl with lben := v.getLsbD 0 } } 2 r.ctl.word Cap.empty
  | 11 => { r with sp := { r.sp with lstart := low18 v } }
  | 12 => { r with sp := { r.sp with lend := low18 v } }
  | 13 => { r with sp := { r.sp with lcount := v } }
  | 15 => { r with sp := { r.sp with fsmem0 := v } }
  | 16 => { r with sp := { r.sp with fsdepth0 := v } }
  | 17 => { r with sp := { r.sp with fsmem1 := v } }
  | 18 => { r with sp := { r.sp with fsdepth1 := v } }
  | 19 => { r with sp := { r.sp with ien := BitVec.ofNat 36 (v.toNat % 32) } }
  | 20 =>
    let p := r.sp.ipend &&& ~~~v
    { r with sp := { r.sp with ipend := if keep then p ||| (r.sp.ipend &&& 2) else p } }
  | _ => r

/-- Counts n cc of one kind (R142). -/
def Counters.addCycles (t : Counters) (n : Nat) : Counters := { t with cycles := t.cycles + BitVec.ofNat 36 n, clk := t.clk + n }
def Counters.addFar (t : Counters) (n : Nat) : Counters := { t with farwait := t.farwait + BitVec.ofNat 36 n, clk := t.clk + n }
def Counters.addStalls (t : Counters) (n : Nat) : Counters := { t with stalls := t.stalls + BitVec.ofNat 36 n, clk := t.clk + n }
def Counters.addIdle (t : Counters) (n : Nat) : Counters := { t with idle := t.idle + BitVec.ofNat 36 n, clk := t.clk + n }
/-! ### Causes and interrupts (R172, R174, R175, R179) -/

/-- Code of a cause (R179). -/
def Cause.code : Cause → Nat
  | .none => 0 | .start => 1 | .illegal => 2 | .alignment => 3 | .divideZero => 4 | .modeHazard => 5 | .frameEmpty => 6
  | .codeRange => 7 | .capBounds => 8 | .capRights => 9 | .caplineStore => 10 | .capFormat => 11 | .fetchBounds => 12
  | .scratchRange => 13 | .pageFault => 14 | .pageProtect => 15 | .walkBusError => 16 | .walkSideEffect => 17
  | .tlbLock => 18 | .gateViolation => 19 | .targetViolation => 20 | .linePoison => 21 | .decimalData => 24
  | .decimalOverflow => 25 | .decimalDivide => 26 | .editPattern => 27 | .stringState => 28 | .floatTrap => 29
  | .txnState => 32 | .claimFormat => 33 | .claimRegion => 34 | .claimMissing => 35 | .regionKind => 36
  | .accountRange => 37 | .responseLength => 38 | .frameOverflow => 40 | .frameUnderflow => 41 | .loopState => 42
  | .break_ => 43 | .intAborted => 48 | .intAlarm => 49 | .intHub => 50 | .intQueue => 51 | .intDoorbell => 52
  | .cataclysm => 63

/-- What a core can take at a boundary, in the order of R175. -/
inductive Item where
  | aborted | alarm | target | float | hub | queue | doorbell
  deriving DecidableEq, Repr

/-- Position of an interrupt in IPEND and IEN (R174). -/
def Item.position : Item → Nat
  | .aborted => 31 | .alarm => 32 | .hub => 33 | .queue => 34 | .doorbell => 35 | _ => 0

def Item.cause : Item → Cause
  | .aborted => .intAborted | .alarm => .intAlarm | .target => .targetViolation | .float => .floatTrap
  | .hub => .intHub | .queue => .intQueue | .doorbell => .intDoorbell

/-- Level of an item (R168). -/
def Item.prompt : Item → Bool
  | .aborted => true | .alarm => true | _ => false

/-- The item is pending, enabled, and its level is allowed (R172, R174). The bit of a core's DOORBELL to itself is there from the cycle
after, when the next instruction has begun (R219). -/
def Core.canTake (k : Core) (i : Item) : Bool :=
  (match i with
    | .target => k.tvPend.isSome
    | .float => k.u.ftPend
    | .doorbell => !k.bell && BitVec'.at' k.r.sp.ipend 35 && BitVec'.at' k.r.sp.ien 35
    | _ => BitVec'.at' k.r.sp.ipend i.position && BitVec'.at' k.r.sp.ien i.position) &&
  (if i.prompt then !k.r.ctl.bk1 else !k.r.ctl.bk1 && !k.r.ctl.exl)

/-- The item that the core takes next (R175). -/
def Core.takeable (k : Core) : Option Item :=
  [Item.aborted, .alarm, .target, .float, .hub, .queue, .doorbell].find? k.canTake

end Sys2Proof.Machine
end

