-- ==== Sys2Proof/Machine/Micro.lean ====
section
/-! DEFINITION. The microcode sequencer of a core: microwords (R180), conditions and the next microaddress (R181), the match
registers and patch RAM (R182), and the ports between which a microword moves a value (R183, R184).

The ROM's words are not in the manual, so they are an open constant. What a microprogram makes of the instruction that runs is the
effect that the instruction's own rule gives; the sequencer's own state is what its microwords leave: DEDUCED, log entry 5. -/

namespace Sys2Proof.Machine

/-- A microword: SRC, DST, COND, NEXT; the spare position is ignored (R180). -/
structure MicroWord where
  src : BitVec 7
  dst : BitVec 7
  cond : BitVec 4
  next : BitVec 13
  deriving DecidableEq, Repr

def MicroWord.of (w : BitVec 32) : MicroWord :=
  { src := BitVec'.pos w 0 7, dst := BitVec'.pos w 7 7, cond := BitVec'.pos w 14 4, next := BitVec'.pos w 18 13 }

/-! ### Microaddresses (R182) -/

/-- First microaddress that selects patch RAM. -/
def patchBase : Nat := 7936

/-- The microword at a microaddress: of the ROM, or of the core's patch RAM. -/
def Core.microWord (k : Core) (a : BitVec 13) : MicroWord :=
  MicroWord.of (if a.toNat < patchBase then Config.rom a else Sparse.get 0 k.patchRam (a.toNat - patchBase))

/-- Match register n as its word shows it (R440): enable, ROM address, patch word. -/
def Core.matchWord (k : Core) (n : Nat) : Word := Sparse.get 0 k.matchRegs n
def matchEnabled (w : Word) : Bool := BitVec'.at' w 13
def matchAddress (w : Word) : BitVec 13 := BitVec'.pos w 14 13
def matchPatch (w : Word) : BitVec 8 := BitVec'.pos w 27 8

/-- Where the sequencer goes when its next microaddress is a: to the patch word of the lowest enabled match register that holds
a, else to a. -/
def Core.redirect (k : Core) (a : BitVec 13) : BitVec 13 :=
  match (List.range 16).find? fun n => matchEnabled (k.matchWord n) && decide (matchAddress (k.matchWord n) = a) with
  | some n => BitVec.ofNat 13 (patchBase + (matchPatch (k.matchWord n)).toNat)
  | none => a

/-! ### Conditions (R181) -/

/-- The beside unit that a port addresses is busy. -/
def Core.besideBusy (k : Core) (p : Nat) : Bool :=
  if 0o60 ≤ p ∧ p ≤ 0o63 then !k.u.mul.isEmpty || k.u.div.isSome || k.u.dec.isSome
  else if 0o64 ≤ p ∧ p ≤ 0o67 then !k.u.fp.isEmpty
  else false

/-- The condition of a microword. Conditions 4, 5, 7, 8, 11, 12 and, in patch RAM, 15 test latches of units that the manual
does not hold in registers: a free value, log entry 5. -/
def Core.microCond (k : Core) (m : Micro) (w : MicroWord) : Bool :=
  match w.cond.toNat with
  | 0 => false
  | 1 => decide (m.alu = 0)
  | 2 => m.alu.msb
  | 3 => m.carry
  | 6 => k.besideBusy w.src.toNat || k.besideBusy w.dst.toNat
  | 9 => k.takeable.isSome
  | 10 => k.r.ctl.lact && decide (k.r.sp.lend.toNat % 2 ^ 18 = k.pc)
  | 13 => k.r.shadow.isSome
  | 14 => k.r.ctl.bk1
  | 15 => if m.upc.toNat < patchBase then false else Config.microBit m.born m.ticks 15
  | c => Config.microBit m.born m.ticks c

/-! ### Ports (R183, R184) -/

def portReg (p : Nat) : Reg := ⟨(p - 1) % 32, Nat.mod_lt _ (by decide)⟩
def portDReg (p : Nat) : DReg := ⟨(p - 0o41) % 4, Nat.mod_lt _ (by decide)⟩

/-- What a source port gives. The results of units within an instruction are free values, log entry 5; a port that has no
unit gives zero. -/
def CoreRegs.readPort (r : CoreRegs) (m : Micro) (p : Nat) : Word :=
  if p = 0 then 0
  else if p ≤ 0o40 then r.wr (portReg p)
  else if p ≤ 0o44 then (packWords 7 (r.dr (portDReg p))).getD m.didx.toNat 0
  else if p = 0o45 then m.didx
  else if p = 0o46 then m.sidx
  else if p = 0o47 then r.special m.coreId m.sidx.toNat
  else if p = 0o50 then m.alu
  else if p = 0o51 then Config.aluFlags (decide (m.alu = 0)) m.alu.msb m.carry
  else if p ≤ 0o57 then 0
  else if p ≤ 0o167 then Config.microWord m.born m.ticks p
  else if p = 0o177 then m.hold
  else 0

/-- A decimal register with word i of its packed field replaced; an invalid symbol leaves it as it is (R148). -/
def CoreRegs.setDWord (r : CoreRegs) (x : DReg) (i : Nat) (v : Word) : CoreRegs :=
  match packedValue ((packWords 7 (r.dr x)).set i v) with
  | some n => r.setD x n
  | none => r

/-- The ALU operation of a trigger port on the operands A and B: result and carry. How far and which way a shift goes is not
stated: a free value, log entry 5. -/
def Micro.aluOp (m : Micro) (p : Nat) : Word × Bool :=
  let a := Sparse.get 0 m.ports 0o50
  let b := Sparse.get 0 m.ports 0o51
  match p with
  | 0o52 => (a + b, decide (2 ^ 36 ≤ a.toNat + b.toNat))
  | 0o53 => (a - b, decide (b.toNat ≤ a.toNat))
  | 0o54 => (a &&& b, false)
  | 0o55 => (a ||| b, false)
  | 0o56 => (a ^^^ b, false)
  | _ => (Config.microWord m.born m.ticks p, Config.microBit m.born m.ticks p)

/-- Moves a value into a destination port; at a port that has no unit nothing happens. -/
def CoreRegs.writePort (r : CoreRegs) (m : Micro) (p : Nat) (v : Word) : CoreRegs × Micro :=
  if p = 0 then (r, m)
  else if p ≤ 0o40 then (r.setW (portReg p) v, m)
  else if p ≤ 0o44 then (r.setDWord (portDReg p) m.didx.toNat v, m)
  else if p = 0o45 then (r, { m with didx := v })
  else if p = 0o46 then (r, { m with sidx := v })
  else if p = 0o47 then (r.mts m.sidx.toNat v false, m)
  else if p ≤ 0o167 then
    let m1 := { m with ports := Sparse.set 0 m.ports p v }
    (r, if 0o52 ≤ p ∧ p ≤ 0o57 then { m1 with alu := (m1.aluOp p).1, carry := (m1.aluOp p).2 } else m1)
  else if p = 0o177 then (r, { m with hold := v })
  else (r, m)

/-! ### One microword a cycle (R180, R181) -/

/-- The sequencer goes to a microaddress. -/
def Micro.goTo (m : Micro) (a : BitVec 13) : Micro :=
  { m with upc := a, trace := (m.trace ++ [a]).drop (m.trace.length + 1 - 16), ticks := m.ticks + 1 }

/-- One microword: its move, and the next microaddress. -/
def Core.microStep (k : Core) (x : CoreRegs × Micro) : CoreRegs × Micro :=
  let w := k.microWord x.2.upc
  let y := x.1.writePort x.2 w.dst.toNat (x.1.readPort x.2 w.src.toNat)
  (y.1, y.2.goTo (k.redirect (if k.microCond x.2 w then w.next + 1 else w.next)))

/-- n microwords from here. -/
def Core.microSteps (k : Core) : Nat → CoreRegs × Micro
  | 0 => (k.r, k.micro)
  | n + 1 => k.microStep (k.microSteps n)

/-- The core counts cycles of one kind (R142); the sequencer runs one microword in each. -/
def Core.count (k : Core) (f : Counters → Counters) : Core :=
  { k with
    r := { k.r with cnt := f k.r.cnt },
    micro := (k.microSteps ((f k.r.cnt).clk - k.r.cnt.clk)).2 }

end Sys2Proof.Machine
end

