-- ==== Sys2Proof/Machine/Ops.lean ====
section
/-! DEFINITION. The named operations of the package: its units, its order, its logs, capabilities, registers, code store,
entries and returns (R151 to R178), and the way in which a core carries out one instruction (R141, R154 to R163). -/

namespace Sys2Proof.Machine

/-! ### Units -/

def State.core (s : State) (n : Nat) : Core := Sparse.get Core.reset s.u.cores n
def State.setCore (s : State) (n : Nat) (k : Core) : State :=
  { s with u := { s.u with cores := Sparse.set Core.reset s.u.cores n k } }
def State.updCore (s : State) (n : Nat) (f : Core → Core) : State := s.setCore n (f (s.core n))

def State.cluster (s : State) (n : Nat) : Cluster := Sparse.get Cluster.reset s.u.clusters n
def State.setCluster (s : State) (n : Nat) (k : Cluster) : State :=
  { s with u := { s.u with clusters := Sparse.set Cluster.reset s.u.clusters n k } }
def State.updCluster (s : State) (n : Nat) (f : Cluster → Cluster) : State := s.setCluster n (f (s.cluster n))

def State.die (s : State) (n : Nat) : Die := Sparse.get Die.reset s.u.dies n
def State.setDie (s : State) (n : Nat) (k : Die) : State :=
  { s with u := { s.u with dies := Sparse.set Die.reset s.u.dies n k } }
def State.updDie (s : State) (n : Nat) (f : Die → Die) : State := s.setDie n (f (s.die n))

def State.gate (s : State) (n : Nat) : Gate := Sparse.get Gate.reset s.u.gates n
def State.setGate (s : State) (n : Nat) (k : Gate) : State :=
  { s with u := { s.u with gates := Sparse.set Gate.reset s.u.gates n k } }
def State.updGate (s : State) (n : Nat) (f : Gate → Gate) : State := s.setGate n (f (s.gate n))

def State.port (s : State) (n : Nat) : Port := Sparse.get Port.reset s.u.ports n
def State.setPort (s : State) (n : Nat) (k : Port) : State :=
  { s with u := { s.u with ports := Sparse.set Port.reset s.u.ports n k } }
def State.updPort (s : State) (n : Nat) (f : Port → Port) : State := s.setPort n (f (s.port n))

def State.partn (s : State) (n : Nat) : Partition := Sparse.get Partition.reset s.u.parts n
def State.setPartn (s : State) (n : Nat) (k : Partition) : State :=
  { s with u := { s.u with parts := Sparse.set Partition.reset s.u.parts n k } }
def State.updPartn (s : State) (n : Nat) (f : Partition → Partition) : State := s.setPartn n (f (s.partn n))

/-- The numbers of a core d.c.k (R18, R440). -/
def coreDie (c : Nat) : Nat := c / 64
def coreCluster (c : Nat) : Nat := c / 8
def coreIndex (c : Nat) : Nat := c % 8

/-- Partition of the core's cluster (R25). -/
def State.partOf (s : State) (c : Nat) : Option PartId := (s.cluster (coreCluster c)).part

def State.slot (s : State) (d n : Nat) : Slot := Sparse.get Slot.reset (s.die d).o.slots n
def State.setSlot (s : State) (d n : Nat) (v : Slot) : State :=
  s.updDie d fun e => { e with o := { e.o with slots := Sparse.set Slot.reset e.o.slots n v } }
def State.updSlot (s : State) (d n : Nat) (f : Slot → Slot) : State := s.setSlot d n (f (s.slot d n))

def State.updSd (s : State) (f : Sundial → Sundial) : State := { s with h := { s.h with sd := f s.h.sd } }
def State.updSdRegs (s : State) (f : SdRegs → SdRegs) : State := s.updSd fun x => { x with g := f x.g }
def State.updHost (s : State) (f : HostIf → HostIf) : State := { s with h := { s.h with host := f s.h.host } }
def State.updHostRegs (s : State) (f : HostRegs → HostRegs) : State := s.updHost fun x => { x with g := f x.g }
def State.updMirror (s : State) (f : Mirror → Mirror) : State := { s with h := { s.h with mirror := f s.h.mirror } }
def State.updPlan (s : State) (f : PlanState → PlanState) : State := { s with h := { s.h with plan := f s.h.plan } }
def State.updPwr (s : State) (f : Power → Power) : State := { s with h := { s.h with pwr := f s.h.pwr } }
def State.updTs (s : State) (k : Nat) (f : TsPair → TsPair) : State :=
  { s with h := { s.h with ts := Sparse.set TsPair.reset s.h.ts k (f (Sparse.get TsPair.reset s.h.ts k)) } }

def State.post (s : State) (m : Msg) : State := { s with msgs := s.msgs ++ [m] }
def State.emit (s : State) (o : Sent) : State := { s with sent := s.sent ++ [o] }

/-- The die is in the part (R21). -/
def State.present (s : State) (d : Nat) : Bool := s.h.fuses.present.getLsbD d && decide (d < 8)
/-- The die is present and not fenced. -/
def State.alive (s : State) (d : Nat) : Bool := s.present d && !(s.die d).fenced
/-- Domain i is on (R457). -/
def State.domain (s : State) (i : Nat) : Bool := s.h.pwr.domains.getLsbD i

/-- Domains that domain i needs (R459). -/
def needs (i : Nat) : List Nat :=
  let d := i / 13 * 13
  if i < 104 then
    match i % 13 with
    | 8 => [d + 10, d + 12]
    | 9 => [d + 10, d + 12]
    | 10 => [111]
    | 11 => [d + 10]
    | 12 => []
    | _ => [d + 8, d + 9, d + 10, d + 12]
  else match i with
    | 104 => []
    | 106 => [104, 105]
    | 107 => [104, 106]
    | 109 => [104, 108]
    | _ => [104]

/-- Domain i is on with every domain that it needs. -/
def State.up (s : State) (i : Nat) : Nat → Bool
  | 0 => s.domain i
  | n + 1 => s.domain i && (needs i).all fun j => s.up j n

/-- The domain of the commit gate and its Curfew responders, held in reset while that or 104 is off (R458, R459). -/
def gateDomain : Nat := 112

/-! ### Order -/

def State.tick (s : State) : BitVec 48 := s.h.sd.g.tick

/-- The unwrapped tick nearest the current one (R72, R79). -/
def State.unwrap (s : State) (t : BitVec 48) : Nat :=
  let u := s.h.sd.g.era.toNat * 2 ^ 48 + s.tick.toNat
  let ahead := (t - s.tick).toNat
  if ahead < 2 ^ 47 then u + ahead else u - (2 ^ 48 - ahead)

/-- Epoch of a tick (R72). -/
def State.epochOf (s : State) (t : BitVec 48) : Nat := s.unwrap t / s.h.sd.g.epochTicks % 2 ^ 72

/-- Last tick of an epoch. -/
def State.lastTick (s : State) (e : Nat) : BitVec 48 := BitVec.ofNat 48 ((e + 1) * s.h.sd.g.epochTicks - 1)

/-- The least tick of a nonempty list, compared as R79 does. -/
def leastTick : List (BitVec 48) → Option (BitVec 48)
  | [] => none
  | t :: ts => match leastTick ts with
    | none => some t
    | some u => some (if tickLe t u then t else u)

/-- The participating dies (R83, R106). -/
def State.members (s : State) : List Nat := (List.range 8).filter fun d => (s.die d).member

/-- The package Horizon as die d holds it (R83). -/
def State.dieHorizon (s : State) (d : Nat) : BitVec 48 :=
  let o := (s.die d).o
  let others := (s.members.filter (· ≠ d)).map (Sparse.get 0 o.hzSeen)
  (leastTick (o.hzSent :: Sparse.get 0 o.hzSeen 8 :: others)).getD 0

/-- The package Horizon as the hub holds it (R83). -/
def State.hubHorizon (s : State) : BitVec 48 :=
  (leastTick (s.h.sd.hzHub :: s.members.map (Sparse.get 0 s.h.sd.hzSeen))).getD 0

/-- Epoch numbers are 72 bits (R102), compared as R79 compares ticks (R107). -/
def epochLe (a b : Nat) : Bool := decide ((b % 2 ^ 72 + 2 ^ 72 - a % 2 ^ 72) % 2 ^ 72 < 2 ^ 71)
def epochNext (a : Nat) : Nat := (a + 1) % 2 ^ 72
def epochPrev (a : Nat) : Nat := (a + 2 ^ 72 - 1) % 2 ^ 72

/-! ### The plan's parameters (R408) -/

/-- Value of parameter (id, index) of the effective plan, d when no plan gives it. Applied plans carry every value. -/
def State.param (s : State) (id idx : Nat) (d : Int) : Int :=
  match s.h.plan.eff with
  | none => d
  | some p => match p.params.find? (fun e => e.1 = 64 * id + idx) with
    | some e => e.2
    | none => d

def State.paramN (s : State) (id idx : Nat) (d : Nat) : Nat := (s.param id idx d).toNat

def State.planPart (s : State) (p : Nat) : PlanPart :=
  match s.h.plan.eff with
  | none => .reset
  | some pl => match pl.parts.find? (fun e => e.1 = p) with
    | some e => e.2
    | none => .reset

def State.regions (s : State) : List Region :=
  match s.h.plan.eff with
  | none => []
  | some p => p.regions

/-- Pair k runs in tandem mode (R24). -/
def State.tandemPair (s : State) (k : Nat) : Bool := s.param 32 k (if s.h.pwr.straps.tandem then 1 else 0) = 1

/-- The pair of a tandem-mode partition: a partition with a cluster on a pair in tandem mode (R25). -/
def State.tandemOf (s : State) (p : Nat) : Option Nat :=
  (List.range 4).find? fun k =>
    s.tandemPair k && (List.range 16).any fun c => (s.planPart p).clusters.getLsbD (16 * k + c)

/-- The die whose copy of the line an access from die `src` for partition p reaches (R61). -/
def State.copyDie (s : State) (p src target : Nat) : Option Nat :=
  match s.tandemOf p with
  | none => some target
  | some k => if target / 2 = k then some (if src / 2 = k then src else target) else none

/-- The region of partition p that holds line l of die d (R304); in tandem mode the lower die names it (R411). -/
def State.regionOf (s : State) (p d l : Nat) : Option Region :=
  s.regions.find? fun r =>
    decide (r.part = p) && decide (r.first ≤ l) && decide (l ≤ r.last) &&
      (decide (r.die = d) || (decide (s.tandemOf p = some (d / 2)) && decide (r.die / 2 = d / 2)))

/-- A free value, drawn in turn. -/
def State.fresh (s : State) : State × Nat := ({ s with free := s.free + 1 }, (Config.freeWord s.free).toNat)

def State.updR (s : State) (c : Nat) (f : CoreRegs → CoreRegs) : State := s.updCore c (·.updR f)
def State.regs (s : State) (c : Nat) : CoreRegs := (s.core c).r

/-! ### Events to the host, error log (R393, R439, R453) -/

/-- Configuration of a host function: 0 the PF, 1 + p VF p. -/
def State.fnCfg (s : State) (f : Nat) : FnCfg := Sparse.get FnCfg.reset s.h.host.fns f
/-- The function whose MSI-X table holds the entry of a key. -/
def msixOwner (key : Nat) : Nat := if key < 2048 then 0 else 1 + (key - 2048) / 128
/-- A function sends no MSI-X message: MSI-X disabled, all its vectors masked, or D3hot. PRESUMED, log entry 68. -/
def FnCfg.silent (x : FnCfg) : Bool := !x.msixEn || x.msixMask || x.d3hot
/-- An MSI-X message of one function; masked vectors keep one pending bit (R453). Key v: PF vector; 2048 + 128p + v: VF p. -/
def State.msixKey (s : State) (key : Nat) (o : Sent) : State :=
  let v := Sparse.get MsixVec.reset s.h.host.msix key
  if v.masked || (s.fnCfg (msixOwner key)).silent then
    s.updHost fun x => { x with msix := Sparse.set MsixVec.reset x.msix key { v with pending := true } }
  else s.emit o

/-- A message for PF vector v, sent by the VF to which it is delegated (R453). -/
def State.msix (s : State) (v : Nat) : State :=
  let p := v / 128
  if h : p < 16 then
    if p < s.h.host.numVfs then s.msixKey (2048 + v) (.msix (.vf ⟨p, h⟩) (v % 128)) else s.msixKey v (.msix .pf v)
  else s

/-- Sets bit i of HOST_EVT and sends the event message (R439). -/
def State.event (s : State) (i : Nat) : State :=
  let g := s.h.host.g
  let s' := s.updHostRegs fun g => { g with evt := g.evt ||| (1#6 <<< i) }
  if !g.evt.getLsbD i && g.evtEn.getLsbD i && g.evtIen then s'.msix g.evtVec.toNat else s'

/-- An entry of the error log (R393, R395). -/
def State.logErr (s : State) (code sev die : Nat) (hub : Bool) (part unit : Nat) (w2 w3 : Word) : State :=
  let n := s.h.elCount.toNat
  let w0 := (((((code % 64 * 4 + sev) * 8 + die % 8) * 2 + bit hub) * 16 + part % 16) * 256 + unit % 256) * 4096 + n % 4096
  let r : LogRec := { w0 := BitVec.ofNat 36 w0, w1 := s.tick.truncate 36, w2 := w2, w3 := w3 }
  let s' := { s with h := { s.h with elCount := s.h.elCount + 1, elog := Sparse.set LogRec.reset s.h.elog (n % 256) r } }
  if sev = 2 then s'.event 0 else s'

/-- Physical address items of a DETAIL (R492): word 2, and word 3 with a second item. -/
def paWord2 (pa : Nat) : Word := BitVec.ofNat 36 pa
def paWord3 (pa item : Nat) : Word := BitVec.ofNat 36 (pa / 2 ^ 36 % 16 * 2 ^ 32 + item)
/-- Codeword and place (R492). -/
def eccItem (codeword place : Nat) : Nat := codeword % 4 * 64 + place % 64
/-- Physical address of a line of ledger memory (R57). -/
def linePa (d l : Nat) : Nat := d * 2 ^ 34 + l * 64
/-- Row that owns a line (R60). -/
def rowOf (l : Nat) : Nat := l % 32 / 16

/-- SD_ERR records the first error; every error enters the log (R105, R395). -/
def State.sdError (s : State) (code die : Nat) : State :=
  let w : Word := BitVec.ofNat 36 (2 ^ 35 + code * 2 ^ 29 + die * 2 ^ 26 + s.tick.toNat % 2 ^ 25 * 2)
  let s1 := if BitVec'.at' s.h.sd.g.err 0 then s else s.updSdRegs fun g => { g with err := w }
  let byDie := code = 1 ∨ code = 2
  s1.logErr 0o25 (if byDie then 2 else 0) (if byDie then die else 0) (¬ byDie) 0 0 w 0

/-- CORE_ID (R150). -/
def State.coreIdWord (s : State) (c : Nat) : Word :=
  let p := match s.partOf c with
    | some p => p.val
    | none => 0
  BitVec.ofNat 36 (p * 512 + coreDie c * 64 + coreCluster c % 8 * 8 + coreIndex c)

/-- A special register as MFS reads it (R150). -/
def State.special (s : State) (c n : Nat) : Word := (s.regs c).special (s.coreIdWord c) n

/-! ### Code store and fetch (R146, R154, R155, R196) -/

/-- The syllable at address a of the cluster's code store; none at 262,144 or above (R146). -/
def State.codeAt (s : State) (cl a : Nat) : Option Syll :=
  if a < 262144 then some (Sparse.get 0 (s.cluster cl).code a) else none

/-- Syllables from address a, at most n, from the loop buffer or the store. -/
def State.fetchRun (s : State) (cl : Nat) (buf : List (Nat × Syll)) (a : Nat) : Nat → List Syll
  | 0 => []
  | n + 1 =>
    match buf.find? (fun e => e.1 = a), s.codeAt cl a with
    | some e, some _ => e.2 :: s.fetchRun cl buf (a + 1) n
    | none, some w => w :: s.fetchRun cl buf (a + 1) n
    | _, none => []

/-- The loop buffer is invalidated (R158). -/
def Core.dropBuf (k : Core) : Core := { k with loopBuf := [], bufStale := false }

/-- The core's queue refilled from a new address (R154). -/
def State.refill (s : State) (c : Nat) (k : Core) (pc : Nat) : Core :=
  { k with pc := pc, fetchQ := s.fetchRun (coreCluster c) k.loopBuf pc 6 }

/-- The core's queue after an instruction of n syllables that does not branch: what it already holds keeps the form in
which it was fetched (R155). -/
def State.advance (s : State) (c : Nat) (k : Core) (n : Nat) : Core :=
  let held := k.fetchQ.drop n
  { k with
    pc := k.pc + n,
    fetchQ := held ++ s.fetchRun (coreCluster c) k.loopBuf (k.pc + n + held.length) (6 - held.length) }

/-! ### Interrupts (R172, R174, R175) -/

/-- USED of a queue (R348). -/
def Queue.used (q : Queue) : Nat := (q.wptr + 2 ^ (q.size + 1) - q.rptr) % 2 ^ (q.size + 1)

/-- Character of the queue RAM at which pointer value v selects its word (R349). -/
def Queue.addr (q : Queue) (v : Nat) : Nat := 64 * q.base + 4 * (v % 2 ^ q.size)

/-- A word of queue RAM. -/
def qWord (ram : Sparse Chr) (a : Nat) : Word := Word.ofChars (Sparse.getList 0 ram a 4)
def qSetWord (ram : Sparse Chr) (a : Nat) (w : Word) : Sparse Chr := Sparse.setList 0 ram a w.chars

/-- The pending marker (R350). -/
def pendingMarker : Word := BitVec.allOnes 36

/-- The queue condition (R356). -/
def Queue.condition (q : Queue) (ram : Sparse Chr) : Bool :=
  if !q.en then false
  else if q.kind = 1 then
    decide (q.wptr ≠ q.rptr) && decide (qWord ram (q.addr q.rptr) ≠ pendingMarker) && decide (max q.thresh 1 ≤ q.used)
  else if q.kind = 2 then decide (q.thresh ≠ 0) && decide (q.thresh + q.used ≤ 2 ^ q.size)
  else false

/-- Queue q of partition p on die d. -/
def State.queue (s : State) (d p q : Nat) : Queue := Sparse.get Queue.reset (s.die d).queues (8 * p + q)
def State.setQueue (s : State) (d p q : Nat) (v : Queue) : State :=
  s.updDie d fun e => { e with queues := Sparse.set Queue.reset e.queues (8 * p + q) v }
def State.updQueue (s : State) (d p q : Nat) (f : Queue → Queue) : State := s.setQueue d p q (f (s.queue d p q))

/-- A queue of die d holds INT_QUEUE set in core c (R356). -/
def State.queueHolds (s : State) (c : Nat) : Bool :=
  (List.range 8).any fun d => (s.die d).queues.any fun e =>
    e.2.cen && decide (e.2.die = coreDie c) && decide (e.2.cluster = coreCluster c % 8) &&
      e.2.cores.getMsbD (coreIndex c) && e.2.condition (s.die d).qram &&
      decide ((s.partOf c).map Fin.val = some (e.1 / 8))

/-- Sets an interrupt's bit in IPEND (R174). -/
def State.interrupt (s : State) (c : Nat) (i : Item) : State :=
  s.updCore c fun k => k.updSp fun p => { p with ipend := BitVec'.setAt p.ipend i.position true }

/-- The cycle after a DOORBELL of core c to itself has begun (R219). -/
def State.rung (s : State) (c : Nat) : State := if (s.core c).bell then s.updCore c fun k => { k with bell := false } else s

/-! ### Domains off, retirement, CATACLYSM (R173, R391, R460) -/

/-- A cluster's domain is switched off: its cores, code store and scratch lose every value (R458, R460). -/
def State.clusterOff (s : State) (cl : Nat) : State :=
  let s1 := iter 8 (fun k x => x.setCore (8 * cl + k) Core.reset) s
  let s2 := s1.updCluster cl fun x => { Cluster.reset with part := x.part, retired := x.retired }
  let i := 13 * (cl / 8) + cl % 8
  s2.updPwr fun p => { p with domains := p.domains &&& ~~~(1#128 <<< i) }

/-- The transaction that a core holds is left to its Curfew (R173). -/
def State.dropTxn (s : State) (c : Nat) : State :=
  match (s.core c).txn with
  | none => s
  | some n => (s.updSlot (coreDie c) n fun x => { x with core := none }).updCore c fun k => { k with txn := none }

/-- The hub retires a cluster (R391); reason 1 hub, 2 host. -/
def State.retire (s : State) (cl reason : Nat) : State :=
  let s1 := iter 8 (fun k x => x.dropTxn (8 * cl + k)) s
  let s2 := (s1.updCluster cl fun x => { x with retired := true }).clusterOff cl
  s2.logErr 0o21 0 (cl / 8) false (match (s.cluster cl).part with | some p => p.val | none => 0) (cl % 8 * 8)
    (BitVec.ofNat 36 cl) (BitVec.ofNat 36 reason)

/-- CATACLYSM (R173, R185). -/
def State.cataclysm (s : State) (c reason code : Nat) : State :=
  let k := s.core c
  let rec_ : Word := BitVec.ofNat 36 (((8 + reason) * 64 + code) * 2 ^ 26 + k.pc % 2 ^ 18)
  let s1 := (s.dropTxn c).updCore c fun k => { k with halted := true, haltRec := rec_, cur := none, alarm := k.alarm }
  let p := match s.partOf c with
    | some p => p.val
    | none => 0
  let s2 := s1.logErr 0o20 (if reason = 4 ∨ reason = 5 then 2 else 0) (coreDie c) false p
    (coreCluster c % 8 * 8 + coreIndex c) rec_ 0
  if reason = 4 ∨ reason = 5 then s2.retire (coreCluster c) 1 else s2

/-! ### Taking an entry (R168 to R172) -/

/-- SHADOW of an entry (R161). -/
def CoreRegs.shadowLeft (r : CoreRegs) : Nat :=
  match r.shadow with
  | some h => h.left
  | none => 0

/-- CAUSE or CAUSE1 of an entry (R151). -/
def CoreRegs.causeWord (r : CoreRegs) (cause : Cause) (async : Bool) (need : Nat) : Word :=
  BitVec.ofNat 36 (((((cause.code * 4 + r.shadowLeft) * 2 + bit r.ctl.lact) * 2 + bit r.ctl.sres) * 2 + bit async) * 2 ^ 25 + need)

/-- SAVEMODE of an entry that falls in a shadow (R161). -/
def Shadow.record (h : Shadow) : Word :=
  BitVec.ofNat 36 (h.which.toNat * 2 ^ 34 + (if h.which = 3 then 0 else h.old.toNat % 2 ^ 24))

/-- A level-0 entry (R170). The resume address is epc. -/
def State.levelZero (s : State) (c : Nat) (cause : Cause) (epc faddr : Nat) (async : Bool) : State :=
  let k := s.core c
  let r := k.r
  let sp : Special :=
    { r.sp with
      cause := r.causeWord cause async 0,
      epc := BitVec.ofNat 36 (epc % 2 ^ 18),
      faddr := BitVec.ofNat 36 faddr,
      savemode := (match r.shadow with | some h => h.record | none => r.sp.savemode) }
  let r1 : CoreRegs := { r with sp := sp, ctl := { r.ctl with lact := false, sres := false, exl := true }, shadow := none }
  let r2 := match r.shadow with
    | some h => if h.which = 3 then r1.setCap 10 h.oldKc else r1
    | none => r1
  let k1 := ({ k with r := r2.swapSets, cur := none }.dropBuf).count (·.addCycles 12)
  s.setCore c (s.refill c k1 (r.sp.excEntry.toNat % 2 ^ 18))

/-- A level-1 entry (R169). -/
def State.levelOne (s : State) (c : Nat) (cause : Cause) (epc : Nat) (async : Bool) (need : Nat) : State :=
  let k := s.core c
  let r := k.r
  let sp : Special :=
    { r.sp with
      cause1 := r.causeWord cause async need,
      epc1 := BitVec.ofNat 36 (epc % 2 ^ 18),
      savemode1 := (match r.shadow with | some h => h.record | none => r.sp.savemode1) }
  let r1 : CoreRegs := { r with sp := sp, ctl := { r.ctl with lact := false, sres := false, bk1 := true }, shadow := none }
  let r2 := match r.shadow with
    | some h => if h.which = 3 then r1.setCap 11 h.oldKc else r1
    | none => r1
  let k1 := ({ k with r := r2, cur := none }.dropBuf).count (·.addCycles 12)
  s.setCore c (s.refill c k1 (r.sp.excEntry.toNat % 2 ^ 18))

/-- A synchronous exception of the instruction at pc (R172, R173). -/
def State.raise (s : State) (c : Nat) (cause : Cause) (faddr : Nat) : State :=
  let k := s.core c
  if k.r.ctl.bk1 then s.cataclysm c 2 cause.code
  else if k.r.ctl.exl then s.cataclysm c 3 cause.code
  else s.levelZero c cause k.pc faddr false

/-- A frame trap of the instruction at pc (R165, R172, R173). -/
def State.trap (s : State) (c : Nat) (cause : Cause) (need : Nat) : State :=
  let k := s.core c
  if k.r.ctl.bk1 then s.cataclysm c 1 cause.code else s.levelOne c cause k.pc false need

/-- The entry for a takeable item at an instruction boundary (R174, R175). -/
def State.takeItem (s : State) (c : Nat) (i : Item) : State :=
  let k := s.core c
  match i with
  | .target =>
    (s.setCore c { k with tvPend := none }).levelZero c .targetViolation k.pc
      (match k.tvPend with | some a => a.toNat | none => 0) true
  | .float => (s.setCore c { k with u := { k.u with ftPend := false } }).levelZero c .floatTrap k.pc 0 true
  | _ =>
    let keep := decide (i = .queue) && s.queueHolds c
    let s1 := s.setCore c (k.updSp fun p => { p with ipend := BitVec'.setAt p.ipend i.position keep })
    if i.prompt then s1.levelOne c i.cause k.pc true 0 else s1.levelZero c i.cause k.pc 0 true

/-- The shadow that a return reinstates from CAUSE, SAVEMODE and SKC, or their level-1 forms (R161, R171). What a handler left in
SAVEMODE is taken as it is: DESIGN CHOICE, log entry 69. -/
def shadowOf (cause savemode : Word) (skc : Cap) : Option Shadow :=
  let n := min (BitVec'.pos cause 6 2).toNat 2
  if n = 0 then none
  else some { left := n, which := BitVec'.pos savemode 0 2, old := BitVec.ofNat 36 (savemode.toNat % 2 ^ 24), oldKc := skc }

/-- The register effect of ERET after its checks (R171). -/
def CoreRegs.eret (r : CoreRegs) : CoreRegs :=
  let r1 := { r with
    ctl := { r.ctl with exl := false, lact := BitVec'.at' r.sp.cause 8, sres := BitVec'.at' r.sp.cause 9 },
    shadow := shadowOf r.sp.cause r.sp.savemode (r.cap 10) }
  r1.swapSets

/-- The register effect of PRET after its check (R171). -/
def CoreRegs.pret (r : CoreRegs) : CoreRegs :=
  { r with
    ctl := { r.ctl with bk1 := false, lact := BitVec'.at' r.sp.cause1 8, sres := BitVec'.at' r.sp.cause1 9 },
    shadow := shadowOf r.sp.cause1 r.sp.savemode1 (r.cap 11) }

/-! ### One instruction (R141, R154 to R163, R175, R196) -/

/-- What an instruction's own part does once it has begun. -/
inductive Act where
  /-- a synchronous exception, nothing performed -/
  | fault (cause : Cause) (faddr : Nat)
  /-- the same after a change of state (a scratch line poisoned, an interruption state written) -/
  | stop (s : State) (cause : Cause) (faddr : Nat)
  /-- a frame trap -/
  | trap (cause : Cause) (need : Nat)
  /-- complete: the state, the branch target if a branch is taken, the cycle count -/
  | done (s : State) (next : Option Nat) (cc : Nat)
  /-- access id has been sent and is awaited, with this progress -/
  | await (s : State) (cur : Cur) (id : Nat)
  /-- the walker is asked for the translation of va -/
  | walk (s : State) (cur : Cur) (va : Nat)
  /-- the gate has been asked -/
  | gate (s : State) (cur : Cur)
  /-- a wait in far wait with nothing sent; soft: an interrupt may abandon it -/
  | wait (s : State) (cur : Cur) (soft : Bool)
  /-- the idle wait of TXN.NEXT -/
  | idle
  /-- a wait for the floating-point unit within the instruction (R279) -/
  | unitWait (cur : Cur)
  /-- a correctable error of its operands has been corrected: the instruction goes on at its next command -/
  | again (s : State) (cur : Cur)
  /-- a string instruction interrupted at a unit boundary: its state is written (R250) -/
  | pause (s : State) (cc : Nat)

/-- An instruction that begins. -/
def Cur.begin (i : Instr) : Cur :=
  { instr := i, prog := .zero, begun := false, resumed := false, cost := 0, rounds := [], post := none, acc := none, walk := none,
    gate := false, soft := false, xlat := [] }

/-- Nothing is awaited: the instruction waits by itself. -/
def Cur.retrying (x : Cur) : Bool := x.acc.isNone && x.walk.isNone && !x.gate

/-- The instruction at pc is the one at LEND of an active loop: the test of R156 is made at its end and adds 1 cc (R213). -/
def Core.atLoopEnd (k : Core) : Bool := k.r.ctl.lact && decide (k.r.sp.lend.toNat % 2 ^ 18 = k.pc)

/-- Cycles of an instruction of cc that does not branch, the loop test included (R213). -/
def Core.withTest (k : Core) (cc : Nat) : Nat := cc + bit k.atLoopEnd

/-- MTS LCOUNT: what it writes takes effect after the test of R156 at its own end (R215). -/
def writesLcount : Instr → Bool
  | .mts _ n _ => decide (n.toNat = 13)
  | _ => false

/-- The loop buffer after a loop-back to start of a body of size syllables: filled at the end of the first iteration, emptied
where a write to the code store has invalidated it (R155, R158). -/
def State.loopFill (s : State) (c : Nat) (k : Core) (start size : Nat) : List (Nat × Syll) :=
  if !(k.r.govLben && decide (start ≤ k.pc) && decide (size ≤ 24)) || k.bufStale then []
  else if k.loopBuf ≠ [] then k.loopBuf
  else (List.range size).zip (s.fetchRun (coreCluster c) [] start size) |>.map fun e => (start + e.1, e.2)

/-- The loop test of R156 and the next address, for an instruction at pc of n syllables that did not branch. The test uses
LSTART, LEND and LCOUNT as they were before the instruction (R215). -/
def State.loopEnd (s0 s : State) (c : Nat) (k : Core) (i : Instr) (n : Nat) : Core :=
  let k0 := s0.core c
  let sp := k0.r.sp
  if !(k0.atLoopEnd && k.r.ctl.lact) then s0.advance c k n
  else
    let k1 := k.count (·.addCycles 1)
    let setCount (v : Word) : Core := if writesLcount i then k1 else k1.updSp fun p => { p with lcount := v }
    if sp.lcount.toNat > 1 then
      let start := sp.lstart.toNat % 2 ^ 18
      let k2 := { setCount (sp.lcount - 1) with loopBuf := s.loopFill c k start (k.pc + n - start), bufStale := false }
      s.refill c k2 start
    else s0.advance c (((setCount 0).updCtl fun t => { t with lact := false }).dropBuf) n

/-- The end of an instruction: loop test, shadow, counters, next address and fetch queue. s0 is the state before it. -/
def State.finish (s0 s : State) (c : Nat) (i : Instr) (next : Option Nat) (cc : Nat) : State :=
  let r0 := (s0.core c).r
  let k := s.core c
  let k1 := { k.count (·.addCycles cc) with cur := none }
  let k2 := match r0.shadow with
    | none => k1
    | some h => k1.updR fun r => { r with shadow := if h.left ≤ 1 then none else some { h with left := h.left - 1 } }
  s.setCore c <| match next with
    | none => s0.loopEnd s c k2 i (encode i).length
    | some t =>
      let sp := k2.r.sp
      let inside := decide (sp.lstart.toNat ≤ t) && decide (t ≤ sp.lend.toNat) && k2.r.ctl.lact
      s.refill c (if inside then k2 else k2.dropBuf) t

/-- Takes up what the instruction's own part answers. -/
def State.settle (s : State) (c : Nat) (i : Instr) (a : Act) : State :=
  match a with
  | .fault cause faddr => s.raise c cause faddr
  | .stop s' cause faddr => s'.raise c cause faddr
  | .trap cause need => s.trap c cause need
  | .done s' next cc => s.finish s' c i next cc
  | .await s' cur id => s'.updCore c fun k => { k with cur := some { cur with acc := some id, walk := none, gate := false } }
  | .walk s' cur va =>
    if hc : c < 512 then
      let s1 := s'.updCluster (coreCluster c) fun x => { x with walks := x.walks ++ [(⟨c, hc⟩, va)] }
      s1.updCore c fun k => { k with cur := some { cur with acc := none, walk := some va, gate := false } }
    else s'
  | .gate s' cur => s'.updCore c fun k => { k with cur := some { cur with acc := none, walk := none, gate := true } }
  | .wait s' cur soft => s'.updCore c fun k =>
      { k.count (·.addFar 1) with cur := some { cur with acc := none, walk := none, gate := false, soft := soft } }
  | .idle => s.updCore c fun k => k.count (·.addIdle 1)
  | .unitWait cur => s.updCore c fun k =>
      let k1 := if k.u.fp.any fun o => decide (k.r.cnt.clk < o.due) then k.count (·.addStalls 1) else k
      { k1 with cur := some { cur with acc := none, walk := none, gate := false, soft := false } }
  | .again s' cur => s'.updCore c fun k => { k with cur := some { cur with acc := none, walk := none, gate := false, soft := false } }
  | .pause s' cc => s'.updCore c fun k => { k.count (·.addCycles cc) with cur := none }

/-- What the fetch of an instruction meets (R146, R154, R196). -/
inductive Fetch where
  /-- the instruction at pc is another one -/
  | other
  | codeRange (a : Nat)
  | bounds (a : Nat)
  | damaged (a : Nat)
  | ready
  deriving DecidableEq, Repr

/-- Fetch of the syllables ws at the core's pc: CODE_RANGE first, then KC, then damage, each at the first failing
syllable; the syllables before it are those of ws. -/
def State.fetchIs (s : State) (c : Nat) (ws : List Syll) : Fetch :=
  let k := s.core c
  let n := ws.length
  let kc := k.r.govKc
  let held := k.fetchQ ++ s.fetchRun (coreCluster c) k.loopBuf (k.pc + k.fetchQ.length) (n - k.fetchQ.length)
  let bad := (List.range n).find? fun j => !(kc.read && kc.covers (k.pc + j) 1)
  if 262144 < k.pc + n then
    let j := 262144 - k.pc
    if held.take j = ws.take j then .codeRange (max k.pc 262144) else .other
  else match bad with
    | some j => if held.take j = ws.take j then .bounds (k.pc + j) else .other
    | none =>
      if held.take n ≠ ws then .other
      else match (List.range n).find? fun j => decide ((k.pc + j) / 4 ∈ (s.cluster (coreCluster c)).codeBad) with
        | some j => .damaged (k.pc + j)
        | none => .ready

/-- A corrected error in a unit of core c: an entry of SEV 1, and CE_COUNT (R382, R397). -/
def State.correctedIn (s : State) (code c unit : Nat) (w2 w3 : Word) : State :=
  let p := match s.partOf c with
    | some p => p.val
    | none => 0
  (s.logErr code 1 (coreDie c) false p unit w2 w3).updDie (coreDie c) fun e => { e with ceCount := e.ceCount + 1 }

/-- Correctable symbols that an instruction of n syllables meets: a register of the core, and the code-store units of its fetch
(REG_CE, CODE_CE). -/
def State.fetchCorrected (s : State) (c n : Nat) : State :=
  let k := s.core c
  let cl := coreCluster c
  let unit := cl % 8 * 8 + coreIndex c
  let s1 := match k.regCe with
    | some r => (s.updCore c fun k => { k with regCe := none }).correctedIn 0o12 c unit (BitVec.ofNat 36 r) 0
    | none => s
  let hit (x : Nat × Nat × Nat) : Bool := decide (k.pc / 4 ≤ x.1) && decide (4 * x.1 < k.pc + n)
  ((s1.cluster cl).codeCe.filter hit).foldl (fun y x =>
    (y.updCluster cl fun e => { e with codeCe := e.codeCe.erase x }).correctedIn 0o14 c unit (BitVec.ofNat 36 (4 * x.1))
      (paWord3 0 (eccItem x.2.1 x.2.2))) s1

/-- The core is started, powered and not halted. -/
def Core.live (k : Core) : Bool := k.running && !k.halted

/-- What stands in the way of an instruction that the core fetches, if anything; none: it may begin. -/
def State.fetchStop (s : State) (c : Nat) (f : Fetch) : Option State :=
  match f with
  | .other => some s
  | .codeRange a => some (s.raise c .codeRange a)
  | .bounds a => some (s.raise c .fetchBounds a)
  | .damaged a =>
    let p := match s.partOf c with
      | some p => p.val
      | none => 0
    some ((s.logErr 0o11 2 (coreDie c) false p (coreCluster c % 8 * 8 + coreIndex c) (BitVec.ofNat 36 a) 0).cataclysm c 4 0)
  | .ready => none

/-- ERET is legal: in a level-0 handler, bank 0, and no frame of set 1 remains (R167, R171). -/
def CoreRegs.eretOk (r : CoreRegs) : Bool :=
  r.ctl.exl && !r.ctl.bk1 && !(r.frames.any Frame.set) && decide (r.sp.fsdepth1 = 0)

/-- Mode writes and the instructions that fault in a shadow (R160); a return that is ILLEGAL faults so first (R175). -/
def hazard (r : CoreRegs) : Instr → Bool
  | .mts _ n _ => n = 8 || n = 9 || n = 10
  | .cmov _ kd _ => capKey kd = 8
  | .cclr _ kd => capKey kd = 8
  | .csetb _ kd _ _ _ => capKey kd = 8
  | .candr _ kd _ _ => capKey kd = 8
  | .csetk _ kd _ _ => capKey kd = 8
  | .call .. => true
  | .callS .. => true
  | .callr .. => true
  | .ret _ => true
  | .eret _ => r.eretOk
  | .pret _ => r.ctl.bk1
  | _ => false

end Sys2Proof.Machine
end

