-- ==== Sys2Proof/Machine/Operands.lean ====
section
/-! DEFINITION. Operands of core instructions: the registers an instruction reads or writes (R163), memory tails (R194),
the stages 1 to 6 of every memory operand (R281 to R283), translation (R298 to R304), scratch (R143, R144), and the sending
of accesses (R209, R314). -/

namespace Sys2Proof.Machine

/-! ### Registers of an instruction (R163) -/

def Tail.regs : Tail → List Reg
  | .idx _ x => [x]
  | .idxLong _ x _ => [x]
  | _ => []

/-- The registers of a long or short floating-point operand (R267). -/
def fpRegs (l : Bool) (r : Reg) : List Reg := if l then [r, Reg.next r] else [r]

/-- Registers FIRST to LAST (R211). -/
def regRange (f l : Reg) : List Reg := (List.finRange 32).filter fun n => decide (f ≤ n) && decide (n ≤ l)

/-- Registers whose mask bit of weight 2^n is set (R164). -/
def maskRegs (m : BitVec 32) : List Reg := (List.finRange 32).filter fun n => m.getLsbD n.val

/-- The registers that a string or edit instruction reads when it resumes (R250). -/
def resumeRegs (r : CoreRegs) : List Reg := if r.ctl.sres then [28, 29, 30, 31] else []

/-- Word registers that an instruction reads or writes. -/
def wordRegs (r : CoreRegs) : Instr → List Reg
  | .add _ d s | .sub _ d s | .and _ d s | .or _ d s | .mov _ d s | .home _ d s => [d, s]
  | .ldi _ d _ | .ldiL _ d _ | .addi _ d _ | .andi _ d _ | .ori _ d _ | .xori _ d _ => [d]
  | .add3 _ d s t | .sub3 _ d s t | .and3 _ d s t | .or3 _ d s t | .xor3 _ d s t | .andn _ d s t | .min _ d s t
  | .max _ d s t | .mul _ d s t | .mulh _ d s t | .mulhu _ d s t | .div _ d s t | .divu _ d s t | .rem _ d s t
  | .remu _ d s t => [d, s, t]
  | .neg _ d s | .not _ d s | .popc _ d s | .clz _ d s => [d, s]
  | .shl _ d s a | .shrl _ d s a | .shra _ d s a | .rotl _ d s a =>
    match a with
    | .imm _ => [d, s]
    | .reg t => [d, s, t]
  | .ext _ d s _ _ | .ins _ d s _ _ => [d, s]
  | .cset _ _ d a b => [d, a, b]
  | .cseti _ _ d a _ => [d, a]
  | .cmpb _ _ a b _ =>
    match b with
    | .reg b => [a, b]
    | .imm _ => [a]
  | .mfs _ d _ => [d]
  | .mts _ _ s => [s]
  | .ldc _ d t | .ldw _ d t | .stc _ d t | .stw _ d t => d :: Tail.regs t
  | .ldp _ d t | .stp _ d t => d :: Reg.next d :: Tail.regs t
  | .mac _ a _ i _ j _ _ => [a, Reg.next a, i, j]
  | .txnNext _ d => [d, Reg.next d, Reg.next (Reg.next d)]
  | .txnCommit _ s | .txnAbort _ s | .alarm _ s | .loopr _ s _ _ | .jr _ s => [s]
  | .txnRespond _ l t => l :: Tail.regs t
  | .callr _ s f l => s :: regRange f l
  | .call _ _ m => maskRegs m
  | .callS _ _ f l => regRange f l
  | .ret _ =>
    match r.frames.getLast? with
    | some f => maskRegs f.mask
    | none => []
  | .codeWr _ a s => [a, s]
  | .txnClaim _ t | .txnClaimx _ t => Tail.regs t
  | .dcas _ _ _ w t => w :: Tail.regs t
  | .dpost _ _ w _ _ | .dacc _ _ w _ _ => [w]
  | .dcmp _ d _ _ => [d]
  | .cvbd _ _ s => [s]
  | .cvbdL _ _ s => [s, Reg.next s]
  | .cvdb _ d _ => [d]
  | .cvdbL _ d _ => [d, Reg.next d]
  | .dldw _ _ _ t | .dstw _ _ _ t | .daddm _ _ _ t | .dsubm _ _ _ t | .dmulm _ _ _ t => Tail.regs t
  | .dcmpm _ d _ _ t => d :: Tail.regs t
  | .cvcd _ _ w _ x | .cvdc _ _ w _ x => [w, x]
  | .movc _ _ a _ b l => [a, b, l] ++ resumeRegs r
  | .fillc _ _ a l f => [a, l, f] ++ resumeRegs r
  | .movem _ _ a _ b l _ _ _ => [a, b, l] ++ resumeRegs r
  | .tr _ _ a _ b l _ _ => [a, b, l] ++ resumeRegs r
  | .scan _ a _ b l _ => [a, b, l] ++ resumeRegs r
  | .cmpc _ _ a _ b l => [a, b, l] ++ resumeRegs r
  | .edit _ _ _ a _ b l => [a, b, l] ++ resumeRegs r
  | .fadd _ d b l _ | .fsub _ d b l _ | .fmul _ d b l _ | .fdiv _ d b l _ | .fsqrt _ d b l _ => fpRegs l d ++ fpRegs l b
  | .fcvtsl _ d b => [d, Reg.next d, b]
  | .fcvtls _ d b _ => [d, b, Reg.next b]
  | .fcvtfi _ d b l _ => d :: fpRegs l b
  | .fcvtif _ d b l _ => b :: fpRegs l d
  | .fneg _ d b l | .fabs _ d b l => fpRegs l d ++ fpRegs l b
  | .fcmp _ d a b l => d :: (fpRegs l a ++ fpRegs l b)
  | .frec _ d _ => [d]
  | .csetb _ _ _ b l => [b, l]
  | .candr _ _ _ m => [m]
  | .csetk _ _ _ k => [k]
  | .cget _ d _ => [d, Reg.next d]
  | .cld _ _ t | .cst _ _ t | .capln _ t | .dataln _ t => Tail.regs t
  | .setkey _ s t | .getkey _ s t => s :: Tail.regs t
  | .tlbInv _ s | .tlbLock _ s | .tlbUnlk _ s => [s]
  | .tlbRd _ d s => [d, Reg.next d, s]
  | _ => []

/-- Decimal registers that an instruction reads or writes. -/
def decRegs : Instr → List DReg
  | .dadd _ x y | .dsub _ x y | .dcmp _ _ x y | .dmov _ x y | .dmul _ x y => [x, y]
  | .dneg _ x | .dabs _ x | .dclr _ x | .dshl _ x _ | .drnd _ x _ _ => [x]
  | .dmulw _ x y => [x, x + 1, y]
  | .ddiv _ x y z _ => [x, y, z]
  | .cvbd _ x _ | .cvbdL _ x _ | .cvdb _ _ x | .cvdbL _ _ x => [x]
  | .dldw _ x _ _ | .dstw _ x _ _ | .daddm _ x _ _ | .dsubm _ x _ _ | .dcmpm _ _ x _ _ | .dmulm _ x _ _ => [x]
  | .cvcd _ x _ _ _ | .cvdc _ x _ _ _ | .edit _ x _ _ _ _ _ => [x]
  | .dcas _ x y _ _ => [x, y]
  | .dpost _ x _ _ _ | .dacc _ x _ _ _ => [x]
  | _ => []

/-- Keys of word registers that a beside unit is still to write, each with the cycle from which its result is there. -/
def Beside.wPending (u : Beside) : List (Nat × Nat) :=
  u.mul.map (fun m => (m.dest, m.due)) ++ (match u.div with | some m => [(m.dest, m.due)] | none => []) ++
    u.fp.flatMap fun f => f.writes.map fun w => (w.1, f.due)

/-- Decimal registers that the decimal unit is still to write. -/
def Beside.dPending (u : Beside) : List (Nat × Nat) :=
  match u.dec with
  | some o => o.writes.map fun w => (w.1, o.due)
  | none => []

/-- The cycles from which the operations that an instruction must wait for are done: those whose destination it reads
or writes (R163), and the one that holds the unit that it starts (R162, R234, R269). MFS and MTS of DMODE do not wait for a DMUL or
DMULM that is still to set MOVF: DESIGN CHOICE, log entry 69. -/
def Core.awaited (k : Core) (i : Instr) : List Nat :=
  let ws := (wordRegs k.r i).map k.r.wKey
  let ds := (decRegs i).map Fin.val
  let onUse := ((k.u.wPending.filter fun e => decide (e.1 ∈ ws)) ++ (k.u.dPending.filter fun e => decide (e.1 ∈ ds))).map
    Prod.snd
  let unit : List Nat := match i with
    | .div .. | .divu .. | .rem .. | .remu .. => (match k.u.div with | some m => [m.due] | none => [])
    | .dmul .. | .dmulm .. | .dmulw .. | .ddiv .. => (match k.u.dec with | some o => [o.due] | none => [])
    | .fdiv .. | .fsqrt .. => (k.u.fp.filter FpOp.root).map FpOp.due
    | _ => []
  onUse ++ unit

/-- One cc of a stall on use; once every result is due, the core waits for the units' own commands. -/
def Core.stallOn (k : Core) (l : List Nat) : Core :=
  if l.any (fun d => decide (k.r.cnt.clk < d)) then k.count (·.addStalls 1) else k

/-! ### Running an instruction -/

/-- An instruction that the core begins, or its stall (R163, R175). -/
def State.start (s : State) (c : CoreId) (i : Instr) (body : Cur → State → Act) : State :=
  let k := s.core c
  match s.fetchStop c (s.fetchIs c (encode i)) with
  | some s' => s'
  | none =>
    if !i.wellFormed then (s.fetchCorrected c (encode i).length).raise c .illegal 0
    else match k.awaited i with
      | [] =>
        let s1 := s.fetchCorrected c (encode i).length
        if k.r.shadow.isSome && hazard k.r i then s1.raise c .modeHazard 0 else s1.settle c i (body (.begin i) s1)
      | l => s.setCore c (k.stallOn l)

/-- An instruction of core c as a command (R141): the core begins it when it is the instruction at its pc and no item of
R175 comes first, or tries again the instruction that waits by itself. -/
def State.instr (s : State) (c : CoreId) (i : Instr) (body : Cur → State → Act) : State :=
  let k := s.core c
  if !k.live then s
  else if k.regBad then s.cataclysm c 5 0
  else match k.cur with
    | some x => if decide (x.instr = i) && x.retrying && !(x.soft && k.takeable.isSome) then s.settle c i (body x s) else s
    | none =>
      if k.takeable.isSome || decide (s.fetchIs c (encode i) = .other) then s else (s.rung c).start c i body

/-- The instruction in progress goes on with a new answer. -/
def State.resume (s : State) (c : CoreId) (x : Cur) (body : Cur → State → Act) : State := s.settle c x.instr (body x s)

/-! ### Memory operands -/

/-- What an operand is used for (R283). -/
inductive Need where
  | load | store | post | dacc | claim | cld
  | cst (global : Bool)
  | line | setkey | getkey
  deriving DecidableEq, Repr

structure Operand where
  cap : Cap
  va : Nat
  len : Nat
  align : Nat
  need : Need
  deriving DecidableEq, Repr

/-- The address that a tail names: base plus offset, exact (R194). -/
def Tail.cap (r : CoreRegs) : Tail → Cap
  | .off k _ => r.cap k.val
  | .offLong k _ => r.cap k.val
  | .idx k _ => r.cap k.val
  | .idxLong k _ _ => r.cap k.val
def Tail.offset (r : CoreRegs) : Tail → Nat
  | .off _ o => o.toNat
  | .offLong _ o => o.toNat
  | .idx _ x => (r.wr x).toNat
  | .idxLong _ x d => (r.wr x).toNat + d.toNat
def Tail.va (r : CoreRegs) (t : Tail) : Nat := (Tail.cap r t).base + Tail.offset r t
/-- The index form adds 1 cc (R190). -/
def Tail.cc : Tail → Nat
  | .idx _ _ => 1
  | .idxLong _ _ _ => 1
  | _ => 0
def Tail.operand (r : CoreRegs) (t : Tail) (len align : Nat) (need : Need) : Operand :=
  { cap := Tail.cap r t, va := Tail.va r t, len := len, align := align, need := need }

/-- Word offset of format P as a character offset (R192). -/
def PostOff.chars : PostOff → Nat
  | .short w => 4 * w.toNat
  | .long w => 4 * w.toNat

/-- First character of the scratch window (R143). -/
def scratchBase : Nat := 68652367872
def inScratch (va : Nat) : Bool := decide (scratchBase ≤ va)

/-- Stage 2 (R283, R286, R296). -/
def Operand.rights (o : Operand) : Bool :=
  match o.need with
  | .load => o.cap.read
  | .store => o.cap.write
  | .post => o.cap.post
  | .dacc => o.cap.post
  | .claim => o.cap.post || o.cap.write
  | .cld => o.cap.read && o.cap.capload
  | .cst g => o.cap.write && o.cap.capstore && (g || inScratch o.va)
  | .line => o.cap.write && o.cap.capstore
  | .setkey => o.cap.write && o.cap.key = 0
  | .getkey => o.cap.read

/-- Stage 5's page permissions (R283). -/
def TlbEntry.permits (e : TlbEntry) : Need → Bool
  | .load => e.rd
  | .store => e.wr
  | .post => e.pst
  | .dacc => e.pst
  | .claim => true
  | .cld => e.rd && e.cp
  | .cst _ => e.wr && e.cp
  | .line => e.wr && e.cp
  | .setkey => e.wr
  | .getkey => e.rd

/-- The entry maps va (R304). -/
def TlbEntry.maps (e : TlbEntry) (va : Nat) : Bool :=
  e.v && (if e.lg then decide (e.vpn.toNat / 2 ^ 8 = va / 2 ^ 24) else decide (e.vpn.toNat = va / 2 ^ 16))

/-- Physical address under an entry (R301). -/
def TlbEntry.phys (e : TlbEntry) (va : Nat) : Nat :=
  if e.lg then e.frame.toNat / 2 ^ 8 * 2 ^ 24 + va % 2 ^ 24 else e.frame.toNat * 2 ^ 16 + va % 2 ^ 16

/-- Number of the entry that the access hits, the lowest of those that match (R304). -/
def Core.tlbHit (k : Core) (va : Nat) : Option Nat :=
  (List.range 32).find? fun n => (Sparse.get TlbEntry.reset k.tlb n).maps va

/-- The translation that the core holds for va: its TLB's, unless marked for refill, or the one that a walk of this
instruction has returned. -/
def Core.translate (k : Core) (xlat : List TlbEntry) (va : Nat) : Option TlbEntry :=
  let walked := xlat.find? (·.maps va)
  match k.tlbHit va with
  | some n =>
    let e := Sparse.get TlbEntry.reset k.tlb n
    if e.rf then walked else some e
  | none => walked

/-- Cut points of an operand: the two parts of a split word (R54) and the line parts (R238, R282). -/
def cutParts : Nat → Nat → Nat → List (Nat × Nat)
  | 0, _, _ => []
  | fuel + 1, va, len =>
    let n := min len (64 - va % 64)
    if len = 0 then [] else (va, n) :: cutParts fuel (va + n) (len - n)

/-- An unaligned word is split in two by hardware (R54). A run of characters has align 0. -/
def Operand.split (o : Operand) : Bool := decide (o.len = 4) && decide (o.align = 1) && decide (o.va % 4 ≠ 0)

/-- Operands that stage 3 checks as a whole: a run of characters, and the record of a claim entry (R115, R281). The parts of
R282 are checked one by one. -/
def Operand.atOnce (o : Operand) : Bool := decide (o.align = 0) || decide (o.need = .claim)

def Operand.parts (o : Operand) : List (Nat × Nat) :=
  if o.split then [(o.va, 4 - o.va % 4), (o.va + (4 - o.va % 4), o.va % 4)] else cutParts (o.len / 64 + 2) o.va o.len

/-- What the checks of a part answer. -/
inductive PartChk where
  | ok (p : AccPart) (e : Option TlbEntry)
  | fault (cause : Cause) (faddr : Nat)
  | walk (va : Nat)
  deriving DecidableEq, Repr

/-- Die and line of a space 0 address as partition p reaches it from die d (R57, R61). -/
def State.target (s : State) (p d pa : Nat) : Option (Nat × Nat) :=
  (s.copyDie p d (pa / 2 ^ 34 % 8)).map fun t => (t, pa / 64 % 2 ^ 28)

/-- The slot that the core's transaction holds. -/
def State.coreSlot (s : State) (c : Nat) : Option Slot :=
  match (s.core c).txn with
  | some n => some (s.slot (coreDie c) n)
  | none => none

/-- The transaction's claim that covers a line (R115). -/
def Slot.claimOf (v : Slot) (d l : Nat) : Option ClaimReg :=
  if v.st = .aborted then none else v.claims.find? fun q => decide (q.die = d) && decide (l ∈ q.lines)

/-- The core's claim on the line of a space 0 address (R121). -/
def State.claimAt (s : State) (c pa : Nat) : Option ClaimReg :=
  match s.coreSlot c, s.partOf c with
  | some v, some p => if pa < 2 ^ 37 then (s.target p.val (coreDie c) pa).bind fun t => v.claimOf t.1 t.2 else none
  | _, _ => none

/-- The core's transaction has been aborted and not yet resolved by the core (R131). -/
def State.txnAborted (s : State) (c : Nat) : Bool :=
  match s.coreSlot c with
  | some v => v.st = .aborted
  | none => false

/-- Stage 6: region kind and claims (R113, R143, R293, R296, R304). An ordinary store or SETKEY to an unclaimed ledger
line faults with CLAIM_MISSING: DESIGN CHOICE, log entry 9. -/
def State.stageSix (s : State) (c : Nat) (need : Need) (kind pa : Nat) : Option Cause :=
  let claimed := (s.claimAt c pa).isSome || s.txnAborted c
  match need with
  | .store => if kind = 2 then some .regionKind else if kind = 1 ∧ ¬ claimed then some .claimMissing else none
  | .post => if kind ≠ 1 then some .regionKind else if ¬ claimed then some .claimMissing else none
  | .dacc => if kind ≠ 2 then some .regionKind else none
  | .claim => if kind ≠ 1 then some .claimRegion else none
  | .cst _ => if kind = 2 then some .regionKind else none
  | .line => if kind = 1 ∨ kind = 2 then some .regionKind else none
  | .setkey => if kind = 2 then some .regionKind else if kind = 1 ∧ ¬ claimed then some .claimMissing else none
  | _ => none

/-- A store that reaches a ledger line while the core's transaction stands aborted: it will be discarded (R131). -/
def State.voidStore (s : State) (c : Nat) (need : Need) (kind pa : Nat) : Bool :=
  let store : Bool := match need with
    | .store | .setkey | .cst _ => true
    | _ => false
  store && decide (kind = 1) && (s.claimAt c pa).isNone && s.txnAborted c

/-- The first character of va to va + len − 1 outside the bounds (R152). -/
def Cap.firstOut (k : Cap) (va : Nat) : Nat := if va < k.base then va else max va k.top

/-- Stages 3 to 6 of one part (R281). -/
def State.checkPart (s : State) (c : Nat) (xlat : List TlbEntry) (o : Operand) (va len : Nat) : PartChk :=
  let whole := decide (va = o.va) && decide (len = o.len)
  if !o.cap.covers va len then .fault .capBounds (if o.split then va else o.cap.firstOut va)
  else if inScratch va then
    let off := va - scratchBase
    if 262144 < off + len then .fault .scratchRange (if o.split then va else max va (scratchBase + 262144))
    else match o.need with
      | .post => .fault .regionKind va
      | .dacc => .fault .regionKind va
      | .setkey => .fault .regionKind va
      | .claim => .fault .claimRegion va
      | _ => .ok { va := va, pa := off, len := len, scratch := true, whole := whole, claimed := false, void := false, key := 0,
                   sys := false, data := [], bank := false, slot := 127, cleared := false, refused := none, resp := none } none
  else match (s.core c).translate xlat va with
    | none => .walk va
    | some e =>
      if !e.permits o.need then .fault .pageProtect va
      else
        let pa := e.phys va
        match s.stageSix c o.need e.kind.toNat pa with
        | some cause => .fault cause va
        | none => .ok { va := va, pa := pa, len := len, scratch := false, whole := whole, claimed := (s.claimAt c pa).isSome,
                        void := s.voidStore c o.need e.kind.toNat pa, key := o.cap.key, sys := o.cap.sys, data := [],
                        bank := false, slot := 127, cleared := false, refused := none, resp := none } (some e)

/-- What the checks of operands answer. -/
inductive OperChk where
  | ok (l : List (AccPart × Option TlbEntry))
  | fault (cause : Cause) (faddr : Nat)
  | walk (va : Nat)
  deriving DecidableEq, Repr

/-- Parts from the lowest address (R282). -/
def State.checkParts (s : State) (c : Nat) (xlat : List TlbEntry) (o : Operand) : List (Nat × Nat) → OperChk
  | [] => .ok []
  | (va, len) :: ps =>
    match s.checkPart c xlat o va len with
    | .fault cause a => .fault cause a
    | .walk a => .walk a
    | .ok p e =>
      match s.checkParts c xlat o ps with
      | .ok l => .ok ((p, e) :: l)
      | r => r

/-- Stages 1 to 6 of one operand (R281). -/
def State.checkOperand (s : State) (c : Nat) (xlat : List TlbEntry) (o : Operand) : OperChk :=
  if 1 < o.align ∧ o.va % o.align ≠ 0 then .fault .alignment o.va
  else if !o.rights then .fault .capRights o.va
  else if o.atOnce && !o.cap.covers o.va o.len then .fault .capBounds (o.cap.firstOut o.va)
  else s.checkParts c xlat o o.parts

/-- Operands in the order of the listing (R175). -/
def State.checkOperands (s : State) (c : Nat) (xlat : List TlbEntry) : List Operand → OperChk
  | [] => .ok []
  | o :: os =>
    match s.checkOperand c xlat o with
    | .ok l =>
      match s.checkOperands c xlat os with
      | .ok m => .ok (l ++ m)
      | r => r
    | r => r

/-! ### Scratch (R143, R144) -/

def State.scratchRead (s : State) (cl off n : Nat) : List Chr := Sparse.getList 0 (s.cluster cl).scratch off n
def State.scratchWrite (s : State) (cl off : Nat) (l : List Chr) : State :=
  s.updCluster cl fun x => { x with scratch := Sparse.setList 0 x.scratch off l }
def State.scratchInfo (s : State) (cl line : Nat) : LineMeta := Sparse.get LineMeta.reset (s.cluster cl).scratchMeta line
def State.setScratchInfo (s : State) (cl line : Nat) (m : LineMeta) : State :=
  s.updCluster cl fun x => { x with scratchMeta := Sparse.set LineMeta.reset x.scratchMeta line m }

/-- A correctable symbol of the scratch line that core c reaches at offset a: SCRATCH_CE, and the line is written back (R382). -/
def State.scratchCorrected (s : State) (c a : Nat) : State :=
  let cl := coreCluster c
  match (s.cluster cl).scratchCe.find? fun x => decide (x.1 = a / 64) with
  | some x =>
    (s.updCluster cl fun e => { e with scratchCe := e.scratchCe.erase x }).correctedIn 0o13 c (cl % 8 * 8)
      (BitVec.ofNat 36 a) (paWord3 0 (eccItem x.2.1 x.2.2))
  | none => s

/-- Stage 8 in scratch for a part: an error not yet found poisons the line (R143), then the line's state. -/
def State.scratchCheck (s : State) (c : Nat) (need : Need) (p : AccPart) : State × Option Cause :=
  let cl := coreCluster c
  let line := p.pa / 64
  let info := s.scratchInfo cl line
  match need with
  | .line => (s, none)
  | .getkey => (s, none)
  | _ =>
    if info.poison then (s, some .linePoison)
    else if line ∈ (s.cluster cl).scratchBad then
      let s1 := s.setScratchInfo cl line { info with poison := true }
      let part := match s.partOf c with
        | some q => q.val
        | none => 0
      (s1.logErr 0o10 2 (coreDie c) false part (cl % 8 * 8) (BitVec.ofNat 36 p.pa) 0, some .linePoison)
    else
      let s1 := s.scratchCorrected c p.pa
      match need with
      | .store => (s1, if info.capline then some .caplineStore else none)
      | .cld => (s1, if info.capline then none else some .capFormat)
      | .cst _ => (s1, if info.capline then none else some .capFormat)
      | _ => (s1, none)

/-- The scratch parts of an access, from the first; the first failure decides. -/
def State.scratchChecks (s : State) (c : Nat) (need : Need) : List AccPart → State × Option (Cause × Nat)
  | [] => (s, none)
  | p :: ps =>
    if p.scratch then
      match s.scratchCheck c need p with
      | (s', some cause) => (s', some (cause, p.va))
      | (s', none) => s'.scratchChecks c need ps
    else s.scratchChecks c need ps

/-- The scratch part whose check has failed lies after a part that its gate is still to answer: that one is reported first
(R282). -/
def deferred (parts : List AccPart) (va : Nat) : Bool :=
  (parts.takeWhile fun q => !(q.scratch && decide (q.va = va))).any fun q => !q.scratch

/-- The parts with the failure of the scratch part at va kept for its turn. -/
def keepFailure (parts : List AccPart) (cause : Cause) (va : Nat) : List AccPart :=
  parts.map fun q => if q.scratch && decide (q.va = va) then { q with refused := some cause } else q

/-! ### Sending accesses -/

/-- The space of a physical address (R57). -/
def spaceOf (pa : Nat) : Nat := pa / 2 ^ 37

/-- Loads, CLD and GETKEY. -/
def AccOp.isRead : AccOp → Bool
  | .read => true
  | .cld => true
  | .getkey => true
  | _ => false

/-- The die of the core holds new unclaimed reads of its partition (R93), and the access carries one. -/
def State.holdsRead (s : State) (c : Nat) (op : AccOp) (parts : List AccPart) : Bool :=
  match s.partOf c with
  | some p =>
    op.isRead && (Sparse.get none (s.die (coreDie c)).o.holding p.val).isSome &&
      parts.any fun q => !q.scratch && !q.claimed && decide (spaceOf q.pa = 0)
  | none => false

/-- Sends an access of core c. -/
def State.send (s : State) (c : CoreId) (op : AccOp) (posted : Bool) (parts : List AccPart) : State :=
  match s.partOf c with
  | none => s
  | some p =>
    let a : Access :=
      { id := s.nextId, core := c, op := op, part := p, posted := posted, slot := (s.core c).txn, parts := parts,
        arrival := 0, held := s.holdsRead c op parts, waited := false, st := .sent }
    { s with accesses := s.accesses ++ [a], nextId := s.nextId + 1 }

/-- A part on a claimed line that is not yet granted: the access waits (R121). -/
def State.ungranted (s : State) (c : Nat) (parts : List AccPart) : Bool :=
  parts.any fun q => q.claimed && (match s.claimAt c q.pa with | some r => !r.granted | none => false)

/-- KEY, CAPLINE and POISON as GETKEY returns them in positions 28:33 (R297). -/
def LineMeta.char (m : LineMeta) (key : BitVec 4) : Chr := BitVec.ofNat 9 ((m.key.getD key).toNat * 16 + bit m.capline * 8 + bit m.poison * 4)

/-- The same of a scratch line, whose KEY reads 0 (R297). -/
def LineMeta.scratchChar (m : LineMeta) : Chr := { m with key := some 0 }.char 0

/-- Reads operands in one round (R207, R208, R210): scratch parts at once, the others by one access; the characters of all
operands in order, or what the instruction meets or waits for. Round n follows rounds 0 to n − 1. -/
def State.tryRead (s : State) (c : CoreId) (cur : Cur) (n : Nat) (os : List Operand) : Except Act (Cur × List Chr) :=
  match cur.rounds[n]? with
  | some l => .ok (cur, l)
  | none =>
    match s.checkOperands c cur.xlat os with
    | .fault cause a => .error (.fault cause a)
    | .walk va => .error (.walk s cur va)
    | .ok l =>
      let parts := l.map Prod.fst
      if s.ungranted c parts then .error (.wait s cur true)
      else
        let need := match os with
          | o :: _ => o.need
          | [] => .load
        let op := match need with
          | .cld => AccOp.cld
          | .getkey => AccOp.getkey
          | _ => AccOp.read
        match s.scratchChecks c need parts with
        | (s', some (cause, a)) =>
          if deferred parts a then .error (.await (s'.send c op false (keepFailure parts cause a)) cur s'.nextId)
          else .error (.stop s' cause a)
        | (s', none) =>
          let got := parts.map fun q =>
            if q.scratch then { q with resp := some (
              if need = .getkey then [(s'.scratchInfo (coreCluster c) (q.pa / 64)).scratchChar]
              else s'.scratchRead (coreCluster c) q.pa q.len) }
            else q
          if (s'.cluster (coreCluster c)).scratchCe.length < (s.cluster (coreCluster c)).scratchCe.length then .error (.again s' cur)
          else if got.all AccPart.scratch then
            let l := got.flatMap fun q => q.resp.getD []
            .ok ({ cur with rounds := cur.rounds ++ [l] }, l)
          else .error (.await (s'.send c op false got) cur s'.nextId)

/-- Reads operands in one round and goes on with their characters. -/
def State.reading (s : State) (c : CoreId) (cur : Cur) (n : Nat) (os : List Operand) (k : Cur → List Chr → Act) : Act :=
  match s.tryRead c cur n os with
  | .ok (cur', l) => k cur' l
  | .error a => a

/-- Gives each part its characters of the data. -/
def dealData : List AccPart → List Chr → List AccPart
  | [], _ => []
  | p :: ps, l => { p with data := l.take p.len } :: dealData ps (l.drop p.len)

/-- Stores `data` to operands (R207, R209, R314): precise when asked, when an entry has SE or CP set, or where a part lies in
scratch beside one that does not; a store in scratch is performed at once. -/
def State.tryStore (s : State) (c : CoreId) (cur : Cur) (n : Nat) (os : List Operand) (op : AccOp) (precise : Bool)
    (data : List Chr) : Except Act (Cur × State) :=
  match cur.rounds[n]? with
  | some _ => .ok (cur, s)
  | none =>
    match s.checkOperands c cur.xlat os with
    | .fault cause a => .error (.fault cause a)
    | .walk va => .error (.walk s cur va)
    | .ok l =>
      let need := match os with
        | o :: _ => o.need
        | [] => .store
      let parts := dealData (l.map Prod.fst) data
      if s.ungranted c parts then .error (.wait s cur true)
      else match s.scratchChecks c need parts with
        | (s', some (cause, a)) =>
          if deferred parts a then .error (.await (s'.send c op false (keepFailure parts cause a)) cur s'.nextId)
          else .error (.stop s' cause a)
        | (s', none) =>
          let cur' := { cur with rounds := cur.rounds ++ [[]] }
          if parts.all AccPart.scratch then
            .ok (cur', parts.foldl (fun x q => x.scratchWrite (coreCluster c) q.pa q.data) s')
          else if precise || parts.any AccPart.scratch ||
              l.any (fun e => match e.2 with | some t => t.se || t.cp | none => false) then
            .error (.await (s'.send c op false parts) cur s'.nextId)
          else .ok (cur', s'.send c op true parts)

/-- Stores `data` to operands; `fin` completes the instruction. -/
def State.storing (s : State) (c : CoreId) (cur : Cur) (n : Nat) (os : List Operand) (op : AccOp) (precise : Bool)
    (data : List Chr) (fin : Cur → State → Act) : Act :=
  match s.tryStore c cur n os op precise data with
  | .ok (cur', s') => fin cur' s'
  | .error a => a

end Sys2Proof.Machine
end

