-- ==== Sys2Proof/Machine/Integer.lean ====
section
/-! DEFINITION. The integer and logical instructions (R189, R197 to R202, R204) and the results of the binary multiply and
divide units (R162, R199). -/

namespace Sys2Proof.Machine

/-- An instruction that changes registers only and takes cc cycles. -/
def State.regOp (s : State) (c : CoreId) (i : Instr) (cc : Nat) (f : CoreRegs → CoreRegs) : Host.Outcome State Fault Refusal :=
  .next (s.instr c i fun _ t => .done (t.updR c f) none cc)

/-! ### Format R (R189) -/

def execAdd (c : CoreId) (d r : Reg) (s : State) : Host.Outcome State Fault Refusal :=
  s.regOp c (.add c d r) 2 fun x => x.setW d (x.wr d + x.wr r)
def execSub (c : CoreId) (d r : Reg) (s : State) : Host.Outcome State Fault Refusal :=
  s.regOp c (.sub c d r) 2 fun x => x.setW d (x.wr d - x.wr r)
def execAnd (c : CoreId) (d r : Reg) (s : State) : Host.Outcome State Fault Refusal :=
  s.regOp c (.and c d r) 2 fun x => x.setW d (x.wr d &&& x.wr r)
def execOr (c : CoreId) (d r : Reg) (s : State) : Host.Outcome State Fault Refusal :=
  s.regOp c (.or c d r) 2 fun x => x.setW d (x.wr d ||| x.wr r)
def execMov (c : CoreId) (d r : Reg) (s : State) : Host.Outcome State Fault Refusal :=
  s.regOp c (.mov c d r) 2 fun x => x.setW d (x.wr r)

/-! ### Immediates (R197) -/

def execLdi (c : CoreId) (d : Reg) (imm : BitVec 14) (s : State) : Host.Outcome State Fault Refusal :=
  s.regOp c (.ldi c d imm) 2 fun x => x.setW d (imm14 imm)
def execLdiL (c : CoreId) (d : Reg) (imm : Word) (s : State) : Host.Outcome State Fault Refusal :=
  s.regOp c (.ldiL c d imm) 3 fun x => x.setW d imm
def execAddi (c : CoreId) (d : Reg) (imm : BitVec 14) (s : State) : Host.Outcome State Fault Refusal :=
  s.regOp c (.addi c d imm) 2 fun x => x.setW d (x.wr d + imm14 imm)
def execAndi (c : CoreId) (d : Reg) (imm : BitVec 14) (s : State) : Host.Outcome State Fault Refusal :=
  s.regOp c (.andi c d imm) 2 fun x => x.setW d (x.wr d &&& imm14 imm)
def execOri (c : CoreId) (d : Reg) (imm : BitVec 14) (s : State) : Host.Outcome State Fault Refusal :=
  s.regOp c (.ori c d imm) 2 fun x => x.setW d (x.wr d ||| imm14 imm)
def execXori (c : CoreId) (d : Reg) (imm : BitVec 14) (s : State) : Host.Outcome State Fault Refusal :=
  s.regOp c (.xori c d imm) 2 fun x => x.setW d (x.wr d ^^^ imm14 imm)

/-! ### Three-register group (R198) -/

def execAdd3 (c : CoreId) (d a b : Reg) (s : State) : Host.Outcome State Fault Refusal :=
  s.regOp c (.add3 c d a b) 3 fun x => x.setW d (x.wr a + x.wr b)
def execSub3 (c : CoreId) (d a b : Reg) (s : State) : Host.Outcome State Fault Refusal :=
  s.regOp c (.sub3 c d a b) 3 fun x => x.setW d (x.wr a - x.wr b)
def execAnd3 (c : CoreId) (d a b : Reg) (s : State) : Host.Outcome State Fault Refusal :=
  s.regOp c (.and3 c d a b) 3 fun x => x.setW d (x.wr a &&& x.wr b)
def execOr3 (c : CoreId) (d a b : Reg) (s : State) : Host.Outcome State Fault Refusal :=
  s.regOp c (.or3 c d a b) 3 fun x => x.setW d (x.wr a ||| x.wr b)
def execXor3 (c : CoreId) (d a b : Reg) (s : State) : Host.Outcome State Fault Refusal :=
  s.regOp c (.xor3 c d a b) 3 fun x => x.setW d (x.wr a ^^^ x.wr b)
def execAndn (c : CoreId) (d a b : Reg) (s : State) : Host.Outcome State Fault Refusal :=
  s.regOp c (.andn c d a b) 3 fun x => x.setW d (x.wr a &&& ~~~x.wr b)
def execMin (c : CoreId) (d a b : Reg) (s : State) : Host.Outcome State Fault Refusal :=
  s.regOp c (.min c d a b) 3 fun x => x.setW d (if (x.wr b).slt (x.wr a) then x.wr b else x.wr a)
def execMax (c : CoreId) (d a b : Reg) (s : State) : Host.Outcome State Fault Refusal :=
  s.regOp c (.max c d a b) 3 fun x => x.setW d (if (x.wr a).slt (x.wr b) then x.wr b else x.wr a)

/-- The instruction starts the multiply unit, which writes Wd 3 cc after its end (R162, R199). -/
def State.startMul (s : State) (c : CoreId) (i : Instr) (d : Reg) (f : CoreRegs → Word) : Host.Outcome State Fault Refusal :=
  .next <| s.instr c i fun _ t =>
    .done (t.updCore c fun k =>
      { k with u := { k.u with mul := k.u.mul ++ [{ dest := k.r.wKey d, val := f k.r, due := k.r.cnt.clk + k.withTest 3 + 3 }] } }) none 3

def execMul (c : CoreId) (d a b : Reg) (s : State) : Host.Outcome State Fault Refusal :=
  s.startMul c (.mul c d a b) d fun x => x.wr a * x.wr b
def execMulh (c : CoreId) (d a b : Reg) (s : State) : Host.Outcome State Fault Refusal :=
  s.startMul c (.mulh c d a b) d fun x => Pair.hi (BitVec.ofInt 72 ((x.wr a).toInt * (x.wr b).toInt))
def execMulhu (c : CoreId) (d a b : Reg) (s : State) : Host.Outcome State Fault Refusal :=
  s.startMul c (.mulhu c d a b) d fun x => Pair.hi (BitVec.ofNat 72 ((x.wr a).toNat * (x.wr b).toNat))

/-- The instruction starts the divide unit, which writes Wd 38 cc after its end; a divisor of zero faults (R199). -/
def State.startDiv (s : State) (c : CoreId) (i : Instr) (d b : Reg) (f : CoreRegs → Word) : Host.Outcome State Fault Refusal :=
  .next <| s.instr c i fun _ t =>
    if (t.regs c).wr b = 0 then .fault .divideZero 0
    else .done (t.updCore c fun k =>
      { k with u := { k.u with div := some { dest := k.r.wKey d, val := f k.r, due := k.r.cnt.clk + k.withTest 3 + 38 } } }) none 3

def execDiv (c : CoreId) (d a b : Reg) (s : State) : Host.Outcome State Fault Refusal :=
  s.startDiv c (.div c d a b) d b fun x => BitVec.ofInt 36 ((x.wr a).toInt.tdiv (x.wr b).toInt)
def execDivu (c : CoreId) (d a b : Reg) (s : State) : Host.Outcome State Fault Refusal :=
  s.startDiv c (.divu c d a b) d b fun x => BitVec.ofNat 36 ((x.wr a).toNat / (x.wr b).toNat)
def execRem (c : CoreId) (d a b : Reg) (s : State) : Host.Outcome State Fault Refusal :=
  s.startDiv c (.rem c d a b) d b fun x => BitVec.ofInt 36 ((x.wr a).toInt.tmod (x.wr b).toInt)
def execRemu (c : CoreId) (d a b : Reg) (s : State) : Host.Outcome State Fault Refusal :=
  s.startDiv c (.remu c d a b) d b fun x => BitVec.ofNat 36 ((x.wr a).toNat % (x.wr b).toNat)

/-! ### One-operand group (R200) -/

/-- Ones of a word. -/
def onesOf (w : Word) : Nat := ((List.range 36).filter w.getLsbD).length
/-- Zeros before the first one, from position 0; 36 for zero. -/
def leadingZeros (w : Word) : Nat := ((List.range 36).find? (BitVec'.at' w)).getD 36

def execNeg (c : CoreId) (d a : Reg) (s : State) : Host.Outcome State Fault Refusal :=
  s.regOp c (.neg c d a) 3 fun x => x.setW d (-x.wr a)
def execNot (c : CoreId) (d a : Reg) (s : State) : Host.Outcome State Fault Refusal :=
  s.regOp c (.not c d a) 3 fun x => x.setW d (~~~x.wr a)
def execPopc (c : CoreId) (d a : Reg) (s : State) : Host.Outcome State Fault Refusal :=
  s.regOp c (.popc c d a) 3 fun x => x.setW d (BitVec.ofNat 36 (onesOf (x.wr a)))
def execClz (c : CoreId) (d a : Reg) (s : State) : Host.Outcome State Fault Refusal :=
  s.regOp c (.clz c d a) 3 fun x => x.setW d (BitVec.ofNat 36 (leadingZeros (x.wr a)))

/-! ### Shifts (R201) and fields (R202) -/

def ShAmt.amount (r : CoreRegs) : ShAmt → Nat
  | .imm n => n.toNat
  | .reg t => (r.wr t).toNat

def execShl (c : CoreId) (d a : Reg) (n : ShAmt) (s : State) : Host.Outcome State Fault Refusal :=
  s.regOp c (.shl c d a n) 3 fun x => x.setW d (x.wr a <<< min (ShAmt.amount x n) 36)
def execShrl (c : CoreId) (d a : Reg) (n : ShAmt) (s : State) : Host.Outcome State Fault Refusal :=
  s.regOp c (.shrl c d a n) 3 fun x => x.setW d (x.wr a >>> min (ShAmt.amount x n) 36)
def execShra (c : CoreId) (d a : Reg) (n : ShAmt) (s : State) : Host.Outcome State Fault Refusal :=
  s.regOp c (.shra c d a n) 3 fun x => x.setW d ((x.wr a).sshiftRight (min (ShAmt.amount x n) 36))
def execRotl (c : CoreId) (d a : Reg) (n : ShAmt) (s : State) : Host.Outcome State Fault Refusal :=
  s.regOp c (.rotl c d a n) 3 fun x => x.setW d ((x.wr a).rotateLeft (ShAmt.amount x n % 36))

/-- L of EXT and INS is l1 + 1. -/
def execExt (c : CoreId) (d a : Reg) (p l1 : BitVec 6) (s : State) : Host.Outcome State Fault Refusal :=
  s.regOp c (.ext c d a p l1) 4 fun x =>
    let n := l1.toNat + 1
    x.setW d (BitVec.ofNat 36 ((x.wr a).toNat / 2 ^ (36 - p.toNat - n) % 2 ^ n))
def execIns (c : CoreId) (d a : Reg) (p l1 : BitVec 6) (s : State) : Host.Outcome State Fault Refusal :=
  s.regOp c (.ins c d a p l1) 4 fun x => x.setW d (BitVec'.setPos (x.wr d) p.toNat (l1.toNat + 1) (x.wr a).toNat)

/-! ### Compare-set (R204) -/

def execCset (c : CoreId) (cc : Cond) (d a b : Reg) (s : State) : Host.Outcome State Fault Refusal :=
  s.regOp c (.cset c cc d a b) 3 fun x => x.setW d (if condHolds cc (x.wr a) (x.wr b) then 1 else 0)
def execCseti (c : CoreId) (cc : Cond) (d a : Reg) (imm : BitVec 14) (s : State) : Host.Outcome State Fault Refusal :=
  s.regOp c (.cseti c cc d a imm) 3 fun x => x.setW d (if condHolds cc (x.wr a) (imm14 imm) then 1 else 0)

/-! ### Results of the units (R162) -/

/-- The multiply unit writes its oldest result once it is due. -/
def execMultiplyResult (c : CoreId) (s : State) : Host.Outcome State Fault Refusal :=
  let k := s.core c
  match k.u.mul with
  | [] => .next s
  | o :: l =>
    if k.r.cnt.clk < o.due then .next s
    else .next (s.setCore c { k with
      r := { k.r with w := Sparse.set 0 k.r.w o.dest o.val }, u := { k.u with mul := l } })

/-- The divide unit writes its result once it is due. -/
def execDivideResult (c : CoreId) (s : State) : Host.Outcome State Fault Refusal :=
  let k := s.core c
  match k.u.div with
  | none => .next s
  | some o =>
    if k.r.cnt.clk < o.due then .next s
    else .next (s.setCore c { k with
      r := { k.r with w := Sparse.set 0 k.r.w o.dest o.val }, u := { k.u with div := none } })

end Sys2Proof.Machine
end

