-- ==== Sys2Proof/Machine/Control.lean ====
section
/-! DEFINITION. Branches, calls, the frame stack, the hardware loop, special registers, barriers, alarms, doorbells, writes
to code, and returns from entries (R164 to R171, R205, R206, R211 to R220), and undefined encodings (R188). -/

namespace Sys2Proof.Machine

/-- A branch to target t of cc cycles. -/
def State.jump (s : State) (c : CoreId) (i : Instr) (cc : Nat) (t : Core → Nat) : Host.Outcome State Fault Refusal :=
  .next (s.instr c i fun _ x => .done x (some (t (x.core c))) cc)

/-- Own address plus a signed displacement, modulo 2^18 (R205, R206). -/
def Core.displaced (k : Core) (d : BitVec 14) : Nat := (((k.pc : Int) + d.toInt) % 262144).toNat

/-- The second operand of CMPB. -/
def CmpArg.value (r : CoreRegs) : CmpArg → Word
  | .reg b => r.wr b
  | .imm v => v.signExtend 36

def execCmpb (c : CoreId) (cc : Cond) (a : Reg) (b : CmpArg) (disp : BitVec 14) (s : State) :
    Host.Outcome State Fault Refusal :=
  .next <| s.instr c (.cmpb c cc a b disp) fun _ x =>
    let k := x.core c
    .done x (if condHolds cc (k.r.wr a) (CmpArg.value k.r b) then some (k.displaced disp) else none) 5
def execBr (c : CoreId) (disp : BitVec 14) (s : State) : Host.Outcome State Fault Refusal :=
  s.jump c (.br c disp) 3 fun k => k.displaced disp
def execBrL (c : CoreId) (t : BitVec 18) (s : State) : Host.Outcome State Fault Refusal :=
  s.jump c (.brL c t) 3 fun _ => t.toNat
def execJr (c : CoreId) (r : Reg) (s : State) : Host.Outcome State Fault Refusal :=
  s.jump c (.jr c r) 3 fun k => (k.r.wr r).toNat % 2 ^ 18

/-! ### Special registers (R215) -/

def execMfs (c : CoreId) (d : Reg) (n : BitVec 6) (s : State) : Host.Outcome State Fault Refusal :=
  .next <| s.instr c (.mfs c d n) fun _ t => .done (t.updR c fun x => x.setW d (t.special c n.toNat)) none 3

/-- MTS (R215). A special register is written in the first of its cycles, so a flag of a result due in any of them ends 1 (R265):
DESIGN CHOICE, log entry 69. -/
def execMts (c : CoreId) (n : BitVec 6) (a : Reg) (s : State) : Host.Outcome State Fault Refusal :=
  .next <| s.instr c (.mts c n a) fun _ t =>
    .done (t.updR c fun x => x.mts n.toNat (x.wr a) (t.queueHolds c)) none 3

/-! ### The frame stack (R164 to R166, R211, R212) -/

/-- Pushes the registers of a mask and goes to the target. -/
def State.call (s : State) (c : CoreId) (i : Instr) (len : Nat) (mask : BitVec 32) (target : Core → Nat) :
    Host.Outcome State Fault Refusal :=
  .next <| s.instr c i fun _ t =>
    let k := t.core c
    let regs := (maskRegs mask).map k.r.wr
    let size := regs.length + 2
    if 64 < k.r.fsp + size then .trap .frameOverflow size
    else
      let f : Frame := { set := k.r.ctl.exl, ra := BitVec.ofNat 18 (k.pc + len), mask := mask, regs := regs }
      .done (t.updR c fun x => { x with frames := x.frames ++ [f] }) (some (target k)) (6 + size)

/-- The mask of registers FIRST to LAST; empty when FIRST > LAST. -/
def rangeMask (f l : Reg) : BitVec 32 := (regRange f l).foldl (fun m n => m ||| (1#32 <<< n.val)) 0

def execCall (c : CoreId) (target : BitVec 18) (mask : BitVec 32) (s : State) : Host.Outcome State Fault Refusal :=
  s.call c (.call c target mask) 5 mask fun _ => target.toNat
def execCallS (c : CoreId) (target : BitVec 18) (f l : Reg) (s : State) : Host.Outcome State Fault Refusal :=
  s.call c (.callS c target f l) 3 (rangeMask f l) fun _ => target.toNat
def execCallr (c : CoreId) (a f l : Reg) (s : State) : Host.Outcome State Fault Refusal :=
  s.call c (.callr c a f l) 2 (rangeMask f l) fun k => (k.r.wr a).toNat % 2 ^ 18

def CoreRegs.fsdepth (r : CoreRegs) (t : Bool) : Word := if t then r.sp.fsdepth1 else r.sp.fsdepth0
def CoreRegs.fsmem (r : CoreRegs) (t : Bool) : Word := if t then r.sp.fsmem1 else r.sp.fsmem0
def CoreRegs.setSpill (r : CoreRegs) (t : Bool) (mem depth : Word) : CoreRegs :=
  if t then { r with sp := { r.sp with fsmem1 := mem, fsdepth1 := depth } }
  else { r with sp := { r.sp with fsmem0 := mem, fsdepth0 := depth } }

/-- Restores the masked registers of a frame. A frame that memory gave fewer words than its mask names leaves the others a
free value: log entry 17. -/
def CoreRegs.restore (r : CoreRegs) (f : Frame) (free : Nat) : CoreRegs :=
  let ns := maskRegs f.mask
  let vs := f.regs ++ (List.range ns.length).map fun j => Config.freeWord (free + j)
  (ns.zip vs).foldl (fun x e => x.setW e.1 e.2) r

/-- Words that a frame's mask names beyond those that it holds. -/
def Frame.missing (f : Frame) : Nat := (maskRegs f.mask).length - f.regs.length

def execRet (c : CoreId) (s : State) : Host.Outcome State Fault Refusal :=
  .next <| s.instr c (.ret c) fun _ t =>
    let r := t.regs c
    match r.frames.getLast? with
    | none => if r.fsdepth r.ctl.exl ≠ 0 then .trap .frameUnderflow 0 else .fault .frameEmpty 0
    | some f =>
      if r.frames.any (fun g => decide (g.set = r.ctl.exl)) then
        let t1 := t.updR c fun x => { x.restore f t.free with frames := x.frames.dropLast }
        .done { t1 with free := t.free + f.missing } (some f.ra.toNat) (8 + f.regs.length)
      else if r.fsdepth r.ctl.exl ≠ 0 then .trap .frameUnderflow 0
      else .fault .frameEmpty 0

/-- The words of a frame as FSPILL stores them: registers, header B, header A (R164, R166). -/
def Frame.words (f : Frame) : List Word :=
  f.regs ++ [f.mask.zeroExtend 36,
    BitVec.ofNat 36 (f.regs.length % 64 * 2 ^ 30 + bit f.set * 2 ^ 29 + f.ra.toNat)]

/-- The n words from va, each a word access of its own: an unaligned one is split (R53, R54, R166). -/
def wordOperands (k : Cap) (va n : Nat) (need : Need) : List Operand :=
  (List.range n).map fun i => { cap := k, va := va + 4 * i, len := 4, align := 1, need := need }

def execFspill (c : CoreId) (s : State) : Host.Outcome State Fault Refusal :=
  .next <| s.instr c (.fspill c) fun cur t =>
    let r := t.regs c
    match r.frames with
    | [] => .fault .illegal 0
    | f :: _ =>
      let k := r.cap (if f.set = r.ctl.exl then 7 else 23)
      let m := r.fsmem f.set
      let va := k.base + m.toNat
      let size := f.regs.length + 2
      if m.toNat % 4 ≠ 0 then .fault .alignment va
      else
        t.storing c cur 0 (wordOperands k va size .store) .write false (f.words.flatMap Word.chars) fun _ x =>
          .done (x.updR c fun q =>
            { q.setSpill f.set (m + BitVec.ofNat 36 (4 * size)) (r.fsdepth f.set + 1) with frames := q.frames.drop 1 })
            none (4 + size)

/-- Reads the n words that end below address e, for FFILL; an area that begins below address 0 lies outside every
capability. -/
def State.fillRead (s : State) (c : CoreId) (cur : Cur) (round : Nat) (k : Cap) (e n : Nat) (next : Cur → List Chr → Act) : Act :=
  if e < 4 * n then .fault (if k.read then .capBounds else .capRights) (e + 2 ^ 36 - 4 * n)
  else s.reading c cur round (wordOperands k (e - 4 * n) n .load) next

/-- Places a filled frame directly below the oldest frame of set t and above every frame of the other set (R166). -/
def placeFrame (t : Bool) (f : Frame) : List Frame → List Frame
  | [] => [f]
  | g :: l => if g.set = t then f :: g :: l else if t then g :: placeFrame t f l else f :: g :: l

/-- A frame from its words. -/
def frameOfWords (l : List Word) : Frame :=
  let a := l.getLastD 0
  let b := l.dropLast.getLastD 0
  { set := BitVec'.at' a 6, ra := BitVec'.pos a 18 18, mask := b.truncate 32, regs := l.dropLast.dropLast }

def execFfill (c : CoreId) (s : State) : Host.Outcome State Fault Refusal :=
  .next <| s.instr c (.ffill c) fun cur t =>
    let r := t.regs c
    let set := r.ctl.exl
    let k := r.cap 7
    let m := r.fsmem set
    let e := k.base + m.toNat
    if r.fsdepth set = 0 then .fault .illegal 0
    else if m.toNat % 4 ≠ 0 then .fault .alignment e
    else t.fillRead c cur 0 k e 1 fun cur1 h =>
      let size := (BitVec'.pos (Word.ofChars h) 0 6).toNat + 2
      if 64 < r.fsp + size then .fault .illegal 0
      else t.fillRead c cur1 1 k e size fun _ l =>
        let f := frameOfWords (wordsOfChars l)
        .done (t.updR c fun q =>
          { q.setSpill set (m - BitVec.ofNat 36 (4 * size)) (r.fsdepth set - 1) with frames := placeFrame set f q.frames })
          none (6 + size)

/-! ### The hardware loop (R213, R214) -/

def State.startLoop (s : State) (c : CoreId) (i : Instr) (len : Nat) (count : Core → Nat) (lam : BitVec 3) (b : BitVec 11) :
    Host.Outcome State Fault Refusal :=
  .next <| s.instr c i fun _ t =>
    let k := t.core c
    let start := k.pc + len
    if k.r.ctl.lact then .fault .loopState 0
    else if lam = 0 ∨ 6 < lam.toNat ∨ b.toNat < lam.toNat then .fault .loopState 0
    else if count k = 0 then .done t (some ((start + b.toNat) % 2 ^ 18)) 4
    else .done ((t.updCore c Core.dropBuf).updR c fun x => { x with
        sp := { x.sp with lstart := BitVec.ofNat 36 (start % 2 ^ 18),
                          lend := BitVec.ofNat 36 ((start + b.toNat - lam.toNat) % 2 ^ 18),
                          lcount := BitVec.ofNat 36 (count k) },
        ctl := { x.ctl with lact := true } }) none 4

def execLoop (c : CoreId) (n : BitVec 14) (lam : BitVec 3) (b : BitVec 11) (s : State) : Host.Outcome State Fault Refusal :=
  s.startLoop c (.loop c n lam b) 3 (fun _ => n.toNat) lam b
def execLoopr (c : CoreId) (a : Reg) (lam : BitVec 3) (b : BitVec 11) (s : State) : Host.Outcome State Fault Refusal :=
  s.startLoop c (.loopr c a lam b) 2 (fun k => (k.r.wr a).toNat) lam b
def execLoopOff (c : CoreId) (s : State) : Host.Outcome State Fault Refusal :=
  .next <| s.instr c (.loopOff c) fun _ t =>
    .done ((t.updCore c Core.dropBuf).updR c fun x =>
      { x with sp := { x.sp with lcount := 0 }, ctl := { x.ctl with lact := false } }) none 2

/-! ### Barriers and control (R216 to R220) -/

def execNop (c : CoreId) (s : State) : Host.Outcome State Fault Refusal := s.regOp c (.nop c) 1 fun x => x
def execBreak (c : CoreId) (code : BitVec 14) (s : State) : Host.Outcome State Fault Refusal :=
  .next (s.instr c (.break_ c code) fun _ t => .stop (t.updCore c fun k => k.count (·.addCycles 2)) .break_ 0)

/-- Empties the fetch queue and the loop buffer; what follows is fetched again. -/
def execIsync (c : CoreId) (s : State) : Host.Outcome State Fault Refusal :=
  .next <| s.instr c (.isync c) fun _ t =>
    .done (t.updCore c fun k => { k.dropBuf with fetchQ := t.fetchRun (coreCluster c) [] k.pc 7 }) none 4

/-- A posted access of the core has not yet been performed or refused. -/
def State.storesOut (s : State) (c : CoreId) : Bool :=
  s.accesses.any fun a => decide (a.core = c) && a.posted

def execMsync (c : CoreId) (s : State) : Host.Outcome State Fault Refusal :=
  .next <| s.instr c (.msync c) fun cur t => if t.storesOut c then .wait t cur false else .done t none 2

def execEret (c : CoreId) (s : State) : Host.Outcome State Fault Refusal :=
  .next <| s.instr c (.eret c) fun _ t =>
    let r := t.regs c
    if r.eretOk then .done (t.updR c CoreRegs.eret) (some (r.sp.epc.toNat % 2 ^ 18)) 8 else .fault .illegal 0
def execPret (c : CoreId) (s : State) : Host.Outcome State Fault Refusal :=
  .next <| s.instr c (.pret c) fun _ t =>
    let r := t.regs c
    if r.ctl.bk1 then .done (t.updR c CoreRegs.pret) (some (r.sp.epc1.toNat % 2 ^ 18)) 6 else .fault .illegal 0

def execAlarm (c : CoreId) (a : Reg) (s : State) : Host.Outcome State Fault Refusal :=
  .next <| s.instr c (.alarm c a) fun _ t => .done (t.updCore c fun k => { k with alarm := some (k.r.wr a), alarmTick := some (t.die (coreDie c)).o.tick }) none 3
def execAlarmOff (c : CoreId) (s : State) : Host.Outcome State Fault Refusal :=
  .next <| s.instr c (.alarmOff c) fun _ t => .done (t.updCore c fun k => { k with alarm := none }) none 2

/-- DOORBELL of core c names core j of its cluster; its own bit is no earlier than the cycle after (R219). -/
def State.ringCore (s : State) (c : CoreId) (j : Nat) : State :=
  let n := 8 * coreCluster c + j
  let late := decide (j = coreIndex c) && !BitVec'.at' (s.regs n).sp.ipend Item.doorbell.position
  (if late then s.updCore n fun k => { k with bell := true } else s).interrupt n .doorbell

/-- Mask position 6 + k of syllable 2, the most significant of the eight bits for core 0, names core k (R219). -/
def execDoorbell (c : CoreId) (mask : BitVec 8) (s : State) : Host.Outcome State Fault Refusal :=
  .next <| s.instr c (.doorbell c mask) fun _ t =>
    .done (iter 8 (fun j x => if mask.getMsbD j then x.ringCore c j else x) t) none 3

/-- Writes a syllable of a cluster's code store, which invalidates every loop buffer of the cluster: what a buffer
holds keeps its form until the next loop-back (R155). -/
def State.writeCode (s : State) (cl a : Nat) (v : Syll) : State :=
  iter 8 (fun j x => x.updCore (8 * cl + j) fun k => { k with bufStale := k.bufStale || !k.loopBuf.isEmpty })
    (s.updCluster cl fun x => { x with code := Sparse.set 0 x.code a v })

def execCodeWr (c : CoreId) (a b : Reg) (s : State) : Host.Outcome State Fault Refusal :=
  .next <| s.instr c (.codeWr c a b) fun _ t =>
    let r := t.regs c
    let kc := r.govKc
    let at_ := kc.base + (r.wr a).toNat
    if !kc.write then .fault .capRights at_
    else if !kc.covers at_ 1 then .fault .capBounds at_
    else if 262144 ≤ at_ then .fault .codeRange at_
    else .done (t.writeCode (coreCluster c) at_ ((r.wr b).truncate 14)) none 4

/-! ### Undefined encodings (R188) -/

/-- The syllables at the core's pc that no instruction's encoding matches fault with ILLEGAL once they have been
fetched. -/
def execUndefinedEncoding (c : CoreId) (s : State) : Host.Outcome State Fault Refusal :=
  let k := s.core c
  let held := k.fetchQ ++ s.fetchRun (coreCluster c) k.loopBuf (k.pc + k.fetchQ.length) (6 - k.fetchQ.length)
  let n := lengthOf held
  if !k.live || k.cur.isSome || k.takeable.isSome then .next s
  else if k.regBad then .next (s.cataclysm c 5 0)
  else if (decode c held).isSome then .next s
  else if held.length < n then .next (s.raise c .codeRange (max k.pc 262144))
  else
    let s1 := s.rung c
    match s1.fetchStop c (s1.fetchIs c (held.take n)) with
    | some s' => .next s'
    | none => .next (s1.raise c .illegal 0)

end Sys2Proof.Machine
end

