-- ==== Sys2Proof/Machine/LoadStore.lean ====
section
/-! DEFINITION. Loads, stores and multiply-accumulate (R207 to R210). -/

namespace Sys2Proof.Machine

/-- A load of n characters; `f` writes the registers from them. -/
def State.load (s : State) (c : CoreId) (i : Instr) (t : Tail) (n align cc : Nat) (f : CoreRegs → List Chr → CoreRegs) :
    Host.Outcome State Fault Refusal :=
  .next <| s.instr c i fun cur x =>
    let o := Tail.operand (x.regs c) t n align .load
    x.reading c cur 0 [o] fun _ l =>
      .done (x.updR c fun r => f r l) none (cc + Tail.cc t + (if o.split then 2 else 0))

def execLdc (c : CoreId) (d : Reg) (t : Tail) (s : State) : Host.Outcome State Fault Refusal :=
  s.load c (.ldc c d t) t 1 1 3 fun r l => r.setW d ((l.headD 0).zeroExtend 36)
def execLdw (c : CoreId) (d : Reg) (t : Tail) (s : State) : Host.Outcome State Fault Refusal :=
  s.load c (.ldw c d t) t 4 1 3 fun r l => r.setW d (Word.ofChars l)
def execLdp (c : CoreId) (d : Reg) (t : Tail) (s : State) : Host.Outcome State Fault Refusal :=
  s.load c (.ldp c d t) t 8 4 4 fun r l => (r.setW d (Word.ofChars l)).setW (Reg.next d) (Word.ofChars (l.drop 4))

/-- A store of the characters that `f` takes from the registers; a split STW and STP are precise (R314). -/
def State.store (s : State) (c : CoreId) (i : Instr) (t : Tail) (n align cc : Nat) (f : CoreRegs → List Chr) :
    Host.Outcome State Fault Refusal :=
  .next <| s.instr c i fun cur x =>
    let r := x.regs c
    let o := Tail.operand r t n align .store
    x.storing c cur 0 [o] .write (o.split || decide (n = 8)) (f r) fun _ y => .done y none (cc + Tail.cc t + (if o.split then 2 else 0))

def execStc (c : CoreId) (a : Reg) (t : Tail) (s : State) : Host.Outcome State Fault Refusal :=
  s.store c (.stc c a t) t 1 1 3 fun r => [(r.wr a).truncate 9]
def execStw (c : CoreId) (a : Reg) (t : Tail) (s : State) : Host.Outcome State Fault Refusal :=
  s.store c (.stw c a t) t 4 1 3 fun r => (r.wr a).chars
def execStp (c : CoreId) (a : Reg) (t : Tail) (s : State) : Host.Outcome State Fault Refusal :=
  s.store c (.stp c a t) t 8 4 4 fun r => (r.wr a).chars ++ (r.wr (Reg.next a)).chars

/-- The register effect of MAC on the two words read (R210). -/
def CoreRegs.mac (r : CoreRegs) (a i j : Reg) (sa sb : BitVec 6) (x y : Word) : CoreRegs :=
  let r1 := r.setPair a (r.pair a + BitVec.ofInt 72 (x.toInt * y.toInt))
  (r1.setW i (r1.wr i + BitVec.ofInt 36 (4 * sa.toInt))).setW j (r1.wr j + BitVec.ofInt 36 (4 * sb.toInt))

def execMac (c : CoreId) (a : Reg) (kb : KReg) (i : Reg) (kc : KReg) (j : Reg) (sa sb : BitVec 6) (s : State) :
    Host.Outcome State Fault Refusal :=
  .next <| s.instr c (.mac c a kb i kc j sa sb) fun cur x =>
    let r := x.regs c
    let p : Operand :=
      { cap := r.cap kb.val, va := (r.cap kb.val).base + (r.wr i).toNat, len := 4, align := 4, need := .load }
    let q : Operand :=
      { cap := r.cap kc.val, va := (r.cap kc.val).base + (r.wr j).toNat, len := 4, align := 4, need := .load }
    x.reading c cur 0 [p, q] fun _ l =>
      .done (x.updR c fun r => r.mac a i j sa sb (Word.ofChars l) (Word.ofChars (l.drop 4))) none 6

end Sys2Proof.Machine
end

