-- ==== Sys2Proof/Machine/Symbols.lean ====
section
/-! DEFINITION. The symbol code of stored lines (R379 to R381): symbols, codewords, places and beats, what a read makes of
changed symbols, and the octets of a tag line. -/

namespace Sys2Proof.Machine

/-! ### Symbols of a line (R379) -/

def symbolCodeword (t : Nat) : Nat := t % 4
def symbolPlace (t : Nat) : Nat := t / 4
/-- Byte t / 2 lies in beat t / 16. -/
def symbolBeat (t : Nat) : Nat := t / 16

/-- The bits of a line in character order, each character most significant bit first. -/
def lineBits (l : List Chr) : List Bool := l.flatMap fun c => bitsOf 9 c.toNat

/-- Characters from their bits. -/
def charsOfBits : Nat → List Bool → List Chr
  | 0, _ => []
  | n + 1, b => BitVec.ofNat 9 (ofBits (b.take 9)) :: charsOfBits n (b.drop 9)

/-- Symbols 0 to 143 of a line: four bits each. -/
def dataSymbols (l : List Chr) : List (BitVec 4) :=
  (List.range 144).map fun t => BitVec.ofNat 4 (ofBits (((lineBits l).drop (4 * t)).take 4))

/-- The data symbols of codeword w. -/
def codewordData (l : List Chr) (w : Nat) : List (BitVec 4) :=
  (List.range 36).map fun k => (dataSymbols l).getD (4 * k + w) 0

/-- The 160 symbols of a stored line. -/
def storedSymbols (l : List Chr) : List (BitVec 4) :=
  (List.range 160).map fun t =>
    if t < 144 then (dataSymbols l).getD t 0
    else (Config.eccCheck (codewordData l (symbolCodeword t))).getD (symbolPlace t - 36) 0

/-- The 80 bytes of a stored line: symbol t is the high nibble of byte t / 2 when t is even. -/
def storedBytes (l : List Chr) : List Octet :=
  (List.range 80).map fun i =>
    BitVec.ofNat 8 (((storedSymbols l).getD (2 * i) 0).toNat * 16 + ((storedSymbols l).getD (2 * i + 1) 0).toNat)

/-- A line with changes of its data symbols. -/
def alterChars (l : List Chr) (x : List (Nat × BitVec 4)) : List Chr :=
  let flip (b : List Bool) (e : Nat × BitVec 4) : List Bool :=
    (List.range 4).foldl (fun b i => if e.2.getMsbD i then b.modify (4 * e.1 + i) (!·) else b) b
  charsOfBits 64 ((x.filter fun e => decide (e.1 < 144)).foldl flip (lineBits l))

/-! ### A read (R380) -/

/-- The result of a read: clean, corrected with the codewords and places logged and what a wrong correction leaves changed, or
uncorrectable. -/
inductive Reading where
  | clean
  | corrected (at_ : List (Nat × Nat)) (left : List (Nat × BitVec 4))
  | uncorrectable
  deriving DecidableEq, Repr

/-- The changed symbols of codeword w. -/
def codewordErrors (x : List (Nat × BitVec 4)) (w : Nat) : List (Nat × BitVec 4) :=
  x.filter fun e => decide (symbolCodeword e.1 = w) && decide (e.1 < 160) && decide (e.2 ≠ 0)

/-- What one codeword makes of its errors: any error confined to one symbol is corrected; any confined to two symbols or to one
beat is detected; beyond these guarantees it is as the code decides. -/
def readCodeword (w : Nat) (x : List (Nat × BitVec 4)) : Reading :=
  match codewordErrors x w with
  | [] => .clean
  | [e] => .corrected [(w, symbolPlace e.1)] []
  | e :: es =>
    if es.length = 1 ∨ es.all fun f => decide (symbolBeat f.1 = symbolBeat e.1) then .uncorrectable
    else match Config.eccDecode ((e :: es).map fun f => (symbolPlace f.1, f.2)) with
      | none => .uncorrectable
      | some (k, v) => .corrected [(w, k)] ((e :: es) ++ [(4 * k + w, v)])

/-- The results of the codewords together. -/
def Reading.join : Reading → Reading → Reading
  | .uncorrectable, _ => .uncorrectable
  | _, .uncorrectable => .uncorrectable
  | .clean, r => r
  | r, .clean => r
  | .corrected a x, .corrected b y => .corrected (a ++ b) (x ++ y)

/-- What a read of 160 symbols with these changes gives. -/
def readUnit160 (x : List (Nat × BitVec 4)) : Reading :=
  (List.range 4).foldl (fun r w => r.join (readCodeword w x)) .clean

/-! ### Tag lines (R381) -/

/-- The octet of a line in its tag line. -/
def tagOctet (key : BitVec 4) (capline poison : Bool) : Octet :=
  BitVec.ofNat 8 (key.toNat * 16 + bit capline * 8 + bit poison * 4)

/-- What changed symbols of a tag line add to the octet of its line i. -/
def tagChange (x : List (Nat × BitVec 4)) (i : Nat) : Octet :=
  x.foldl (fun a e => if e.1 = 2 * i then a ^^^ (e.2 ++ 0#4 : BitVec 8) else if e.1 = 2 * i + 1 then a ^^^ e.2.zeroExtend 8 else a) 0

/-- The line of row `row` whose tags are octet i of tag line j. -/
def taggedLine (row j i : Nat) : Nat := 128 * j + i / 16 * 32 + row * 16 + i % 16
/-- The tag line of a line. -/
def tagLineOf (l : Nat) : Nat := l / 128

end Sys2Proof.Machine
end

