-- ==== Sys2Proof/Machine/Packed.lean ====
section
/-! DEFINITION. Landing and departure of octets (R40 to R42, R345) and packets of a queue
(R349 to R354). -/

namespace Sys2Proof.Machine

/-! ### Landing and departure -/

/-- Rule r marks octet k of the landed data (R345). -/
def TRule.marks (r : TRule) (o : List Octet) (k : Nat) : Bool :=
  match r.kind with
  | 1 => decide (k = r.lo)
  | 2 => decide (r.lo ≤ k) && decide (k ≤ r.hi) && decide ((o.getD k 0).toNat = r.value)
  | 3 => decide (r.lo < k) && decide (k ≤ r.hi) && decide ((o.getD (k - 1) 0).toNat = r.value)
  | 4 => decide (r.lo ≤ k) && decide (k ≤ r.hi) && decide (r.low ≤ (o.getD k 0).toNat) && decide ((o.getD k 0).toNat ≤ r.high)
  | _ => false

/-- Characters of octets landed in character form under a template (R40). -/
def landChars (rules : List TRule) (o : List Octet) : List Chr :=
  (List.range o.length).map fun k => Chr.mk (rules.any fun r => TRule.marks r o k) (o.getD k 0)

/-- Words of octets in dense form (R41). -/
def denseWords : Nat → List Octet → List Word
  | 0, _ => []
  | _, [] => []
  | n + 1, o =>
    let g := o.take 9
    let v : Pair := BitVec.ofNat 72 (ofOctetsBE (g ++ List.replicate (9 - g.length) 0))
    Pair.hi v :: Pair.lo v :: denseWords n (o.drop 9)

/-- Octets of words in dense form (R42). -/
def denseOctets : List Word → List Octet
  | a :: b :: l => octetsBE 9 (Pair.mk a b).toNat ++ denseOctets l
  | _ => []

/-- Octets of characters (R42). -/
def octetsOfChars (l : List Chr) : List Octet := l.map Chr.code

/-! ### Packets -/

/-- A length word (R350). -/
def lengthWord (type info octets : Nat) : Word :=
  BitVec.ofNat 36 (type % 8 * 2 ^ 33 + info % 64 * 2 ^ 24 + octets % 65536)
def lwType (x : Word) : Nat := (BitVec'.pos x 0 3).toNat
def lwInfo (x : Word) : Nat := (BitVec'.pos x 6 6).toNat
def lwOctets (x : Word) : Nat := (BitVec'.pos x 20 16).toNat

/-- Payload words of n octets in a queue (R350), four descriptor words first in a departure queue. That rule's last sentence gives
the size of a departure packet in character form: DEDUCED, log entry 34. -/
def Queue.payload (q : Queue) (n : Nat) : Nat :=
  (if q.kind = 3 then 4 else 0) + if q.dense then 2 * ceilDiv n 9 else ceilDiv n 4
/-- The words in which a queue's form holds octets without marks (R40, R41). -/
def Queue.bodyWords (q : Queue) (o : List Octet) : List Word :=
  if q.dense then denseWords o.length o else wordsOfChars (o.map (Chr.mk false))

/-- Words of the buffer and words free (R349). -/
def Queue.cap (q : Queue) : Nat := 2 ^ q.size
def Queue.spare (q : Queue) : Nat := q.cap - q.used
/-- A pointer value moved on by n words. -/
def Queue.move (q : Queue) (v n : Nat) : Nat := (v + n) % 2 ^ (q.size + 1)

def Queue.read (q : Queue) (ram : Sparse Chr) (v : Nat) : Word := qWord ram (q.addr v)
def Queue.readList (q : Queue) (ram : Sparse Chr) (v n : Nat) : List Word := (List.range n).map fun j => q.read ram (v + j)
def Queue.writeList (q : Queue) (ram : Sparse Chr) (v : Nat) : List Word → Sparse Chr
  | [] => ram
  | w :: l => q.writeList (qSetWord ram (q.addr v) w) (q.move v 1) l

/-- Reserves a packet of n payload words (R351): the pending marker, WPTR moved on, and the packet's pointer; none when there is no
room. -/
def State.reservePacket (s : State) (d p q n : Nat) : Option (State × Nat) :=
  let r := s.queue d p q
  if r.spare < 1 + n then none
  else
    let s1 := s.updDie d fun e => { e with qram := qSetWord e.qram (r.addr r.wptr) pendingMarker }
    some (s1.setQueue d p q { r with wptr := r.move r.wptr (1 + n) }, r.wptr)

/-- Completes a reserved packet: the payload, the length word last. -/
def State.fillPacket (s : State) (d p q ptr : Nat) (x : Word) (payload : List Word) : State :=
  let r := s.queue d p q
  s.updDie d fun e => { e with qram := qSetWord (r.writeList e.qram (r.move ptr 1) payload) (r.addr ptr) x }

/-- Places a packet: the new state and the packet's pointer; none when there is no room. -/
def State.putPacket (s : State) (d p q : Nat) (x : Word) (payload : List Word) : Option (State × Nat) :=
  (s.reservePacket d p q payload.length).map fun y => (y.1.fillPacket d p q y.2 x payload, y.2)

/-- Octets of the payload of the packet at pointer v, after the first skip words, by the queue's form (R42). -/
def State.packetOctets (s : State) (d p q v skip : Nat) : List Octet :=
  let r := s.queue d p q
  let ram := (s.die d).qram
  let n := lwOctets (r.read ram v)
  let ws := r.readList ram (r.move v (1 + skip)) (r.payload n - skip)
  (if r.dense then denseOctets ws else octetsOfChars (ws.flatMap Word.chars)).take n

/-- Physical address of a character of a die's queue RAM (R58); of a mirror port's, in space 2 (R316). -/
def ramAddress (d a : Nat) : Nat := if d < 8 then 2 ^ 37 + 4 * d * 2 ^ 32 + a else 2 * 2 ^ 37 + 1048576 * (d - 7) + a

/-- The queue RAM lines of the packet at pointer v: its length word and n payload words. -/
def Queue.lines (q : Queue) (v n : Nat) : List Nat := ((List.range (1 + n)).map fun j => q.addr (v + j) / 64).eraseDups

/-- Drops a packet for want of room (R351). -/
def State.dropPacket (s : State) (d p q : Nat) : State :=
  s.updQueue d p q fun r => { r with drops := r.drops + 1, overrun := true }

/-- Rewrites the TYPE of the packet at pointer v. -/
def State.retype (s : State) (d p q v type : Nat) : State :=
  let r := s.queue d p q
  s.updDie d fun e => { e with
    qram := qSetWord e.qram (r.addr v) (BitVec'.setPos (r.read e.qram v) 0 3 type) }

/-- RPTR moved over the run of RETIRED and DISCARDED packets at the head (R354); each packet takes a word or more. -/
def Queue.skipRun (q : Queue) (ram : Sparse Chr) : Nat → Nat → Nat
  | 0, v => v
  | n + 1, v =>
    if v = q.wptr then v
    else
      let x := q.read ram v
      if x ≠ pendingMarker ∧ (lwType x = 2 ∨ lwType x = 3) then q.skipRun ram n (q.move v (1 + q.payload (lwOctets x)))
      else v

def State.skipHead (s : State) (d p q : Nat) : State :=
  let r := s.queue d p q
  s.setQueue d p q { r with rptr := r.skipRun (s.die d).qram r.used r.rptr }

/-- A packet consumed out of order: RETIRED, and the head moved on. -/
def State.retirePacket (s : State) (d p q v : Nat) : State := (s.retype d p q v 3).skipHead d p q

/-- Pointers of the packets from RPTR up to the first pending marker, at most n of them. -/
def Queue.packets (q : Queue) (ram : Sparse Chr) : Nat → Nat → List Nat
  | 0, _ => []
  | n + 1, v =>
    if v = q.wptr then []
    else
      let x := q.read ram v
      if x = pendingMarker then []
      else v :: q.packets ram n (q.move v (1 + q.payload (lwOctets x)))

/-! ### Errors of queue RAM (R382, R492) -/

/-- The first character that holds a bit of a symbol, by codeword and place; of a check symbol, the first of the line: DESIGN
CHOICE, log entry 67. -/
def symbolChar (w k : Nat) : Nat := if k < 36 then 4 * (4 * k + w) / 9 else 0

/-- Corrected symbols of lines ls of a queue RAM: MEM_CE with the address of the failing character, and written back. -/
def State.ramCorrected (s : State) (d p unit : Nat) (ls : List Nat) : State :=
  ((s.die d).qramCe.filter fun x => decide (x.1 ∈ ls)).foldl (fun y x =>
    let a := ramAddress d (64 * x.1 + symbolChar x.2.1 x.2.2)
    (y.logErr 0o01 1 d (decide (8 ≤ d)) p unit (paWord2 a) (paWord3 a (eccItem x.2.1 x.2.2))).updDie d
      fun e => { e with qramCe := e.qramCe.erase x, ceCount := e.ceCount + 1 }) s

/-- The line of ls with an uncorrectable error. -/
def State.ramBad (s : State) (d : Nat) (ls : List Nat) : Option Nat := (s.die d).qramBad.find? fun l => decide (l ∈ ls)

/-- MEM_UE for line l of a queue RAM, code the reading unit. -/
def State.ramLost (s : State) (d p unit code l : Nat) : State :=
  s.logErr 0o02 2 d (decide (8 ≤ d)) p unit (paWord2 (ramAddress d (64 * l))) (paWord3 (ramAddress d (64 * l)) code)

/-- A unit of the package reads the packet at pointer v; with an uncorrectable error the packet becomes DISCARDED, and true is
answered. The reading unit that MEM_UE names is the hub's DMA or the port: 0, DESIGN CHOICE, log entry 67. -/
def State.packetRead (s : State) (d p q v : Nat) : State × Bool :=
  let r := s.queue d p q
  let ls := r.lines v (r.payload (lwOctets (r.read (s.die d).qram v)))
  let s1 := s.ramCorrected d p 0 ls
  match s.ramBad d ls with
  | some l => (((s1.ramLost d p 0 0 l).retype d p q v 2).skipHead d p q, true)
  | none => (s1, false)

/-- The packets of die d that lie in queue RAM line l become DISCARDED. -/
def State.discardAt (s : State) (d l : Nat) : State :=
  (s.die d).queues.foldl (fun x e =>
    let r := e.2
    let ram := (s.die d).qram
    let hit (v : Nat) : Bool :=
      let w := r.read ram v
      decide (l ∈ r.lines v (r.payload (lwOctets w))) && decide (lwType w ≠ 2) && decide (lwType w ≠ 3)
    ((r.packets ram r.used r.rptr).filter hit).foldl (fun y v =>
      (y.retype d (e.1 / 8) (e.1 % 8) v 2).skipHead d (e.1 / 8) (e.1 % 8)) x) s

end Sys2Proof.Machine
end

