-- ==== Sys2Proof/Machine/Txn.lean ====
section
/-! DEFINITION. Transaction instructions of a core: HOME, TXN.NEXT, TXN.CLAIM, TXN.CLAIMX, TXN.WAIT, DPOST, DCAS, DACC,
TXN.RESPOND, TXN.COMMIT, TXN.ABORT (R111 to R115, R121, R125, R126, R130, R131), and what becomes of a resolved slot (R131,
R135). -/

namespace Sys2Proof.Machine

/-! ### Parameters of a partition (R139, R410) -/

def State.recLines (s : State) (p : Nat) : Nat := s.paramN 82 p 1

/-- The home hash (R114). -/
def PlanPart.record (q : PlanPart) (recLines a : Nat) : Nat :=
  let h := q.homes.length
  let n := a / h
  let k := (a % h + n) % h
  (q.vbase.getD k 0).toNat + n * recLines * 64

def execHome (c : CoreId) (d a : Reg) (s : State) : Host.Outcome State Fault Refusal :=
  .next <| s.instr c (.home c d a) fun _ t =>
    let p := match t.partOf c with
      | some p => p.val
      | none => 0
    let n := ((t.regs c).wr a).toNat
    if t.paramN 81 p 1 ≤ n then .fault .accountRange 0
    else .done (t.updR c fun x => x.setW d (BitVec.ofNat 36 ((t.planPart p).record (t.recLines p) n))) none 12

/-! ### Slots -/

/-- Numbers of the slots of die d that hold a transaction of partition p. Numbers from 512 on name what is left at a core of
a transaction that a re-execution has taken back (R360). -/
def State.slotsOf (s : State) (d p : Nat) : List Nat :=
  ((s.die d).o.slots.filter fun e => decide (e.1 < 512) && decide (e.2.part.val = p) && decide (e.2.st ≠ .free)).map Prod.fst

/-- The visible epoch of die d for partition p (R93). -/
def State.visibleAt (s : State) (d p : Nat) : Nat := Sparse.get 0 (s.die d).o.visible p

/-- Epoch of a transaction. -/
def State.slotEpoch (s : State) (v : Slot) : Nat := s.epochOf v.pos.tick

/-- The earliest of some slots of a die. -/
def State.earliest (s : State) (d : Nat) : List Nat → Option Nat
  | [] => none
  | n :: l => match s.earliest d l with
    | none => some n
    | some m => some (if (s.slot d m).pos.before (s.slot d n).pos then m else n)

/-- Slots that TXN.NEXT can take (R111). -/
def State.takeableSlots (s : State) (d p : Nat) : List Nat :=
  (s.slotsOf d p).filter fun n =>
    decide ((s.slot d n).st = .queued) && tickLe (s.slot d n).pos.tick (s.dieHorizon d)

/-- A handle (R112). -/
def Slot.handle (v : Slot) (d n : Nat) : Word :=
  BitVec.ofNat 36 (n % 512 * 2 ^ 27 + v.part.val * 2 ^ 23 + d % 8 * 2 ^ 20 + v.octets.length % 65536 * 16 + bit v.org.host * 8)

/-- A Read and Write capability with key 0 over n characters from a, n below 2^20. -/
def Cap.readWrite (a n : Nat) : Cap :=
  { w0 := BitVec.ofNat 36 a, w1 := BitVec.ofNat 36 (n * 2 ^ 16 + 2 ^ 11 + 2 ^ 10) }

/-- Writes characters to scratch except those of a capability line, which only the capability instructions write (R50).
DEDUCED, log entry 44. -/
def State.copyFrame (s : State) (cl off : Nat) (l : List Chr) : State :=
  (cutParts (l.length / 64 + 2) off l.length).foldl (fun x q =>
    if (x.scratchInfo cl (q.1 / 64)).capline then x else x.scratchWrite cl q.1 ((l.drop (q.1 - off)).take q.2)) s

/-- TXN.NEXT takes slot n. -/
def State.takeSlot (s : State) (c : CoreId) (d : Reg) (n : Nat) : State :=
  let die := coreDie c
  let v := s.slot die n
  let at_ := 2048 * coreIndex c
  let (s0, lost) := match v.place with
    | some ptr => s.packetRead die v.part.val 0 ptr
    | none => (s, false)
  let s1 := s0.setSlot die n { v with st := .taken, core := some c, place := if lost then none else v.place }
  let s2 := s1.copyFrame (coreCluster c) at_ v.chars
  s2.updCore c fun k => { k.updR fun r =>
      let r1 := r.setCap 6 (Cap.readWrite (scratchBase + at_) v.chars.length)
      ((r1.setW d (v.handle die n)).setW (Reg.next d) (Pair.hi v.pos.bits)).setW (Reg.next (Reg.next d)) (Pair.lo v.pos.bits)
    with txn := some n }

/-- The far wait of the frame copy is a free value (R111, R142): log entry 15. -/
def State.nextTaken (s : State) (c : CoreId) (d : Reg) (n : Nat) : State :=
  let (s1, w) := s.fresh
  (s1.takeSlot c d n).updCore c fun k => k.count (·.addFar w)

def execTxnNext (c : CoreId) (d : Reg) (s : State) : Host.Outcome State Fault Refusal :=
  .next <| s.instr c (.txnNext c d) fun _ t =>
    if (t.core c).txn.isSome then .fault .txnState 0
    else match t.partOf c with
      | none => .idle
      | some p =>
        match t.earliest (coreDie c) (t.takeableSlots (coreDie c) p.val) with
        | none => .idle
        | some n => .done (t.nextTaken c d n) none 6

/-! ### Claims (R115, R116) -/

/-- The claimed line of each record and its lines, from the checked parts of one entry after another. -/
def State.claimLines (s : State) (p d : Nat) (parts : List AccPart) : List (Nat × Nat) :=
  parts.filterMap fun q => s.target p d q.pa

/-- The lines of a record, those of each die together: a claim's engine is that of its own die (R116). -/
def byDie (r : List (Nat × Nat)) : List (List (Nat × Nat)) :=
  ((r.map Prod.fst).eraseDups).map fun d => r.filter fun e => decide (e.1 = d)

/-- One claim per distinct line: records are given as lists of (die, line). A record with lines on several dies is claimed at
each of them: DEDUCED, log entry 44. -/
def mergeClaims (l : List (List (Nat × Nat))) : List ClaimReg :=
  (l.flatMap byDie).foldl (fun a r => match r with
    | [] => a
    | (d, n) :: _ =>
      if a.any (fun q => decide (q.die = d) && decide (q.line = n)) then a
      else a ++ [{ die := d, line := n, lines := r.map Prod.snd, granted := false }]) []

/-- Sends the claims of slot n and declares its transaction. -/
def State.declare (s : State) (c : CoreId) (n : Nat) (cs : List ClaimReg) (borrow : Bool) : State :=
  let d := coreDie c
  let v := s.slot d n
  let s1 := s.setSlot d n { v with st := .declared, claims := cs, borrowed := borrow }
  let s2 := if borrow then s1.updCluster (coreCluster c) fun x => { x with pool := x.pool ++ [n] } else s1
  cs.foldl (fun x q =>
    if hq : q.die < 8 then
      if hd : d < 8 then
        x.post (.claim ⟨q.die, hq⟩
          { line := q.line, lines := q.lines, part := v.part, pos := v.pos, fromDie := ⟨d, hd⟩, slot := n, granted := false,
            overflow := false, hurt := [] })
      else x
    else x) s2

/-- The entries of a claim list as operands over the capability that the header names. -/
def claimOperands (k : Cap) (recLines : Nat) (offs : List Word) : List Operand :=
  offs.map fun o => { cap := k, va := k.base + o.toNat, len := 64 * recLines, align := 64, need := .claim }

/-- Cuts the checked parts back into records of r lines each. -/
def cutRecords (r : Nat) : Nat → List AccPart → List (List AccPart)
  | 0, _ => []
  | n + 1, l => l.take r :: cutRecords r n (l.drop r)

/-- TXN.CLAIM and TXN.CLAIMX (wide). A transaction that its Curfew aborts while the instruction waits declares nothing. -/
def State.claiming (s : State) (c : CoreId) (i : Instr) (t : Tail) (wide : Bool) : Host.Outcome State Fault Refusal :=
  .next <| s.instr c i fun cur x =>
    let begun := decide (cur.rounds ≠ []) || decide (cur.xlat ≠ []) || cur.soft
    match (x.core c).txn with
    | none => .fault .txnState 0
    | some n =>
      let v := x.slot (coreDie c) n
      if v.st = .aborted ∧ begun then .done x none (4 + Tail.cc t)
      else if v.st ≠ .taken then .fault .txnState 0
      else
        let r := x.regs c
        x.reading c cur 0 [Tail.operand r t 4 4 .load] fun cur1 h =>
          let w := Word.ofChars h
          let count := (BitVec'.pos w 0 5).toNat
          let k := r.cap (BitVec'.pos w 5 3).toNat
          if 16 < count ∨ (8 < count ∧ ¬ wide) ∨ BitVec'.pos w 8 28 ≠ 0 then .fault .claimFormat 0
          else
            let list : Operand :=
              { cap := Tail.cap r t, va := Tail.va r t + 4, len := 4 * count, align := 4, need := .load }
            x.reading c cur1 1 (if count = 0 then [] else [list]) fun cur2 l =>
              let offs := wordsOfChars l
              let rec_ := x.recLines v.part.val
              match offs.findIdx? fun o => decide ((k.base + o.toNat) % 64 ≠ 0) with
              | some j =>
                match x.checkOperands c cur2.xlat (claimOperands k rec_ (offs.take j)) with
                | .fault cause a => .fault cause a
                | .walk va => .walk x cur2 va
                | .ok _ => .fault .claimFormat 0
              | none =>
                match x.checkOperands c cur2.xlat (claimOperands k rec_ offs) with
                | .fault cause a => .fault cause a
                | .walk va => .walk x cur2 va
                | .ok ps =>
                  if wide && decide (2 ≤ (x.cluster (coreCluster c)).pool.length) then .wait x cur2 true
                  else
                    let recs := (cutRecords rec_ offs.length (ps.map Prod.fst)).map
                      (x.claimLines v.part.val (coreDie c))
                    .done (x.declare c n (mergeClaims recs) wide) none
                      ((if wide then 7 + 5 * ceilDiv count 2 else 4 + 3 * count) + Tail.cc t)

def execTxnClaim (c : CoreId) (t : Tail) (s : State) : Host.Outcome State Fault Refusal :=
  s.claiming c (.txnClaim c t) t false
def execTxnClaimx (c : CoreId) (t : Tail) (s : State) : Host.Outcome State Fault Refusal :=
  s.claiming c (.txnClaimx c t) t true

/-- Every claim of a transaction is granted. -/
def Slot.allGranted (v : Slot) : Bool := v.claims.all ClaimReg.granted

def execTxnWait (c : CoreId) (s : State) : Host.Outcome State Fault Refusal :=
  .next <| s.instr c (.txnWait c) fun cur t =>
    match t.coreSlot c with
    | none => .fault .txnState 0
    | some v =>
      if v.st = .aborted ∧ cur.soft then .done t none 2
      else if v.st ≠ .declared ∧ v.st ≠ .granted then .fault .txnState 0
      else if v.allGranted then .done t none 2
      else .wait t cur true

/-! ### Posting (R125, R126) -/

def ctlFw (w : Word) : Nat := (BitVec'.pos w 0 3).toNat
def ctlLw (w : Word) : Nat := (BitVec'.pos w 3 3).toNat
def ctlLword (w : Word) : Nat := (BitVec'.pos w 6 4).toNat
def ctlCheck (w : Word) : Nat := (BitVec'.pos w 10 2).toNat

/-- The control word breaks R125, for a field that starts at word f of its line; noCheck: CHECK must be 0. -/
def badControl (w : Word) (f : Nat) (noCheck : Bool) : Bool :=
  decide (ctlFw w = 0) || decide (16 < f + ctlFw w) || decide (ctlCheck w = 3) || decide (BitVec'.pos w 12 24 ≠ 0) ||
    (decide (ctlCheck w ≠ 0) && (noCheck || decide (ctlLw w = 0) || decide (16 < ctlLword w + ctlLw w)))

/-- Characters that the checks of a posting operation cover: the field when it lies within the line, otherwise the named
word (R126). -/
def postWidth (w : Word) (va : Nat) : Nat :=
  if ctlFw w ≠ 0 ∧ va % 64 / 4 + ctlFw w ≤ 16 then 4 * ctlFw w else 4

/-- Completes DPOST and DCAS: Wc := status, and Dx unless the operation was not issued. -/
def CoreRegs.posted (r : CoreRegs) (x : DReg) (w : Reg) (status : Nat) (dx : Int) : CoreRegs :=
  let r1 := r.setW w (BitVec.ofNat 36 status)
  if status = 8 then r1 else r1.setD x dx

/-- DPOST and DCAS of the core: checks, wait for the grant, and the request to the posting unit. -/
def State.posting (s : State) (c : CoreId) (i : Instr) (x : DReg) (w : Reg) (k : CoreRegs → Cap) (off : CoreRegs → Nat)
    (op : CoreRegs → AccOp) (cc : Nat) : Host.Outcome State Fault Refusal :=
  .next <| s.instr c i fun cur t =>
    match cur.post with
    | some (st, dx) => .done (t.updR c fun r => r.posted x w st dx) none cc
    | none =>
      let r := t.regs c
      let kn := k r
      let va := kn.base + off r
      let o : Operand := { cap := kn, va := va, len := postWidth (r.wr w) va, align := 4, need := .post }
      match t.checkOperand c cur.xlat o with
      | .fault cause a => .fault cause a
      | .walk a => .walk t cur a
      | .ok l =>
        if t.txnAborted c then .done (t.updR c fun r => r.posted x w 8 0) none cc
        else if t.ungranted c (l.map Prod.fst) then .wait t cur true
        else .await (t.send c (op r) false (l.map Prod.fst)) cur t.nextId

def execDpost (c : CoreId) (x : DReg) (w : Reg) (k : KReg) (o : PostOff) (s : State) : Host.Outcome State Fault Refusal :=
  s.posting c (.dpost c x w k o) x w (fun r => r.cap k.val) (fun _ => PostOff.chars o)
    (fun r => .dpost (r.wr w) (r.dr x)) 5
def execDcas (c : CoreId) (x y : DReg) (w : Reg) (t : Tail) (s : State) : Host.Outcome State Fault Refusal :=
  s.posting c (.dcas c x y w t) x w (fun r => Tail.cap r t) (fun r => Tail.offset r t)
    (fun r => .dcas (r.wr w) (r.dr x) (r.dr y)) (5 + Tail.cc t)

/-- DACC (R126). A bad control word is answered before ACCFULL, an order that R126 does not give: DESIGN CHOICE, log entry 69. -/
def execDacc (c : CoreId) (x : DReg) (w : Reg) (k : KReg) (o : PostOff) (s : State) : Host.Outcome State Fault Refusal :=
  .next <| s.instr c (.dacc c x w k o) fun cur t =>
    let r := t.regs c
    let kn := r.cap k.val
    let va := kn.base + PostOff.chars o
    let ctl := r.wr w
    let op : Operand := { cap := kn, va := va, len := postWidth ctl va, align := 4, need := .dacc }
    match t.checkOperand c cur.xlat op with
    | .fault cause a => .fault cause a
    | .walk a => .walk t cur a
    | .ok l =>
      match (t.core c).txn, l with
      | some n, (q, _) :: _ =>
        let v := t.slot (coreDie c) n
        let done (y : State) (status : Nat) : Act := .done (y.updR c fun r => r.setW w (BitVec.ofNat 36 status)) none 4
        if v.st = .aborted then done t 8
        else if v.st ≠ .declared ∧ v.st ≠ .granted then .fault .txnState 0
        else if badControl ctl (va % 64 / 4) true then done t 6
        else if 16 ≤ v.acc.length then done t 9
        else match t.target v.part.val (coreDie c) q.pa with
          | none => done t 6
          | some (d, line) =>
            done (t.setSlot (coreDie c) n { v with acc := v.acc ++
              [{ die := d, line := line, word := q.pa % 64 / 4, fw := ctlFw ctl, x := r.dr x, va := va, key := q.key,
                 sys := q.sys, waited := false }] }) 0
      | _, _ => .fault .txnState 0

/-! ### Responses (R130, R137, R350, R355) -/

/-- The die whose departure queue takes the response: in a tandem-mode partition the core's own, else the landing die. -/
def State.respDie (s : State) (d : Nat) (v : Slot) : Nat := if (s.tandemOf v.part.val).isSome then d else v.org.port / 4

/-- Releases from the cache the responses at the head of a departure queue until n words are free, at most fuel packets. -/
def State.evict (s : State) (d p q n : Nat) : Nat → State
  | 0 => s
  | fuel + 1 =>
    let r := s.queue d p q
    let x := r.read (s.die d).qram r.rptr
    if n ≤ r.spare ∨ r.wptr = r.rptr ∨ lwType x ≠ 4 then s
    else
      let s1 := s.retirePacket d p q r.rptr
      let s2 := s1.updPort (4 * d + (q - 4)) fun z =>
        { z with cached := z.cached.filter fun e => !(decide (e.part.val = p) && decide (e.ptr = r.rptr)) }
      s2.evict d p q n fuel

/-- Units of 8 bytes that a response takes in the hub's store for the host (R455, R456). -/
def HostResp.bytes (r : HostResp) : Nat := 8 * (3 + ceilDiv r.body.length 8)

/-- Places a response for slot n of die d; none while there is no room. A follower's are CACHED at once (R370). -/
def State.placeResponse (s : State) (d n : Nat) (body : List Octet) : Option State :=
  let v := s.slot d n
  let p := v.part.val
  if v.org.host then
    if s.h.mirror.role = 2 then some (s.setSlot d n { v with resp := some body, departed := true }) else
    let l := Sparse.get [] s.h.host.resp p
    let r : HostResp :=
      { q := v.org.port + 2, outcome := 0, tag := v.org.tag.truncate 16, pos := v.pos, epoch := some (s.slotEpoch v),
        body := body }
    if l.any fun x => decide (x.pos = v.pos) then some (s.setSlot d n { v with resp := some body })
    else if 65536 < (l.map HostResp.bytes).sum + r.bytes then none
    else
      let s1 := s.updHost fun x => { x with resp := Sparse.set [] x.resp p (l ++ [r]) }
      some (s1.setSlot d n { v with resp := some body })
  else
    let rd := s.respDie d v
    if (s.die rd).fenced then some (s.setSlot d n { v with resp := some body, departed := true })
    else
      let g := v.org.port % 4
      let mute := decide (s.h.mirror.role = 2)
      let need := 1 + (s.queue rd p (4 + g)).payload body.length
      let s1 := s.evict rd p (4 + g) need (s.queue rd p (4 + g)).used
      let head : List Word :=
        [BitVec.ofNat 36 (n * 2 ^ 27 + s.slotEpoch v % 2 ^ 27), v.org.sid.zeroExtend 36, v.org.seq.zeroExtend 36,
          v.org.tag.zeroExtend 36]
      if !(s1.queue rd p (4 + g)).en then none
      else match s1.putPacket rd p (4 + g) (lengthWord (if mute then 4 else 1) g body.length)
          (head ++ (s1.queue rd p (4 + g)).bodyWords body) with
        | none => none
        | some (s2, ptr) =>
          let e : Cached :=
            { part := v.part, die := d, slot := n, departed := mute, epoch := s.slotEpoch v, sid := v.org.sid,
              seq := v.org.seq, tag := v.org.tag, peer := v.org.peer, sends := 0, due := 0, tick := s.tick, ptr := ptr, retx := false }
          some ((s2.updPort (4 * rd + g) fun z => { z with cached := z.cached ++ [e] }).setSlot d n
            { v with resp := some body, departed := mute })

def execTxnRespond (c : CoreId) (l : Reg) (t : Tail) (s : State) : Host.Outcome State Fault Refusal :=
  .next <| s.instr c (.txnRespond c l t) fun cur x =>
    let r := x.regs c
    let len := (r.wr l).toNat
    let cc := 6 + Tail.cc t
    match (x.core c).txn with
    | none => .fault .txnState 0
    | some n =>
      let v := x.slot (coreDie c) n
      if v.resp.isSome ∨ (v.st ≠ .taken ∧ v.st ≠ .declared ∧ v.st ≠ .granted ∧ v.st ≠ .aborted) then .fault .txnState 0
      else if len = 0 ∨ 2048 < len then .fault .responseLength 0
      else x.reading c cur 0 [Tail.operand r t len 0 .load] fun cur1 chars =>
        if v.st = .aborted then .done x none cc
        else match x.placeResponse (coreDie c) n (octetsOfChars chars) with
          | some y => .done y none cc
          | none => .wait x cur1 false

/-! ### Resolution (R129 to R131, R135) -/

/-- Writes a line with its key and state. -/
def State.putLine (s : State) (d l : Nat) (chars : List Chr) (info : LineMeta) : State :=
  s.updDie d fun e => { e with m := { e.m with
    mem := Sparse.setList 0 e.m.mem (64 * l) chars, info := Sparse.set LineMeta.reset e.m.info l info } }

/-- The before-image was saved by the transaction that slot n of die d holds. -/
def State.ownImage (s : State) (d n : Nat) (g : Image) : Bool :=
  !g.join && (match g.owner with
    | some (o, m) => decide (o.val = d) && decide (m = n) && decide (g.epoch = s.slotEpoch (s.slot d n))
    | none => false)

/-- Sends the releases of every claim of slot n of die d, and gives back a borrowed set of claim registers (R115). -/
def State.releaseClaims (s : State) (d n : Nat) : State :=
  let s1 := (s.slot d n).claims.foldl (fun x q =>
    if hq : q.die < 8 then
      if hd : d < 8 then x.post (.claimRelease ⟨q.die, hq⟩ q.line n ⟨d, hd⟩) else x
    else x) s
  let s2 := iter 8 (fun k x => x.updCluster (8 * d + k) fun z => { z with pool := z.pool.filter (· ≠ n) }) s1
  s2.updSlot d n fun v => { v with claims := [], borrowed := false }

/-- Frees a slot (R135); its admit packet is RETIRED (R354). -/
def State.freeSlot (s : State) (d n : Nat) : State :=
  let v := s.slot d n
  let s1 := match v.place with
    | some ptr => s.retirePacket d v.part.val 0 ptr
    | none => s
  s1.setSlot d n .reset

/-- Frees slot n of die d once R135 allows. -/
def State.tryFree (s : State) (d n : Nat) : State :=
  let v := s.slot d n
  let gone := v.resp.isNone || v.departed
  match v.st, v.outcome with
  | .committed, _ =>
    if v.core.isNone ∧ epochLe (s.slotEpoch v) (s.visibleAt d v.part.val) ∧ (gone ∧ (v.departed ∨ ¬ v.org.host)) then s.freeSlot d n
    else s
  | .aborted, some .curfew => if v.restored ∧ v.core.isNone ∧ v.departed then s.freeSlot d n else s
  | .aborted, some .memerr => if v.restored ∧ v.core.isNone ∧ (v.departed ∨ ¬ v.org.host) then s.freeSlot d n else s
  | .aborted, _ =>
    if v.restored ∧ v.core.isNone ∧ (gone ∧ (v.departed ∨ ¬ v.org.host)) then s.freeSlot d n else s
  | _, _ => s

/-- The core lets go of its transaction (R130). -/
def State.letGo (s : State) (c : CoreId) (n : Nat) : State :=
  ((s.updSlot (coreDie c) n fun v => { v with core := none }).updCore c fun k => { k with txn := none }).tryFree (coreDie c) n

/-- Ws of TXN.COMMIT and TXN.ABORT (R130); 2 for a transaction that a re-execution has taken back (R360). -/
def resolveResult (abort : Bool) (n : Nat) (o : Outcome) : Word :=
  if 512 ≤ n then 2
  else match o with
  | .committed => 0
  | .software => 1
  | _ => if abort then 2 else 1

/-- TXN.COMMIT and TXN.ABORT up to the gate's answer. -/
def State.resolving (s : State) (c : CoreId) (i : Instr) (ws : Reg) (abort : Bool) : Host.Outcome State Fault Refusal :=
  .next <| s.instr c i fun cur t =>
    match (t.core c).txn with
    | none => .fault .txnState 0
    | some n =>
      let d := coreDie c
      let v := t.slot d n
      match v.st, v.outcome with
      | .aborted, some o => .done ((t.updR c fun r => r.setW ws (resolveResult abort n o)).letGo c n) none 8
      | .committed, some o => .done ((t.updR c fun r => r.setW ws (resolveResult abort n o)).letGo c n) none 8
      | _, _ =>
        if !v.allGranted || t.storesOut c then .wait t cur false
        else if hd : d < 8 then
          .gate ((t.setSlot d n { v with st := .resolving }).post (.resolve ⟨d, hd⟩ n v.pos (if abort then .abort else .commit))) cur
        else .wait t cur false

def execTxnCommit (c : CoreId) (ws : Reg) (s : State) : Host.Outcome State Fault Refusal :=
  s.resolving c (.txnCommit c ws) ws false
def execTxnAbort (c : CoreId) (ws : Reg) (s : State) : Host.Outcome State Fault Refusal :=
  s.resolving c (.txnAbort c ws) ws true

end Sys2Proof.Machine
end

