-- ==== Sys2Proof/Machine/Decimal.lean ====
section
/-! DEFINITION. Decimal instructions (R228 to R245) and the result of the decimal beside unit (R234). -/

namespace Sys2Proof.Machine

/-- Largest magnitude in a decimal register, plus one (R228). -/
def decLimit : Nat := 10 ^ 62

/-- Dx := v, or DECIMAL_OVERFLOW (R228). -/
def State.decResult (t : State) (c : CoreId) (x : DReg) (v : Int) (cc : Nat) : Act :=
  if v.natAbs < decLimit then .done (t.updR c fun r => r.setD x v) none cc else .fault .decimalOverflow 0

def State.decOpr (s : State) (c : CoreId) (i : Instr) (x : DReg) (cc : Nat) (f : CoreRegs → Int) :
    Host.Outcome State Fault Refusal :=
  .next (s.instr c i fun _ t => t.decResult c x (f (t.regs c)) cc)

def execDadd (c : CoreId) (x y : DReg) (s : State) : Host.Outcome State Fault Refusal :=
  s.decOpr c (.dadd c x y) x 4 fun r => r.dr x + r.dr y
def execDsub (c : CoreId) (x y : DReg) (s : State) : Host.Outcome State Fault Refusal :=
  s.decOpr c (.dsub c x y) x 4 fun r => r.dr x - r.dr y
def execDcmp (c : CoreId) (d : Reg) (x y : DReg) (s : State) : Host.Outcome State Fault Refusal :=
  s.regOp c (.dcmp c d x y) 3 fun r => r.setW d (cmpWord (r.dr x) (r.dr y))
def execDmov (c : CoreId) (x y : DReg) (s : State) : Host.Outcome State Fault Refusal :=
  s.regOp c (.dmov c x y) 2 fun r => r.setD x (r.dr y)
def execDneg (c : CoreId) (x : DReg) (s : State) : Host.Outcome State Fault Refusal :=
  s.regOp c (.dneg c x) 2 fun r => r.setD x (-r.dr x)
def execDabs (c : CoreId) (x : DReg) (s : State) : Host.Outcome State Fault Refusal :=
  s.regOp c (.dabs c x) 2 fun r => r.setD x (r.dr x).natAbs
def execDclr (c : CoreId) (x : DReg) (s : State) : Host.Outcome State Fault Refusal :=
  s.regOp c (.dclr c x) 2 fun r => r.setD x 0
def execDshl (c : CoreId) (x : DReg) (n : BitVec 6) (s : State) : Host.Outcome State Fault Refusal :=
  s.decOpr c (.dshl c x n) x 3 fun r => r.dr x * 10 ^ n.toNat

/-- The rounding mode of an RM field (R224). -/
def CoreRegs.decMode (r : CoreRegs) (rm : BitVec 3) : Nat := if rm = 7 then r.govDmode.toNat % 8 else rm.toNat

def execDrnd (c : CoreId) (x : DReg) (n : BitVec 6) (rm : BitVec 3) (s : State) : Host.Outcome State Fault Refusal :=
  s.regOp c (.drnd c x n rm) 4 fun r => r.setD x (roundDec (r.decMode rm) (r.dr x) (10 ^ n.toNat))

/-! ### Multiply and divide (R234 to R237) -/

/-- Starts the decimal beside unit: the instruction takes cc cycles and 1 more at LEND (R213), the result comes after
lat more. -/
def State.startDec (t : State) (c : CoreId) (cc lat : Nat) (writes : List (Nat × Int)) (movf : Bool) : Act :=
  .done (t.updCore c fun k => { k with
    u := { k.u with dec := some { writes := writes, movf := movf, due := k.r.cnt.clk + k.withTest cc + lat } } }) none cc

/-- The product as DMUL writes it: |p| modulo 10^62 with the sign of p (R235). -/
def wrapDec (p : Int) : Int := if p < 0 then -((p.natAbs % decLimit : Nat) : Int) else ((p.natAbs % decLimit : Nat) : Int)

def State.decProduct (t : State) (c : CoreId) (x : DReg) (p : Int) (cc : Nat) : Act :=
  t.startDec c cc 24 [(x.val, wrapDec p)] (decide (decLimit ≤ p.natAbs))

def execDmul (c : CoreId) (x y : DReg) (s : State) : Host.Outcome State Fault Refusal :=
  .next <| s.instr c (.dmul c x y) fun _ t => t.decProduct c x ((t.regs c).dr x * (t.regs c).dr y) 3

def execDmulw (c : CoreId) (x y : DReg) (s : State) : Host.Outcome State Fault Refusal :=
  .next <| s.instr c (.dmulw c x y) fun _ t =>
    let p := (t.regs c).dr x * (t.regs c).dr y
    let hi : Int := (p.natAbs / decLimit : Nat)
    t.startDec c 3 28 [(x.val, if p < 0 then -hi else hi), ((x + 1).val, wrapDec p)] false

def execDdiv (c : CoreId) (x y z : DReg) (rm : BitVec 3) (s : State) : Host.Outcome State Fault Refusal :=
  .next <| s.instr c (.ddiv c x y z rm) fun _ t =>
    let r := t.regs c
    let a := r.dr x
    let b := r.dr y
    if b = 0 then .fault .decimalDivide 0
    else
      let q := roundDec (r.decMode rm) (if b < 0 then -a else a) b.natAbs
      t.startDec c 3 96 [(x.val, q), (z.val, a - q * b)] false

/-- The decimal unit writes its result once it is due. -/
def execDecimalUnitResult (c : CoreId) (s : State) : Host.Outcome State Fault Refusal :=
  let k := s.core c
  match k.u.dec with
  | none => .next s
  | some o =>
    if k.r.cnt.clk < o.due then .next s
    else
      let d := o.writes.foldl (fun m w => Sparse.set 0 m w.1 w.2) k.r.d
      let sp := if o.movf then { k.r.sp with dmode := k.r.sp.dmode ||| 8 } else k.r.sp
      .next (s.setCore c { k with r := { k.r with d := d, sp := sp }, u := { k.u with dec := none } })

/-! ### Packed fields in memory (R238 to R240) -/

/-- Reads the packed field of n words that the tail names; DECIMAL_DATA at its first invalid symbol (R45). -/
def State.packed (s : State) (c : CoreId) (i : Instr) (t : Tail) (n : BitVec 3) (f : State → Int → Act) :
    Host.Outcome State Fault Refusal :=
  .next <| s.instr c i fun cur x =>
    let r := x.regs c
    x.reading c cur 0 [Tail.operand r t (4 * n.toNat) 4 .load] fun _ l =>
      let ws := wordsOfChars l
      match packedValue ws with
      | some v => f x v
      | none => .fault .decimalData (Tail.va r t + 4 * (firstInvalid ws).getD 0)

def execDldw (c : CoreId) (x : DReg) (n : BitVec 3) (t : Tail) (s : State) : Host.Outcome State Fault Refusal :=
  s.packed c (.dldw c x n t) t n fun y v => .done (y.updR c fun r => r.setD x v) none (4 + Tail.cc t)
def execDaddm (c : CoreId) (x : DReg) (n : BitVec 3) (t : Tail) (s : State) : Host.Outcome State Fault Refusal :=
  s.packed c (.daddm c x n t) t n fun y v => y.decResult c x ((y.regs c).dr x + v) (5 + Tail.cc t)
def execDsubm (c : CoreId) (x : DReg) (n : BitVec 3) (t : Tail) (s : State) : Host.Outcome State Fault Refusal :=
  s.packed c (.dsubm c x n t) t n fun y v => y.decResult c x ((y.regs c).dr x - v) (5 + Tail.cc t)
def execDcmpm (c : CoreId) (d : Reg) (x : DReg) (n : BitVec 3) (t : Tail) (s : State) : Host.Outcome State Fault Refusal :=
  s.packed c (.dcmpm c d x n t) t n fun y v =>
    .done (y.updR c fun r => r.setW d (cmpWord (r.dr x) v)) none (5 + Tail.cc t)
def execDmulm (c : CoreId) (x : DReg) (n : BitVec 3) (t : Tail) (s : State) : Host.Outcome State Fault Refusal :=
  s.packed c (.dmulm c x n t) t n fun y v => y.decProduct c x ((y.regs c).dr x * v) (4 + Tail.cc t)

/-- Stages 1 to 6 of one operand come before an instruction's own causes (R175). -/
def State.precheck (s : State) (c : CoreId) (cur : Cur) (o : Operand) (f : Act) : Act :=
  if cur.rounds ≠ [] then f
  else match s.checkOperand c cur.xlat o with
    | .fault cause a => .fault cause a
    | .walk va => .walk s cur va
    | .ok _ => f

def execDstw (c : CoreId) (x : DReg) (n : BitVec 3) (t : Tail) (s : State) : Host.Outcome State Fault Refusal :=
  .next <| s.instr c (.dstw c x n t) fun cur y =>
    let r := y.regs c
    let o := Tail.operand r t (4 * n.toNat) 4 .store
    y.precheck c cur o <|
      if !fitsDigits (9 * n.toNat - 1) (r.dr x) then .fault .decimalOverflow 0
      else y.storing c cur 0 [o] .write true ((packWords n.toNat (r.dr x)).flatMap Word.chars) fun _ z =>
        .done z none (4 + Tail.cc t)

/-! ### Conversions (R241 to R245) -/

def execCvbd (c : CoreId) (x : DReg) (a : Reg) (s : State) : Host.Outcome State Fault Refusal :=
  s.regOp c (.cvbd c x a) 24 fun r => r.setD x (r.wr a).toInt
def execCvbdL (c : CoreId) (x : DReg) (a : Reg) (s : State) : Host.Outcome State Fault Refusal :=
  s.regOp c (.cvbdL c x a) 40 fun r => r.setD x (r.pair a).toInt
def execCvdb (c : CoreId) (d : Reg) (x : DReg) (s : State) : Host.Outcome State Fault Refusal :=
  .next <| s.instr c (.cvdb c d x) fun _ t =>
    let v := (t.regs c).dr x
    if v < -2 ^ 35 ∨ 2 ^ 35 ≤ v then .fault .decimalOverflow 0
    else .done (t.updR c fun r => r.setW d (BitVec.ofInt 36 v)) none 20
def execCvdbL (c : CoreId) (d : Reg) (x : DReg) (s : State) : Host.Outcome State Fault Refusal :=
  .next <| s.instr c (.cvdbL c d x) fun _ t =>
    let v := (t.regs c).dr x
    if v < -2 ^ 71 ∨ 2 ^ 71 ≤ v then .fault .decimalOverflow 0
    else .done (t.updR c fun r => r.setPair d (BitVec.ofInt 72 v)) none 36

/-- Progress of the parse of CVCD (R243). -/
structure Parse where
  i : Nat
  neg : Bool
  point : Bool
  digits : Nat
  frac : Nat
  v : Nat
  st : Nat
  deriving DecidableEq, Repr

/-- Leading spaces of a code list. -/
def spacesOf (l : List Nat) : Nat := (l.takeWhile (· = 0o040)).length

/-- The digit loop. -/
def parseDigits : List Nat → Parse → Parse
  | [], p => p
  | x :: l, p =>
    if 0o060 ≤ x ∧ x ≤ 0o071 then
      if p.digits = 62 then { p with st := 2 }
      else parseDigits l { p with v := 10 * p.v + (x - 0o060), digits := p.digits + 1,
                                  frac := if p.point then p.frac + 1 else p.frac, i := p.i + 1 }
    else if x = 0o056 ∧ ¬ p.point then parseDigits l { p with point := true, i := p.i + 1 }
    else p

/-- The parse of CVCD over the codes of its characters. -/
def parseNumber (l : List Nat) : Parse :=
  let i := spacesOf l
  let sign := l.getD i 0
  let signed := decide (i < l.length) && (decide (sign = 0o053) || decide (sign = 0o055))
  let i1 := if signed then i + 1 else i
  let p := parseDigits (l.drop i1)
    { i := i1, neg := signed && decide (sign = 0o055), point := false, digits := 0, frac := 0, v := 0, st := 0 }
  if p.st ≠ 0 then p
  else
    let j := p.i + spacesOf (l.drop p.i)
    { p with i := j, st := if j < l.length then 1 else if p.digits = 0 then 3 else 0 }

/-- Wc of CVCD (R244). -/
def Parse.word (p : Parse) : Word := BitVec.ofNat 36 (p.st * 2 ^ 30 + p.i * 2 ^ 18 + p.digits * 64 + p.frac)

def execCvcd (c : CoreId) (x : DReg) (w : Reg) (k : KReg) (wx : Reg) (s : State) : Host.Outcome State Fault Refusal :=
  .next <| s.instr c (.cvcd c x w k wx) fun cur t =>
    let r := t.regs c
    let len := (r.wr w).toNat % 2 ^ 18
    if len = 0 ∨ 64 < len then .done (t.updR c fun q => q.setW w (BitVec.ofNat 36 (4 * 2 ^ 30))) none 8
    else
      let o : Operand :=
        { cap := r.cap k.val, va := (r.cap k.val).base + (r.wr wx).toNat, len := len, align := 0, need := .load }
      t.reading c cur 0 [o] fun _ l =>
        let p := parseNumber (l.map fun a => (Chr.code a).toNat)
        .done (t.updR c fun q =>
          (if p.st = 0 then q.setD x (if p.neg then -(p.v : Int) else p.v) else q).setW w p.word) none (8 + ceilDiv len 2)

def execCvdc (c : CoreId) (x : DReg) (w : Reg) (k : KReg) (wx : Reg) (s : State) : Host.Outcome State Fault Refusal :=
  .next <| s.instr c (.cvdc c x w k wx) fun cur t =>
    let r := t.regs c
    let n := min ((r.wr w).toNat % 2 ^ 18) 62
    let cc := 6 + ceilDiv n 2
    if n = 0 then .done t none cc
    else
      let v := r.dr x
      let o : Operand :=
        { cap := r.cap k.val, va := (r.cap k.val).base + (r.wr wx).toNat, len := n, align := 0, need := .store }
      t.precheck c cur o <|
        if !fitsDigits n v then .fault .decimalOverflow 0
        else t.storing c cur 0 [o] .write false ((digitsOf n v.natAbs).map fun d => BitVec.ofNat 9 (0o060 + d)) fun _ y =>
          .done y none cc

end Sys2Proof.Machine
end

