-- ==== Sys2Proof/Machine/Strings.lean ====
section
/-! DEFINITION. String and edit instructions, their interruption and resumption (R246 to R262). -/

namespace Sys2Proof.Machine

/-! ### Interruption state (R250) -/

/-- W28 to W30 for the next unit. -/
def progWords (i : Instr) (p : StrProg) : Word × Word × Word :=
  match i with
  | .movem .. => (BitVec.ofNat 36 p.n, BitVec.ofNat 36 p.m, BitVec.ofNat 36 (bit p.f0 * 2 ^ 35 + bit p.f1 * 2 ^ 34))
  | .edit .. =>
    (BitVec.ofNat 36 p.n, BitVec.ofNat 36 p.m,
      BitVec.ofNat 36 (bit p.f0 * 2 ^ 35 + p.k % 64 * 2 ^ 28 + p.lead % 64 * 2 ^ 22))
  | _ => (BitVec.ofNat 36 p.n, 0, 0)

/-- The next unit that W28 to W30 name. -/
def wordsProg (i : Instr) (a b d : Word) : StrProg :=
  match i with
  | .movem .. => { n := a.toNat, m := b.toNat, f0 := BitVec'.at' d 0, f1 := BitVec'.at' d 1, k := 0, lead := 0 }
  | .edit .. =>
    { n := a.toNat, m := b.toNat, f0 := BitVec'.at' d 0, f1 := false, k := (BitVec'.pos d 2 6).toNat,
      lead := (BitVec'.pos d 8 6).toNat }
  | _ => { n := a.toNat, m := 0, f0 := false, f1 := false, k := 0, lead := 0 }

/-- W31: MINOR, F and G of the encoding. -/
def stateWord (i : Instr) : Word :=
  BitVec.ofNat 36 (i.minor % 1024 * 2 ^ 26 + i.fg.1.toNat * 2 ^ 23 + i.fg.2.toNat * 2 ^ 19)

/-- The state is written and CTL.SRES set (R250). -/
def State.saveString (s : State) (c : CoreId) (i : Instr) (p : StrProg) : State :=
  let (a, b, d) := progWords i p
  s.updCore c fun k => (k.updR fun r =>
    { r with w := Sparse.set 0 (Sparse.set 0 (Sparse.set 0 (Sparse.set 0 r.w 28 a) 29 b) 30 d) 31 (stateWord i) }).updCtl
      fun t => { t with sres := true }

/-- Setup count of a string instruction (R253). -/
def stringSetup : Instr → Nat
  | .edit .. => 8
  | _ => 6

/-! ### The run of units (R247, R249 to R253) -/

/-- What a unit answers. -/
inductive UnitRes where
  /-- performed: the next unit, the state, its cycles -/
  | next (p : StrProg) (s : State) (cost : Nat)
  /-- not performed: what its access meets (R249) or waits for -/
  | act (a : Act)
  /-- a cause of the instruction's own (R261) -/
  | own (cause : Cause) (faddr : Nat)

/-- One string instruction with its registers read. -/
structure StrOp where
  instr : Instr
  operands : List Operand
  ended : StrProg → Bool
  /-- the cases of R252 after the first and the third -/
  valid : StrProg → Bool
  /-- a cause of its own in a run without units -/
  empty : Option Cause
  unit : Cur → State → UnitRes
  result : StrProg → CoreRegs → CoreRegs

/-- A run of characters as an operand. -/
def strOperand (k : Cap) (off : Word) (len : Nat) (need : Need) : Operand :=
  { cap := k, va := k.base + off.toNat, len := len, align := 0, need := need }

/-- n characters of an operand from offset at. -/
def Operand.sub (o : Operand) (at_ n : Nat) : Operand := { o with va := o.va + at_, len := n }

/-- The checks of R246, operand by operand. -/
def checkString : List Operand → Option (Cause × Nat)
  | [] => none
  | o :: os =>
    if o.len = 0 then checkString os
    else if !o.rights then some (.capRights, o.va)
    else if !o.cap.covers o.va o.len then
      some (.capBounds, if o.va < o.cap.base then o.va else max o.va o.cap.top)
    else checkString os

/-- A fault of R249 takes the interruption state with it and counts the run so far (R253). SCRATCH_RANGE, REGION_KIND and CLAIM_MISSING
met inside an operand, which neither R246 nor R249 lists, are raised at their unit in the same way: DESIGN CHOICE, log entry 69. -/
def State.strAct (c : CoreId) (cur : Cur) (s : State) : Act → Act
  | .fault cause a =>
    .stop ((s.saveString c cur.instr cur.prog).updCore c (·.count (·.addCycles (stringSetup cur.instr + cur.cost)))) cause a
  | .stop s' cause a =>
    .stop ((s'.saveString c cur.instr cur.prog).updCore c (·.count (·.addCycles (stringSetup cur.instr + cur.cost)))) cause a
  | a => a

/-- Units one after another (R247); n bounds them. The run pauses at a unit boundary for whatever the core can take, a pending
TARGET_VIOLATION or FLOAT_TRAP among them, of which R250 does not speak: DESIGN CHOICE, log entry 69. -/
def StrOp.run (op : StrOp) (c : CoreId) : Nat → Cur → State → Act
  | 0, cur, s => .wait s cur true
  | n + 1, cur, s =>
    if op.ended cur.prog then
      .done (s.updR c (op.result cur.prog)) none (stringSetup op.instr + cur.cost)
    else match op.unit cur s with
      | .act a => State.strAct c cur s a
      | .own cause a => if cur.resumed then .stop (s.saveString c op.instr cur.prog) cause a else .fault cause a
      | .next p s' cost =>
        let cur' := { cur with prog := p, rounds := [], xlat := [], resumed := false, cost := cur.cost + cost, soft := false }
        if (s'.core c).takeable.isSome && !op.ended p then
          .pause (s'.saveString c op.instr p) (stringSetup op.instr + cur'.cost)
        else op.run c n cur' s'

/-- Most units that an operand of L characters takes. -/
def unitBound (l : Nat) : Nat := 2 * l + 2

/-- A string instruction: checks, resumption, units (R246, R251, R252). -/
def StrOp.body (op : StrOp) (c : CoreId) (bound : Nat) (cur : Cur) (s : State) : Act :=
  if cur.begun then op.run c bound cur s
  else match checkString op.operands with
    | some (cause, a) => .fault cause a
    | none =>
      let r := s.regs c
      let fresh := { cur with begun := true }
      if !r.ctl.sres then
        match op.empty with
        | some cause => .fault cause 0
        | none => op.run c bound fresh s
      else
        let s1 := s.updCore c fun k => k.updCtl fun t => { t with sres := false }
        let word (n : Nat) : Word := Sparse.get 0 r.w n
        let p := wordsProg op.instr (word 28) (word 29) (word 30)
        if word 31 ≠ stateWord op.instr ∨ progWords op.instr p ≠ (word 28, word 29, word 30) ∨ ¬ op.valid p then
          .stop s1 .stringState 0
        else op.run c bound { fresh with prog := p, resumed := true } s1

def State.string (s : State) (c : CoreId) (i : Instr) (bound : CoreRegs → Nat) (op : CoreRegs → StrOp) :
    Host.Outcome State Fault Refusal :=
  .next <| s.instr c i fun cur t => (op (t.regs c)).body c (bound (t.regs c)) cur t

/-! ### MOVC, FILLC (R254, R255) -/

/-- Characters of the next destination word. -/
def wordUnit (o : Operand) (n : Nat) : Nat := min (o.len - n) (4 - (o.va + n) % 4)

/-- Stores one run of characters of the destination, then the unit is done. -/
def storeUnit (c : CoreId) (cur : Cur) (s : State) (round : Nat) (o : Operand) (data : List Chr) (p : StrProg) (cost : Nat) :
    UnitRes :=
  match s.tryStore c cur round [o] .write false data with
  | .error a => .act a
  | .ok (_, s') => .next p s' cost

/-- Reads one run of characters of an operand, then the rest of the unit. Nothing is read ahead, as R248 allows: DESIGN CHOICE, log
entry 69. -/
def readUnit (c : CoreId) (cur : Cur) (s : State) (round : Nat) (os : List Operand) (f : Cur → List Chr → UnitRes) : UnitRes :=
  match s.tryRead c cur round os with
  | .error a => .act a
  | .ok (cur', l) => f cur' l

/-- A resumed MOVC or FILLC stands at a destination word (R252). -/
def wordValid (o : Operand) (p : StrProg) : Bool := decide (p.n < o.len) && (decide (p.n = 0) || decide ((o.va + p.n) % 4 = 0))

/-- What MOVC stores of the source characters of one destination word, the destination k characters above the source: one that
the unit itself has written is read as written (R247, R254). -/
def movcData (k : Nat) (l : List Chr) : List Chr :=
  if 0 < k ∧ k < l.length then (List.range l.length).map fun i => l.getD (i % k) 0 else l

def movcOp (c : CoreId) (i : Instr) (d a : Operand) : StrOp where
  instr := i
  operands := [d, a]
  ended p := decide (d.len ≤ p.n)
  valid := wordValid d
  empty := none
  unit cur s :=
    let n := cur.prog.n
    let m := wordUnit d n
    readUnit c cur s 0 [a.sub n m] fun cur' l => storeUnit c cur' s 1 (d.sub n m) (movcData (d.va - a.va) l) { cur.prog with n := n + m } 2
  result _ r := r

def execMovc (c : CoreId) (kd : KReg) (wd : Reg) (ks : KReg) (ws wl : Reg) (s : State) : Host.Outcome State Fault Refusal :=
  s.string c (.movc c kd wd ks ws wl) (fun r => unitBound (r.wr wl).toNat) fun r =>
    let len := (r.wr wl).toNat
    movcOp c (.movc c kd wd ks ws wl) (strOperand (r.cap kd.val) (r.wr wd) len .store)
      (strOperand (r.cap ks.val) (r.wr ws) len .load)

def fillcOp (c : CoreId) (i : Instr) (d : Operand) (ch : Chr) : StrOp where
  instr := i
  operands := [d]
  ended p := decide (d.len ≤ p.n)
  valid := wordValid d
  empty := none
  unit cur s :=
    let n := cur.prog.n
    let m := wordUnit d n
    storeUnit c cur s 0 (d.sub n m) (List.replicate m ch) { cur.prog with n := n + m } 1
  result _ r := r

def execFillc (c : CoreId) (kd : KReg) (wd wl wf : Reg) (s : State) : Host.Outcome State Fault Refusal :=
  s.string c (.fillc c kd wd wl wf) (fun r => unitBound (r.wr wl).toNat) fun r =>
    fillcOp c (.fillc c kd wd wl wf) (strOperand (r.cap kd.val) (r.wr wd) (r.wr wl).toNat .store) ((r.wr wf).truncate 9)

/-! ### MOVEM (R256) -/

/-- The copy loop of MOVEM has come to its end. -/
def copyEnded (len : Nat) (p : StrProg) : Bool := p.f0 || decide (len ≤ p.n)

/-- Progress after a source character: padding begins once copying has ended and characters remain. -/
def movemNext (len : Nat) (pad : Bool) (p : StrProg) : StrProg :=
  { p with f1 := copyEnded len p && pad && decide (p.m < len) }

/-- Characters copied, from the characters examined: the delimiter and a skipped start character are not copied. -/
def movemCopied (skip : Bool) (p : StrProg) : Nat := p.n - bit p.f0 - bit (skip && decide (1 ≤ p.n))

def movemOp (c : CoreId) (i : Instr) (d a : Operand) (skip strip pad : Bool) (wd ws wl : Reg) : StrOp where
  instr := i
  operands := [d, a]
  ended p := if p.f1 then decide (d.len ≤ p.m) else copyEnded d.len p
  valid p :=
    if p.f1 then
      pad && decide (p.m < d.len) && decide (p.n ≤ d.len) && decide (p.m ≤ p.n) && !(p.f0 && decide (p.m = p.n)) &&
        (p.f0 || decide (d.len ≤ p.n))
    else decide (p.n < d.len) && !p.f0 && decide (p.m ≤ p.n)
  empty := none
  unit cur s :=
    let p := cur.prog
    if p.f1 then storeUnit c cur s 0 (d.sub p.m 1) [0o040] { p with m := p.m + 1 } 1
    else readUnit c cur s 0 [a.sub p.n 1] fun cur' l =>
      let ch := l.headD 0
      let q := { p with n := p.n + 1 }
      if 1 ≤ p.n ∧ Chr.mark ch then .next (movemNext d.len pad { q with f0 := true }) s 2
      else if p.n = 0 ∧ skip then .next (movemNext d.len pad q) s 2
      else storeUnit c cur' s 1 (d.sub p.m 1) [if strip then Chr.mk false (Chr.code ch) else ch]
        (movemNext d.len pad { q with m := p.m + 1 }) 2
  result p r :=
    let n := movemCopied skip p
    ((r.setW ws (r.wr ws + BitVec.ofNat 36 (p.n - bit p.f0))).setW wd (r.wr wd + BitVec.ofNat 36 p.m)).setW wl
      (BitVec.ofNat 36 (bit p.f0 * 2 ^ 35 + n % 2 ^ 35))

def execMovem (c : CoreId) (kd : KReg) (wd : Reg) (ks : KReg) (ws wl : Reg) (skip strip pad : Bool) (s : State) :
    Host.Outcome State Fault Refusal :=
  s.string c (.movem c kd wd ks ws wl skip strip pad) (fun r => unitBound (r.wr wl).toNat) fun r =>
    let len := (r.wr wl).toNat
    movemOp c (.movem c kd wd ks ws wl skip strip pad) (strOperand (r.cap kd.val) (r.wr wd) len .store)
      (strOperand (r.cap ks.val) (r.wr ws) len .load) skip strip pad wd ws wl

/-! ### TR, SCAN, CMPC (R257 to R259) -/

/-- The 256 characters of a translation or class table. -/
def tableOperand (k : Cap) : Operand := { cap := k, va := k.base, len := 256, align := 0, need := .load }

/-- The character of a table for a code. -/
def tableAt (t : Operand) (ch : Chr) : Operand := t.sub (Chr.code ch).toNat 1

def trOp (c : CoreId) (i : Instr) (d a t : Operand) (tmark : Bool) : StrOp where
  instr := i
  operands := [d, a, t]
  ended p := decide (d.len ≤ p.n)
  valid p := decide (p.n < d.len)
  empty := none
  unit cur s :=
    let n := cur.prog.n
    readUnit c cur s 0 [a.sub n 1] fun cur1 l =>
      let ch := l.headD 0
      readUnit c cur1 s 1 [tableAt t ch] fun cur2 m =>
        let x := m.headD 0
        storeUnit c cur2 s 2 (d.sub n 1) [if tmark then x else Chr.mk (Chr.mark ch) (Chr.code x)]
          { cur.prog with n := n + 1 } 3
  result _ r := r

def execTr (c : CoreId) (kd : KReg) (wd : Reg) (ks : KReg) (ws wl : Reg) (kt : KReg) (tmark : Bool) (s : State) :
    Host.Outcome State Fault Refusal :=
  s.string c (.tr c kd wd ks ws wl kt tmark) (fun r => unitBound (r.wr wl).toNat) fun r =>
    let len := (r.wr wl).toNat
    trOp c (.tr c kd wd ks ws wl kt tmark) (strOperand (r.cap kd.val) (r.wr wd) len .store)
      (strOperand (r.cap ks.val) (r.wr ws) len .load) (tableOperand (r.cap kt.val)) tmark

/-- The class table of a SCAN. -/
def scanTable (r : CoreRegs) : ScanMode → Option Operand
  | .cls k => some (tableOperand (r.cap k.val))
  | .ncls k => some (tableOperand (r.cap k.val))
  | _ => none

def scanOp (c : CoreId) (i : Instr) (a : Operand) (x : BitVec 8) (m : ScanMode) (t : Option Operand) (wr : Reg) : StrOp where
  instr := i
  operands := a :: t.toList
  ended p := p.f0 || decide (a.len ≤ p.n)
  valid p := decide (p.n < a.len)
  empty := none
  unit cur s :=
    let p := cur.prog
    let stop (found : Bool) (cost : Nat) : UnitRes :=
      .next (if found then { p with f0 := true } else { p with n := p.n + 1 }) s cost
    readUnit c cur s 0 [a.sub p.n 1] fun cur1 l =>
      let ch := l.headD 0
      match m, t with
      | .eq, _ => stop (decide (Chr.code ch = x)) 1
      | .ne, _ => stop (decide (Chr.code ch ≠ x)) 1
      | .mark, _ => stop (Chr.mark ch) 1
      | .cls _, some t => readUnit c cur1 s 1 [tableAt t ch] fun _ y => stop (decide (Chr.code (y.headD 0) ≠ 0)) 3
      | _, some t => readUnit c cur1 s 1 [tableAt t ch] fun _ y => stop (decide (Chr.code (y.headD 0) = 0)) 3
      | _, none => stop false 3
  result p r := r.setW wr (BitVec.ofNat 36 (bit p.f0 * 2 ^ 35 + p.n % 2 ^ 35))

def execScan (c : CoreId) (wr : Reg) (ks : KReg) (ws wl : Reg) (m : ScanMode) (s : State) : Host.Outcome State Fault Refusal :=
  s.string c (.scan c wr ks ws wl m) (fun r => unitBound (r.wr wl).toNat) fun r =>
    scanOp c (.scan c wr ks ws wl m) (strOperand (r.cap ks.val) (r.wr ws) (r.wr wl).toNat .load) ((r.wr wr).truncate 8) m
      (scanTable r m) wr

/-- f0: a difference is found; f1: operand a's code is the lower. -/
def cmpcOp (c : CoreId) (i : Instr) (a b : Operand) (wl : Reg) : StrOp where
  instr := i
  operands := [a, b]
  ended p := p.f0 || decide (a.len ≤ p.n)
  valid p := decide (p.n < a.len)
  empty := none
  unit cur s :=
    let p := cur.prog
    readUnit c cur s 0 [a.sub p.n 1, b.sub p.n 1] fun _ l =>
      let x := Chr.code (l.headD 0)
      let y := Chr.code (l.getD 1 0)
      .next (if x = y then { p with n := p.n + 1 } else { p with f0 := true, f1 := x.ult y }) s 1
  result p r := r.setW wl <|
    if !p.f0 then 0 else if p.f1 then -(BitVec.ofNat 36 (p.n + 1)) else BitVec.ofNat 36 (p.n + 1)

def execCmpc (c : CoreId) (ka : KReg) (wa : Reg) (kb : KReg) (wb wl : Reg) (s : State) : Host.Outcome State Fault Refusal :=
  s.string c (.cmpc c ka wa kb wb wl) (fun r => unitBound (r.wr wl).toNat) fun r =>
    let len := (r.wr wl).toNat
    cmpcOp c (.cmpc c ka wa kb wb wl) (strOperand (r.cap ka.val) (r.wr wa) len .load)
      (strOperand (r.cap kb.val) (r.wr wb) len .load) wl

/-! ### EDIT (R260 to R262) -/

/-- Number of decimal digits of v below 10^62, from its first nonzero digit. -/
def digitCount (v : Nat) : Nat := ((List.range 63).find? fun n => decide (v < 10 ^ n)).getD 63

/-- LEAD (R261). -/
def editLead (n min_ v : Nat) : Nat := n - max (min min_ n) (digitCount v)

/-- A control other than ^# (R260). -/
def isControl (p : Chr) : Bool := decide (p ∈ [0o455, 0o453, 0o503, 0o522, 0o504, 0o502, 0o506])

/-- The character that a control other than ^# writes (R260). -/
def controlOut (p fill : Chr) (neg : Bool) : Chr :=
  if p = 0o455 then (if neg then 0o055 else fill)
  else if p = 0o453 then (if neg then 0o055 else 0o053)
  else if p = 0o503 then (if neg then 0o103 else fill)
  else if p = 0o522 then (if neg then 0o122 else fill)
  else if p = 0o504 then (if neg then fill else 0o104)
  else if p = 0o502 then (if neg then fill else 0o102)
  else fill

/-- The digit of position k of n; a resumed run may stand past the last position, where the digit is 0. -/
def editDigit (v n k : Nat) : Nat := if k < n then v / 10 ^ (n - 1 - k) % 10 else 0

/-- One output character of phase 1. -/
def editOut (p fill : Chr) (v : Int) (n k lead : Nat) : Chr :=
  if p = 0o443 then (if k < lead then fill else BitVec.ofNat 9 (0o060 + editDigit v.natAbs n k))
  else if !Chr.mark p then
    let leading := if n = 0 then false else if k < n then decide (k < lead) else decide (n - 1 < lead)
    if leading then fill else p
  else controlOut p fill (decide (v < 0))

/-- End of phase 0 (R261). -/
def editPhase (n min_ : Nat) (v : Int) : StrProg :=
  { n := 0, m := n, f0 := true, f1 := false, k := 0, lead := editLead n min_ v.natAbs }

def editOp (c : CoreId) (i : Instr) (d a : Operand) (v : Int) (fill : Chr) (min_ : Nat) (wl : Reg) : StrOp where
  instr := i
  operands := [d, a]
  ended p := decide (d.len = 0) || (p.f0 && decide (d.len ≤ p.n))
  valid p :=
    decide (p.n < d.len) && decide (p.m ≤ 62) && decide (p.k ≤ p.m) && decide (p.lead ≤ p.m) &&
      (p.f0 || (decide (p.k = 0) && decide (p.lead = 0)))
  empty := if d.len = 0 ∧ v ≠ 0 then some .decimalOverflow else none
  unit cur s :=
    let p := cur.prog
    readUnit c cur s 0 [a.sub p.n 1] fun cur' l =>
      let ch := l.headD 0
      if p.f0 then
        storeUnit c cur' s 1 (d.sub p.n 1) [editOut ch fill v p.m p.k p.lead]
          { p with n := p.n + 1, k := p.k + bit (decide (ch = 0o443)) } 2
      else
        let n := p.m + bit (decide (ch = 0o443))
        if (Chr.mark ch ∧ ch ≠ 0o443 ∧ ¬ isControl ch) ∨ 62 < n then .own .editPattern (a.va + p.n)
        else if p.n + 1 < d.len then .next { p with n := p.n + 1, m := n } s 1
        else if 10 ^ n ≤ v.natAbs then .own .decimalOverflow 0
        else .next (editPhase n min_ v) s 1
  result p r := r.setW wl
    (BitVec.ofNat 36 (bit (decide (v = 0)) * 2 ^ 35 + bit (decide (v < 0)) * 2 ^ 34 + p.lead % 64 * 2 ^ 28 + d.len))

def execEdit (c : CoreId) (x : DReg) (kd : KReg) (wd : Reg) (kp : KReg) (wp wl : Reg) (s : State) :
    Host.Outcome State Fault Refusal :=
  s.string c (.edit c x kd wd kp wp wl) (fun r => unitBound (r.wr wl).toNat) fun r =>
    let w := r.wr wl
    let len := w.toNat % 2 ^ 18
    editOp c (.edit c x kd wd kp wp wl) (strOperand (r.cap kd.val) (r.wr wd) len .store)
      (strOperand (r.cap kp.val) (r.wr wp) len .load) (r.dr x) (BitVec'.pos w 0 9) (BitVec'.pos w 9 9).toNat wl

end Sys2Proof.Machine
end

