-- ==== Sys2Proof/Machine/Capability.lean ====
section
/-! DEFINITION. Capability, storage-key and TLB instructions (R284 to R297, R303 to R307). -/

namespace Sys2Proof.Machine

/-- Position 31 of word 1, which the capability instructions always write as 0 (R48). -/
def Cap.clean (k : Cap) : Cap := { k with w1 := BitVec'.setAt k.w1 31 false }

/-- A capability instruction writes a capability register; a write of KC is a mode write (R159, R284). -/
def CoreRegs.putCap (r : CoreRegs) (n : Nat) (v : Cap) : CoreRegs :=
  (if n = 8 then r.startShadow 3 0 (r.cap 8) else r).setCap n v.clean

def execCmov (c : CoreId) (kd ks : CapNum) (s : State) : Host.Outcome State Fault Refusal :=
  s.regOp c (.cmov c kd ks) 2 fun r => r.putCap (capKey kd) (r.cap (capKey ks))
def execCclr (c : CoreId) (kd : CapNum) (s : State) : Host.Outcome State Fault Refusal :=
  s.regOp c (.cclr c kd) 2 fun r => r.putCap (capKey kd) Cap.empty

/-- LEXP of CSETB: the least e with floor(n / 4^e) below 2^20 (R289). -/
def lexpOf (n : Nat) : Nat := ((List.range 9).find? fun e => decide (n / 4 ^ e < 2 ^ 20)).getD 8

/-- The capability over m × 4^e from b with the rights and KEY of k. -/
def Cap.resized (k : Cap) (b m e : Nat) : Cap :=
  { w0 := BitVec.ofNat 36 b, w1 := BitVec.ofNat 36 (m * 2 ^ 16 + e * 2 ^ 12 + k.w1.toNat % 2 ^ 12) }

def execCsetb (c : CoreId) (kd ks : CapNum) (wb wl : Reg) (s : State) : Host.Outcome State Fault Refusal :=
  .next <| s.instr c (.csetb c kd ks wb wl) fun _ t =>
    let r := t.regs c
    let k := r.cap (capKey ks)
    let b := k.base + (r.wr wb).toNat
    let n := (r.wr wl).toNat
    let e := lexpOf n
    let m := n / 4 ^ e
    if 2 ^ 36 ≤ b ∨ k.top < b + m * 4 ^ e then .fault .capBounds 0
    else .done (t.updR c fun r => (r.putCap (capKey kd) (k.resized b m e)).setW wl (BitVec.ofNat 36 (m * 4 ^ e))) none 6

/-- The rights of positions 24:30 that a mask keeps (R290). -/
def Cap.andRights (k : Cap) (m : Word) : Cap := { k with w1 := k.w1 &&& (m ||| ~~~(0xFE0#36)) }

def execCandr (c : CoreId) (kd ks : CapNum) (wm : Reg) (s : State) : Host.Outcome State Fault Refusal :=
  s.regOp c (.candr c kd ks wm) 3 fun r => r.putCap (capKey kd) ((r.cap (capKey ks)).andRights (r.wr wm))

def execCsetk (c : CoreId) (kd ks : CapNum) (wk : Reg) (s : State) : Host.Outcome State Fault Refusal :=
  .next <| s.instr c (.csetk c kd ks wk) fun _ t =>
    let r := t.regs c
    let k := r.cap (capKey ks)
    let key : BitVec 4 := BitVec'.pos (r.wr wk) 32 4
    if k.key ≠ 0 ∧ key ≠ k.key then .fault .capRights 0
    else .done (t.updR c fun r => r.putCap (capKey kd) { k with w1 := BitVec'.setPos k.w1 32 4 key.toNat }) none 3

def execCget (c : CoreId) (d : Reg) (ks : CapNum) (s : State) : Host.Outcome State Fault Refusal :=
  s.regOp c (.cget c d ks) 3 fun r =>
    (r.setW d (r.cap (capKey ks)).w0).setW (Reg.next d) (r.cap (capKey ks)).w1

/-! ### Capabilities in memory (R291 to R293) -/

/-- The capability of eight characters. -/
def Cap.ofChars (l : List Chr) : Cap := { w0 := Word.ofChars l, w1 := Word.ofChars (l.drop 4) }

def execCld (c : CoreId) (kd : CapNum) (t : Tail) (s : State) : Host.Outcome State Fault Refusal :=
  .next <| s.instr c (.cld c kd t) fun cur x =>
    x.reading c cur 0 [Tail.operand (x.regs c) t 8 8 .cld] fun _ l =>
      .done (x.updR c fun r => r.putCap (capKey kd) (Cap.ofChars l)) none (4 + Tail.cc t)

def execCst (c : CoreId) (ks : CapNum) (t : Tail) (s : State) : Host.Outcome State Fault Refusal :=
  .next <| s.instr c (.cst c ks t) fun cur x =>
    let r := x.regs c
    let k := (r.cap (capKey ks)).clean
    x.storing c cur 0 [Tail.operand r t 8 8 (.cst k.global)] .cst true (k.w0.chars ++ k.w1.chars) fun _ y =>
      .done y none (4 + Tail.cc t)

/-- CAPLN and DATALN (R293). A scratch line is rewritten at once; the error it held is gone with it (R143). -/
def State.wholeLine (s : State) (c : CoreId) (i : Instr) (t : Tail) (cap : Bool) : Host.Outcome State Fault Refusal :=
  .next <| s.instr c i fun cur x =>
    let o := Tail.operand (x.regs c) t 64 64 .line
    x.storing c cur 0 [o] (.wholeLine cap) true (List.replicate 64 0) fun _ y =>
      let line := (o.va - scratchBase) / 64
      let z := if inScratch o.va then
          (y.updCluster (coreCluster c) fun e =>
            { e with scratchBad := e.scratchBad.filter (· ≠ line), scratchCe := e.scratchCe.filter fun x => decide (x.1 ≠ line) }).setScratchInfo
            (coreCluster c) line { y.scratchInfo (coreCluster c) line with capline := cap, poison := false }
        else y
      .done z none (6 + Tail.cc t)

def execCapln (c : CoreId) (t : Tail) (s : State) : Host.Outcome State Fault Refusal := s.wholeLine c (.capln c t) t true
def execDataln (c : CoreId) (t : Tail) (s : State) : Host.Outcome State Fault Refusal := s.wholeLine c (.dataln c t) t false

/-! ### Storage keys (R294 to R297) -/

def execSetkey (c : CoreId) (a : Reg) (t : Tail) (s : State) : Host.Outcome State Fault Refusal :=
  .next <| s.instr c (.setkey c a t) fun cur x =>
    let r := x.regs c
    x.storing c cur 0 [Tail.operand r t 64 64 .setkey] (.setkey (BitVec'.pos (r.wr a) 32 4)) true [] fun _ y =>
      .done y none (4 + Tail.cc t)

def execGetkey (c : CoreId) (d : Reg) (t : Tail) (s : State) : Host.Outcome State Fault Refusal :=
  .next <| s.instr c (.getkey c d t) fun cur x =>
    x.reading c cur 0 [Tail.operand (x.regs c) t 1 0 .getkey] fun _ l =>
      .done (x.updR c fun r => r.setW d ((l.headD 0).zeroExtend 36)) none (4 + Tail.cc t)

/-! ### TLB instructions (R303, R305) -/

/-- A TLB instruction: KS must carry SYS. -/
def State.tlbOp (s : State) (c : CoreId) (i : Instr) (body : Cur → State → Act) : Host.Outcome State Fault Refusal :=
  .next <| s.instr c i fun cur t => if !((t.regs c).cap 9).sys then .fault .capRights 0 else body cur t

def Core.entry (k : Core) (n : Nat) : TlbEntry := Sparse.get TlbEntry.reset k.tlb n
def Core.setEntry (k : Core) (n : Nat) (e : TlbEntry) : Core := { k with tlb := Sparse.set TlbEntry.reset k.tlb n e }
/-- Changes every entry of the TLB that p picks. -/
def Core.entries (k : Core) (p : TlbEntry → Bool) (f : TlbEntry → TlbEntry) : Core :=
  iter 32 (fun n x => if p (x.entry n) then x.setEntry n (f (x.entry n)) else x) k

def execTlbInv (c : CoreId) (a : Reg) (s : State) : Host.Outcome State Fault Refusal :=
  s.tlbOp c (.tlbInv c a) fun _ t =>
    let va := ((t.regs c).wr a).toNat
    if inScratch va then .done t none 4
    else .done (t.updCore c fun k => k.entries (·.maps va) fun e => { e with v := false, lk := false }) none 4

def execTlbInva (c : CoreId) (s : State) : Host.Outcome State Fault Refusal :=
  s.tlbOp c (.tlbInva c) fun _ t =>
    .done (t.updCore c fun k => k.entries (fun e => e.v && !e.lk) fun e => { e with v := false }) none 4

def execTlbLock (c : CoreId) (a : Reg) (s : State) : Host.Outcome State Fault Refusal :=
  s.tlbOp c (.tlbLock c a) fun cur t =>
    let k := t.core c
    let va := (k.r.wr a).toNat
    if inScratch va then .done t none 6
    else if (List.range 32).any fun n => (k.entry n).lk && (k.entry n).maps va then .done t none 6
    else if 8 ≤ ((List.range 32).filter fun n => (k.entry n).v && (k.entry n).lk).length then .fault .tlbLock 0
    else match k.translate cur.xlat va, k.tlbHit va with
      | some _, some n => .done (t.updCore c fun k => k.setEntry n { k.entry n with lk := true }) none 6
      | _, _ => .walk t cur va

def execTlbUnlk (c : CoreId) (a : Reg) (s : State) : Host.Outcome State Fault Refusal :=
  s.tlbOp c (.tlbUnlk c a) fun _ t =>
    let k := t.core c
    let va := (k.r.wr a).toNat
    match k.tlbHit va with
    | some n => .done (if inScratch va then t else t.updCore c fun k => k.setEntry n { k.entry n with lk := false }) none 3
    | none => .done t none 3

/-- Words A and B of an entry (R303). -/
def TlbEntry.wordA (e : TlbEntry) : Word :=
  BitVec.ofNat 36 (bit e.v * 2 ^ 35 + bit e.lk * 2 ^ 34 + bit e.lg * 2 ^ 33 + bit e.rd * 2 ^ 32 + bit e.wr * 2 ^ 31 +
    bit e.pst * 2 ^ 30 + bit e.cp * 2 ^ 29 + bit e.se * 2 ^ 28 + e.kind.toNat * 2 ^ 26 + bit e.rf * 2 ^ 25 + e.vpn.toNat)
def TlbEntry.wordB (e : TlbEntry) : Word := e.frame.zeroExtend 36

def execTlbRd (c : CoreId) (d a : Reg) (s : State) : Host.Outcome State Fault Refusal :=
  s.tlbOp c (.tlbRd c d a) fun _ t =>
    let k := t.core c
    let e := k.entry ((k.r.wr a).toNat % 32)
    .done (t.updR c fun r => (r.setW d e.wordA).setW (Reg.next d) e.wordB) none 3

end Sys2Proof.Machine
end

