-- ==== Sys2Proof/Machine/Float.lean ====
section
/-! DEFINITION. Binary floating point: formats, rounding, operations, flags, traps and the trap record (R263 to R280). -/

namespace Sys2Proof.Machine

/-! ### Formats and values (R263, R264) -/

/-- A format: precision and exponent width. -/
structure FFmt where
  p : Nat
  ew : Nat
  deriving DecidableEq, Repr

def FFmt.short : FFmt := { p := 28, ew := 8 }
def FFmt.long : FFmt := { p := 61, ew := 11 }
def FFmt.of (l : Bool) : FFmt := if l then .long else .short
def FFmt.bias (f : FFmt) : Nat := 2 ^ (f.ew - 1) - 1
/-- Bits of the fraction. -/
def FFmt.fw (f : FFmt) : Nat := f.p - 1

/-- A value as an operation reads it; a finite one is ± m × 2^e. -/
inductive FVal where
  | nan (neg : Bool) (frac : Nat)
  | inf (neg : Bool)
  | fin (neg : Bool) (m : Nat) (e : Int)
  deriving DecidableEq, Repr

/-- Fields of a stored value. -/
def FFmt.sign (f : FFmt) (x : Nat) : Bool := decide (x / 2 ^ (f.fw + f.ew) % 2 = 1)
def FFmt.expo (f : FFmt) (x : Nat) : Nat := x / 2 ^ f.fw % 2 ^ f.ew
def FFmt.frac (f : FFmt) (x : Nat) : Nat := x % 2 ^ f.fw

/-- A subnormal value (R264). -/
def FFmt.subnormal (f : FFmt) (x : Nat) : Bool := decide (f.expo x = 0) && decide (f.frac x ≠ 0)
/-- A signalling NaN (R264). -/
def FFmt.signalling (f : FFmt) (x : Nat) : Bool :=
  decide (f.expo x = 2 ^ f.ew - 1) && decide (f.frac x ≠ 0) && decide (f.frac x < 2 ^ (f.fw - 1))

/-- The value that an operation reads; a subnormal is read as zero (R272). -/
def FFmt.value (f : FFmt) (x : Nat) : FVal :=
  let s := f.sign x
  if f.expo x = 2 ^ f.ew - 1 then (if f.frac x = 0 then .inf s else .nan s (f.frac x))
  else if f.expo x = 0 then .fin s 0 0
  else .fin s (2 ^ f.fw + f.frac x) ((f.expo x : Int) - f.bias - f.fw)

def FFmt.make (f : FFmt) (s : Bool) (expo frac : Nat) : Nat := bit s * 2 ^ (f.fw + f.ew) + expo * 2 ^ f.fw + frac
def FFmt.zero (f : FFmt) (s : Bool) : Nat := f.make s 0 0
def FFmt.infinity (f : FFmt) (s : Bool) : Nat := f.make s (2 ^ f.ew - 1) 0
/-- The largest finite value M. -/
def FFmt.largest (f : FFmt) (s : Bool) : Nat := f.make s (2 ^ f.ew - 2) (2 ^ f.fw - 1)
/-- A quiet NaN with a given fraction. -/
def FFmt.quiet (f : FFmt) (s : Bool) (frac : Nat) : Nat := f.make s (2 ^ f.ew - 1) (frac % 2 ^ (f.fw - 1) + 2 ^ (f.fw - 1))
/-- The default NaN (R264). -/
def FFmt.defaultNaN (f : FFmt) : Nat := f.quiet false 0

/-! ### Flags -/

/-- Flags that an operation raises, in the order of FMODE. -/
structure FFlags where
  iv : Bool
  dz : Bool
  of : Bool
  uf : Bool
  nx : Bool
  sb : Bool
  deriving DecidableEq, Repr

def FFlags.none : FFlags := { iv := false, dz := false, of := false, uf := false, nx := false, sb := false }
def FFlags.word (g : FFlags) : BitVec 6 :=
  BitVec.ofNat 6 (bit g.iv * 32 + bit g.dz * 16 + bit g.of * 8 + bit g.uf * 4 + bit g.nx * 2 + bit g.sb)

/-! ### Rounding (R266, R272) -/

/-- Rounds up in magnitude: above, the discarded part exceeds half of the last place; tie, it is half; nz, it is not zero;
odd, the kept part is odd. -/
def roundsUp (mode : Nat) (neg above tie nz odd : Bool) : Bool :=
  match mode with
  | 0 => above || (tie && odd)
  | 1 => above || tie
  | 2 => false
  | 3 => nz && !neg
  | _ => nz && neg

/-- Drops the low n bits of m, whose value lies above m when sticky is set: the rounded quotient, and whether it is
inexact. -/
def roundShift (mode : Nat) (neg : Bool) (m n : Nat) (sticky : Bool) : Nat × Bool :=
  let q := m / 2 ^ n
  let r := 2 * (m % 2 ^ n)
  let above := decide (2 ^ n < r) || (decide (r = 2 ^ n) && sticky)
  let tie := decide (r = 2 ^ n) && !sticky && decide (0 < n)
  let nz := decide (r ≠ 0) || sticky
  (q + bit (roundsUp mode neg above tie nz (decide (q % 2 = 1))), nz)

/-- Number of bits of m. -/
def bitLen (m : Nat) : Nat := if m = 0 then 0 else Nat.log2 m + 1

/-- The stored form of ± (m + δ) × 2^e, δ in (0, 1) when sticky and 0 otherwise; m is not 0, and has more than p + 1 bits
when sticky. Overflow and tiny results as R272 gives. -/
def FFmt.round (f : FFmt) (mode : Nat) (neg : Bool) (m : Nat) (e : Int) (sticky : Bool) : Nat × FFlags :=
  let l := bitLen m
  let (q, nx) := if l ≤ f.p then (m * 2 ^ (f.p - l), sticky) else roundShift mode neg m (l - f.p) sticky
  let carry := decide (q = 2 ^ f.p)
  let q := if carry then 2 ^ f.fw else q
  let x : Int := e + l - 1 + bit carry
  if (f.bias : Int) < x then
    let toInf := match mode with
      | 2 => false
      | 3 => !neg
      | 4 => neg
      | _ => true
    (if toInf then f.infinity neg else f.largest neg, { FFlags.none with of := true, nx := true })
  else if x < 1 - (f.bias : Int) then (f.zero neg, { FFlags.none with uf := true, nx := true, sb := true })
  else (f.make neg (x + f.bias).toNat (q - 2 ^ f.fw), { FFlags.none with nx := nx })

/-- The stored form of an exact ± m × 2^e; zero keeps the sign given. -/
def FFmt.exact (f : FFmt) (mode : Nat) (neg : Bool) (m : Nat) (e : Int) : Nat × FFlags :=
  if m = 0 then (f.zero neg, .none) else f.round mode neg m e false

/-! ### Operations (R268, R272, R273) -/

def invalid (f : FFmt) : Nat × FFlags := (f.defaultNaN, { FFlags.none with iv := true })

/-- Sum of two values that are no NaN. -/
def FFmt.add (f : FFmt) (mode : Nat) : FVal → FVal → Nat × FFlags
  | .inf a, .inf b => if a = b then (f.infinity a, .none) else invalid f
  | .inf a, _ => (f.infinity a, .none)
  | _, .inf b => (f.infinity b, .none)
  | .fin sa ma ea, .fin sb mb eb =>
    let e := min ea eb
    let a : Int := (ma * 2 ^ (ea - e).toNat : Nat)
    let b : Int := (mb * 2 ^ (eb - e).toNat : Nat)
    let v := (if sa then -a else a) + (if sb then -b else b)
    if v = 0 then
      let neg := if ma = 0 ∧ mb = 0 ∧ sa = sb then sa else decide (mode = 4)
      (f.zero neg, .none)
    else f.exact mode (decide (v < 0)) v.natAbs e
  | _, _ => invalid f

def FVal.negate : FVal → FVal
  | .nan n x => .nan n x
  | .inf n => .inf (!n)
  | .fin n m e => .fin (!n) m e

def FFmt.mulV (f : FFmt) (mode : Nat) : FVal → FVal → Nat × FFlags
  | .inf a, .inf b => (f.infinity (a != b), .none)
  | .inf a, .fin sb mb _ => if mb = 0 then invalid f else (f.infinity (a != sb), .none)
  | .fin sa ma _, .inf b => if ma = 0 then invalid f else (f.infinity (sa != b), .none)
  | .fin sa ma ea, .fin sb mb eb => f.exact mode (sa != sb) (ma * mb) (ea + eb)
  | _, _ => invalid f

def FFmt.divV (f : FFmt) (mode : Nat) : FVal → FVal → Nat × FFlags
  | .inf _, .inf _ => invalid f
  | .inf a, .fin sb _ _ => (f.infinity (a != sb), .none)
  | .fin sa _ _, .inf b => (f.zero (sa != b), .none)
  | .fin sa ma ea, .fin sb mb eb =>
    let s := sa != sb
    if mb = 0 then
      if ma = 0 then invalid f else (f.infinity s, { FFlags.none with dz := true })
    else if ma = 0 then (f.zero s, .none)
    else
      let k := f.p + 2 + bitLen mb
      let n := ma * 2 ^ k
      f.round mode s (n / mb) (ea - eb - k) (decide (n % mb ≠ 0))
  | _, _ => invalid f

/-- Integer square root of n, its bits found from 2^(i − 1) down. -/
def sqrtBits (n : Nat) : Nat → Nat → Nat
  | 0, r => r
  | i + 1, r => sqrtBits n i (if (r + 2 ^ i) * (r + 2 ^ i) ≤ n then r + 2 ^ i else r)

def FFmt.sqrtV (f : FFmt) (mode : Nat) : FVal → Nat × FFlags
  | .inf a => if a then invalid f else (f.infinity false, .none)
  | .fin s m e =>
    if m = 0 then (f.zero s, .none)
    else if s then invalid f
    else
      let k := 2 * f.p + 4 + (e.toNat + (-e).toNat + 2 * f.p + 4) % 2
      let n := m * 2 ^ k
      let r := sqrtBits n (bitLen n / 2 + 1) 0
      f.round mode false r ((e - k) / 2) (decide (r * r ≠ n))
  | _ => invalid f

/-- An operation on two operands of one format: NaN operands, then the operation; SB for a subnormal operand. -/
def FFmt.two (f : FFmt) (op : FVal → FVal → Nat × FFlags) (x y : Nat) : Nat × FFlags :=
  let sn := f.signalling x || f.signalling y
  let (v, g) := match f.value x, f.value y with
    | .nan s fr, _ => (f.quiet s fr, FFlags.none)
    | _, .nan s fr => (f.quiet s fr, FFlags.none)
    | a, b => op a b
  (v, { g with iv := g.iv || sn, sb := g.sb || f.subnormal x || f.subnormal y })

/-- An operation on one operand; q gives the NaN result. -/
def FFmt.one (f : FFmt) (q : Bool → Nat → Nat) (op : FVal → Nat × FFlags) (x : Nat) : Nat × FFlags :=
  let (v, g) := match f.value x with
    | .nan s fr => (q s fr, FFlags.none)
    | a => op a
  (v, { g with iv := g.iv || f.signalling x, sb := g.sb || f.subnormal x })

/-- Rounds ± m × 2^e to an integer: magnitude and whether it is inexact. -/
def roundInt (mode : Nat) (neg : Bool) (m : Nat) (e : Int) : Nat × Bool :=
  if 0 ≤ e then (m * 2 ^ e.toNat, false) else roundShift mode neg m (-e).toNat false

/-- FCVTFI (R271): the word. -/
def FFmt.toInt (f : FFmt) (mode : Nat) (x : Nat) : Nat × FFlags :=
  let g := { FFlags.none with sb := f.subnormal x }
  let top (neg : Bool) : Nat × FFlags := (if neg then 2 ^ 35 else 2 ^ 35 - 1, { g with iv := true })
  match f.value x with
  | .nan _ _ => (0, { g with iv := true })
  | .inf s => top s
  | .fin s m e =>
    -- a magnitude of 2^36 or more is out of range before rounding
    if 36 < (bitLen m : Int) + e then top s
    else
      let (n, nx) := roundInt mode s m e
      if (s ∧ 2 ^ 35 < n) ∨ (¬ s ∧ 2 ^ 35 ≤ n) then top s
      else ((BitVec.ofInt 36 (if s then -(n : Int) else n)).toNat, { g with nx := nx })

/-- FCVTIF: a signed integer in format f. -/
def FFmt.ofInt (f : FFmt) (mode : Nat) (v : Int) : Nat × FFlags := f.exact mode (decide (v < 0)) v.natAbs 0

/-- −1, 0, 1 for −∞, a finite value, +∞. -/
def FVal.side : FVal → Int
  | .inf n => if n then -1 else 1
  | _ => 0

/-- Order of two values that are no NaN (R270): the sign of a − b. -/
def FVal.order (a b : FVal) : Int :=
  if a.side ≠ b.side then (a.side - b.side).sign
  else match a, b with
    | .fin sa ma ea, .fin sb mb eb =>
      let e := min ea eb
      let x : Int := (ma * 2 ^ (ea - e).toNat : Nat)
      let y : Int := (mb * 2 ^ (eb - e).toNat : Nat)
      ((if sa then -x else x) - (if sb then -y else y)).sign
    | _, _ => 0

/-- FCMP (R270): the word. -/
def FFmt.compare (f : FFmt) (x y : Nat) : Nat × FFlags :=
  let g := { FFlags.none with
    iv := f.signalling x || f.signalling y, sb := f.subnormal x || f.subnormal y }
  match f.value x, f.value y with
  | .nan _ _, _ => (2, g)
  | _, .nan _ _ => (2, g)
  | a, b =>
    let d := FVal.order a b
    (if d < 0 then 2 ^ 36 - 1 else if d = 0 then 0 else 1, g)

/-! ### Starting an operation (R267 to R269, R275 to R277) -/

/-- The rounding mode of an RM field (R266). An RM of 5 to 7 that a return has put into FMODE's shadow rounds as RDN does and is recorded
as it stands: DESIGN CHOICE, log entry 69. -/
def CoreRegs.fpMode (r : CoreRegs) (rm : BitVec 3) : Nat := if rm = 7 then r.govFmode.toNat % 8 else rm.toNat

/-- An operand of format l in register n. -/
def CoreRegs.fpIn (r : CoreRegs) (l : Bool) (n : Reg) : Nat := if l then (r.pair n).toNat else (r.wr n).toNat

/-- The two words of a value of format l: a short value takes the first. -/
def fpWords (l : Bool) (v : Nat) : List Word :=
  if l then [Pair.hi (BitVec.ofNat 72 v), Pair.lo (BitVec.ofNat 72 v)] else [BitVec.ofNat 36 v, 0]

/-- The operation traps under the enables and SUBN that govern it (R275). -/
def trapsUnder (fmode : Word) (g : BitVec 6) : Bool :=
  decide (g.toNat / 2 &&& fmode.toNat / 2 ^ 13 % 32 ≠ 0) || (g.getLsbD 0 && BitVec'.at' fmode 32)

/-- What the record of R276 and R277 says of an operation. -/
structure FpDesc where
  minor : Nat
  l : Bool
  d : Reg
  mode : Nat
  a : List Word
  b : List Word

/-- Word 0 of the trap record (R276). -/
def FpDesc.word (x : FpDesc) (g : BitVec 6) (bank : Bool) : Word :=
  BitVec.ofNat 36 (2 ^ 35 + g.toNat * 2 ^ 28 + bit x.l * 2 ^ 27 + x.minor % 1024 * 2 ^ 17 + x.d.val * 2 ^ 12 + x.mode % 8 * 2 ^ 9 +
    bit bank * 2 ^ 8)

/-- Starts an operation whose result is `v` in format lo and whose flags are g; the instruction takes cc cycles. -/
def State.startFp (t : State) (c : CoreId) (cc lat : Nat) (root lo : Bool) (v : Nat) (g : FFlags) (x : FpDesc) : Act :=
  .done (t.updCore c fun k =>
    let r := k.r
    let ws := fpWords lo v
    let writes := if lo then [(r.wKey x.d, ws.headD 0), (r.wKey (Reg.next x.d), ws.getD 1 0)] else [(r.wKey x.d, ws.headD 0)]
    let op : FpOp :=
      { writes := writes, flags := g.word, traps := trapsUnder r.govFmode g.word,
        record := [x.word g.word r.ctl.bk1, BitVec.ofNat 36 (k.pc % 2 ^ 18)] ++ x.a ++ x.b ++ ws,
        root := root, due := r.cnt.clk + k.withTest cc + lat }
    { k with u := { k.u with fp := k.u.fp ++ [op] } }) none cc

/-- FADD, FSUB, FMUL, FDIV. -/
def State.fpTwo (s : State) (c : CoreId) (i : Instr) (d b : Reg) (l : Bool) (rm : BitVec 3) (lat : Nat) (root : Bool)
    (op : FFmt → Nat → FVal → FVal → Nat × FFlags) : Host.Outcome State Fault Refusal :=
  .next <| s.instr c i fun _ t =>
    let r := t.regs c
    let f := FFmt.of l
    let mode := r.fpMode rm
    let x := r.fpIn l d
    let y := r.fpIn l b
    let (v, g) := f.two (op f mode) x y
    t.startFp c 2 lat root l v g
      { minor := i.minor, l := l, d := d, mode := mode, a := fpWords l x, b := fpWords l y }

def execFadd (c : CoreId) (d b : Reg) (l : Bool) (rm : BitVec 3) (s : State) : Host.Outcome State Fault Refusal :=
  s.fpTwo c (.fadd c d b l rm) d b l rm (if l then 6 else 4) false fun f m x y => f.add m x y
def execFsub (c : CoreId) (d b : Reg) (l : Bool) (rm : BitVec 3) (s : State) : Host.Outcome State Fault Refusal :=
  s.fpTwo c (.fsub c d b l rm) d b l rm (if l then 6 else 4) false fun f m x y => f.add m x y.negate
def execFmul (c : CoreId) (d b : Reg) (l : Bool) (rm : BitVec 3) (s : State) : Host.Outcome State Fault Refusal :=
  s.fpTwo c (.fmul c d b l rm) d b l rm (if l then 6 else 4) false fun f m x y => f.mulV m x y
def execFdiv (c : CoreId) (d b : Reg) (l : Bool) (rm : BitVec 3) (s : State) : Host.Outcome State Fault Refusal :=
  s.fpTwo c (.fdiv c d b l rm) d b l rm (if l then 30 else 14) true fun f m x y => f.divV m x y

/-- Operations on one operand: li the operand's format, lo the result's, l the L bit. -/
def State.fpOne (s : State) (c : CoreId) (i : Instr) (d b : Reg) (li lo l : Bool) (mode : CoreRegs → Nat) (lat : Nat)
    (root : Bool) (op : Nat → Nat → Nat × FFlags) : Host.Outcome State Fault Refusal :=
  .next <| s.instr c i fun _ t =>
    let r := t.regs c
    let m := mode r
    let x := r.fpIn li b
    let (v, g) := op m x
    t.startFp c 2 lat root lo v g
      { minor := i.minor, l := l, d := d, mode := m, a := fpWords li x, b := [0, 0] }

def execFsqrt (c : CoreId) (d b : Reg) (l : Bool) (rm : BitVec 3) (s : State) : Host.Outcome State Fault Refusal :=
  let f := FFmt.of l
  s.fpOne c (.fsqrt c d b l rm) d b l l l (·.fpMode rm) (if l then 34 else 16) true fun m x => f.one f.quiet (f.sqrtV m) x

/-- FCVTSL: the 27 fraction bits of a NaN come first in the long fraction (R273). -/
def execFcvtsl (c : CoreId) (d b : Reg) (s : State) : Host.Outcome State Fault Refusal :=
  s.fpOne c (.fcvtsl c d b) d b false true false (fun _ => 0) 2 false fun m x =>
    FFmt.short.one (fun n fr => FFmt.long.quiet n (fr * 2 ^ 33))
      (fun v => match v with
        | .inf n => (FFmt.long.infinity n, .none)
        | .fin n a e => FFmt.long.exact m n a e
        | .nan _ _ => invalid .long) x

/-- FCVTLS keeps the first 27 fraction bits of a NaN (R273). -/
def execFcvtls (c : CoreId) (d b : Reg) (rm : BitVec 3) (s : State) : Host.Outcome State Fault Refusal :=
  s.fpOne c (.fcvtls c d b rm) d b true false false (·.fpMode rm) 4 false fun m x =>
    FFmt.long.one (fun n fr => FFmt.short.quiet n (fr / 2 ^ 33))
      (fun v => match v with
        | .inf n => (FFmt.short.infinity n, .none)
        | .fin n a e => FFmt.short.exact m n a e
        | .nan _ _ => invalid .short) x

def execFcvtfi (c : CoreId) (d b : Reg) (l : Bool) (rm : BitVec 3) (s : State) : Host.Outcome State Fault Refusal :=
  s.fpOne c (.fcvtfi c d b l rm) d b l false l (·.fpMode rm) (if l then 6 else 4) false fun m x => (FFmt.of l).toInt m x
def execFcvtif (c : CoreId) (d b : Reg) (l : Bool) (rm : BitVec 3) (s : State) : Host.Outcome State Fault Refusal :=
  s.fpOne c (.fcvtif c d b l rm) d b false l l (·.fpMode rm) (if l then 6 else 4) false fun m x =>
    (FFmt.of l).ofInt m (BitVec.ofNat 36 x).toInt

/-- FNEG and FABS copy every bit but position 0 and raise nothing (R272). -/
def execFneg (c : CoreId) (d b : Reg) (l : Bool) (s : State) : Host.Outcome State Fault Refusal :=
  let f := FFmt.of l
  s.fpOne c (.fneg c d b l) d b l l l (fun _ => 0) 2 false fun _ x => (f.make (!f.sign x) (f.expo x) (f.frac x), .none)
def execFabs (c : CoreId) (d b : Reg) (l : Bool) (s : State) : Host.Outcome State Fault Refusal :=
  let f := FFmt.of l
  s.fpOne c (.fabs c d b l) d b l l l (fun _ => 0) 2 false fun _ x => (f.make false (f.expo x) (f.frac x), .none)

def execFcmp (c : CoreId) (d a b : Reg) (l : Bool) (s : State) : Host.Outcome State Fault Refusal :=
  .next <| s.instr c (.fcmp c d a b l) fun _ t =>
    let r := t.regs c
    let x := r.fpIn l a
    let y := r.fpIn l b
    let (v, g) := (FFmt.of l).compare x y
    t.startFp c 3 2 false false v g
      { minor := 395, l := l, d := d, mode := 0, a := fpWords l x, b := fpWords l y }

/-! ### FSYNC, FREC, FCLRT (R278, R279) -/

/-- Begins by waiting until the unit holds no operation of the core. -/
def State.afterUnit (s : State) (c : CoreId) (i : Instr) (cc : Nat) (f : Core → Core) : Host.Outcome State Fault Refusal :=
  .next <| s.instr c i fun cur t =>
    if (t.core c).u.fp ≠ [] then .unitWait cur else .done (t.updCore c f) none cc

def execFsync (c : CoreId) (s : State) : Host.Outcome State Fault Refusal := s.afterUnit c (.fsync c) 2 id
def execFrec (c : CoreId) (d : Reg) (n : BitVec 3) (s : State) : Host.Outcome State Fault Refusal :=
  s.afterUnit c (.frec c d n) 3 fun k => k.updR fun r => r.setW d (Sparse.get 0 k.u.trap n.toNat)
def execFclrt (c : CoreId) (s : State) : Host.Outcome State Fault Refusal :=
  s.afterUnit c (.fclrt c) 2 fun k => { k with u := { k.u with trap := [] } }

/-! ### FLOAT_RESULT (R274, R275) -/

/-- The operation that writes next: the least due, the one started earlier first. -/
def nextFp : List FpOp → Option FpOp
  | [] => none
  | o :: l => match nextFp l with
    | none => some o
    | some q => some (if o.due ≤ q.due then o else q)

/-- The trap record after a trap: filled, or MORE set (R275). -/
def fpTrap (u : Beside) (o : FpOp) : Beside :=
  let w0 := Sparse.get 0 u.trap 0
  if !o.traps then u
  else if BitVec'.at' w0 0 then { u with trap := Sparse.set 0 u.trap 0 (BitVec'.setAt w0 1 true) }
  else { u with trap := Sparse.setList 0 [] 0 o.record, ftPend := true }

/-- The unit writes a result and its flags (R265, R275, R276). -/
def execFloatResult (c : CoreId) (s : State) : Host.Outcome State Fault Refusal :=
  let k := s.core c
  match nextFp k.u.fp with
  | none => .next s
  | some o =>
    if k.r.cnt.clk < o.due then .next s
    else
      let w := o.writes.foldl (fun m e => Sparse.set 0 m e.1 e.2) k.r.w
      let r := { k.r with w := w, sp := { k.r.sp with fmode := fmodeFlags k.r.sp.fmode o.flags } }
      .next (s.setCore c { k with r := r, u := fpTrap { k.u with fp := k.u.fp.erase o } o })

end Sys2Proof.Machine
end

