-- ==== Sys2Proof/Machine/Clock.lean ====
section
/-! DEFINITION. Posting time and its ticks (R62, R72), the positions that the hub stamps (R78), the states of the Sundial
(R65, R66) and the opening of admission (R491). -/

namespace Sys2Proof.Machine

/-! ### Ticks -/

/-- Sets the tick, era and epoch to those of unwrapped tick u, in the hub and at every die (R72, R75). -/
def State.setTick (s : State) (u : Nat) : State :=
  let t : BitVec 48 := BitVec.ofNat 48 u
  let s1 := s.updSdRegs fun g => { g with tick := t, era := BitVec.ofNat 36 (u / 2 ^ 48), epoch := u / g.epochTicks % 2 ^ 72 }
  iter 8 (fun d x => if x.alive d then x.updDie d fun e => { e with o := { e.o with tick := t } } else x) s1

/-- The unwrapped tick now. -/
def State.unwrapped (s : State) : Nat := s.h.sd.g.era.toNat * 2 ^ 48 + s.tick.toNat

/-- Posting time of ORIGIN in nanoseconds. -/
def SdRegs.originNs (g : SdRegs) : Nat := g.origin * 1000000000

/-- Sets posting time; while ticks are distributed they follow it (R72). In UNSET, where posting time is not valid (R65),
BEFORE_ORIGIN stays 0: DESIGN CHOICE, log entry 35. -/
def State.setTime (s : State) (t : Pair) : State :=
  let s1 := s.updSdRegs fun g => { g with time := t }
  let g := s1.h.sd.g
  if g.st = .unset then s1
  else if t.toNat < g.originNs then
    s1.updSdRegs fun g => { g with beforeOrigin := true, tick := 0, era := 0, epoch := 0 }
  else (s1.updSdRegs fun g => { g with beforeOrigin := false }).setTick ((t.toNat - g.originNs) / g.tickNs)

/-! ### The edge (R86) -/

/-- An event reaches the hub that can make an action possible: the actions of this edge launch no more, and what it allows takes
effect at the next one (R86). -/
def State.edgePassed (s : State) : State := s.updSd fun x => { x with edgeStep := 8 }

/-! ### Internal sources (R78) -/

/-- Events stamped so far in the current tick by internal source `port`, those carried over from the last tick included. -/
def Sundial.counted (x : Sundial) (port : Nat) : Nat :=
  let n := Sparse.get 0 x.seq port
  if x.seqTick = x.g.tick then n else if x.seqTick + 1 = x.g.tick then n - 2 ^ 18 else 0

/-- Stamps an event of internal source `port`: 2^18 events fill a tick, the next ones take the next tick. -/
def State.stamp (s : State) (port : Nat) : State × Position :=
  let x := s.h.sd
  let n := x.counted port
  let seq := if x.seqTick = x.g.tick then x.seq
    else (List.range 5).foldl (fun m k => Sparse.set 0 m (32 + k) (x.counted (32 + k))) []
  (s.updSd fun x => { x with seq := Sparse.set 0 seq port (n + 1), seqTick := x.g.tick },
    { tick := s.tick + BitVec.ofNat 48 (n / 2 ^ 18), port := BitVec.ofNat 6 port, seq := BitVec.ofNat 18 n })

/-! ### Admission (R66, R491) -/

/-- No frame has been stamped yet: the Horizon of every unit is the tick before (R81). DEDUCED, log entry 35. -/
def State.startHorizons (s : State) : State :=
  let z := s.tick - 1
  let seen (m : Sparse (BitVec 48)) : Sparse (BitVec 48) := (List.range 9).foldl (fun m d => Sparse.set 0 m d z) m
  iter 8 (fun d x => if (x.die d).member then x.updDie d fun e => { e with o := { e.o with hzSent := z, hzSeen := seen e.o.hzSeen } } else x)
    (s.updSd fun x => { x with hzHub := z, hzSeen := s.members.foldl (fun m d => Sparse.set 0 m d z) x.hzSeen })

/-- Opens admission: the epochs before the current one count as sealed, released and visible. The package then leaves Dawn
(R462, R472). -/
def State.openAdmission (s : State) : State :=
  let c := epochPrev s.h.sd.g.epoch
  let s1 := s.updSd fun x => { x with g := { x.g with admitOpen := true }, opened := true }
  let s2 := iter 16 (fun p x => x.updPartn p fun q => { q with sealed := c, released := c, visible := c })
    (s1.updPwr fun p => { p with st := if p.st = .dawn then .noon else p.st, bootStep := 6 })
  iter 8 (fun d x => x.updDie d fun e => { e with o := { e.o with
    visible := (List.range 16).foldl (fun m p => Sparse.set 0 m p c) e.o.visible } }) s2.startHorizons

/-- At an edge, admission opens in a lead or solo package in LOCKED or FREE, not before ORIGIN, nor while a whole image is being
applied or the package wakes (R66, R86, R432, R466, R491). -/
def State.tryAdmission (s : State) : State :=
  let g := s.h.sd.g
  let busy := decide (s.h.pwr.after = .apply ∨ s.h.pwr.after = .wake) || s.h.plan.eff.isNone
  if !g.admitOpen && decide (g.st = .locked ∨ g.st = .free) && !g.beforeOrigin && decide (s.h.mirror.role.toNat < 2) && !busy then
    s.openAdmission
  else s

/-- Moves the Sundial to a state; a change sets HOST_EVT.SUNDIAL and, once admission has opened, is stamped and recorded for audit,
in a package that stamps (R70, R78, R439). -/
def State.enterSd (s : State) (st : SdSt) (source : BitVec 3) (which : Bool) (port : BitVec 6) : State :=
  let old := s.h.sd.g.st
  let s1 := s.updSdRegs fun g => { g with st := st, source := source, which := which, port := port }
  if old = st then s1
  else
    let s2 := if st = .holdover then
        s1.updSd fun x => { x with g := { x.g with holdMs := 0 }, holdStart := x.g.time.toNat, holdReported := false }
      else s1
    let s3 := if s.h.sd.opened && decide (s.h.mirror.role.toNat < 2) then
        let (x, pos) := s2.stamp 36
        x.updSd fun z => { z with audit := z.audit ++ [pos] }
      else s2
    s3.event 3

/-- Enters FREE: no offset, no correction, nothing to slew (R67, R68, R103). -/
def State.enterFree (s : State) : State :=
  (s.enterSd .free 0 false 0).updSdRegs fun g => { g with offset := 0, freq := 0, slewing := false }

/-- Kind and port of the plan's source (R63, R408); a follower's source is its lead (R70). -/
def State.sourceKind (s : State) (second : Bool) : Nat :=
  if s.h.mirror.role = 2 then (if second then 0 else 4) else s.paramN (if second then 4 else 2) 0 0
def State.sourcePort (s : State) (second : Bool) : Nat :=
  let k := s.sourceKind second
  if k = 1 ∨ k = 2 then s.paramN (if second then 5 else 3) 0 0 else 0

/-- Enters FREE when the applied image names a primary source of kind 0 and SD_SET_LO has been written (R66, R104). -/
def State.tryFreeRun (s : State) : State :=
  let x := s.h.sd
  if x.g.st = .unset ∧ x.running ∧ s.h.plan.eff.isSome ∧ s.sourceKind false = 0 then
    s.enterFree.setTime x.g.time
  else s

/-- A write of SD_SET_LO (R104). -/
def State.writeSetLo (s : State) (v : Word) : State :=
  if s.h.sd.g.st ≠ .unset then s
  else
    let s1 := s.updSd fun x => { x with
      g := { x.g with setLo := v, time := Pair.mk x.g.setHi v }, setTaken := Pair.mk x.g.setHi v, running := true,
      secondsTaken := false }
    s1.tryFreeRun

def State.writeSetHi (s : State) (v : Word) : State :=
  if s.h.sd.g.st ≠ .unset then s else s.updSdRegs fun g => { g with setHi := v }

end Sys2Proof.Machine
end

