-- ==== Sys2Proof/Machine/Registers.lean ====
section
/-! DEFINITION. The registers of the package as words of spaces 1 and 2: the port block and the queue records (R347, R348),
the Sundial, the posting counters, the gate records, the error log, the die blocks and the diagnostic words (R100, R140,
R185, R316 to R319, R392 to R394, R440). -/

namespace Sys2Proof.Machine

/-- A value in a word whose field ends at position i (R4). -/
def atPos (i v : Nat) : Nat := v * 2 ^ (35 - i)
def word (v : Nat) : Word := BitVec.ofNat 36 v
/-- Word q of a list of registers; reserved offsets read zero (R11). -/
def pick (l : List Word) (i : Nat) : Word := l.getD i 0

/-! ### Ports and their gates -/

/-- BREAKOUT of die d (R27, R408). -/
def State.breakout (s : State) (d : Nat) : Nat := s.paramN 40 d 0
/-- Ledger port n exists under the breakout of its die (R27). -/
def State.portExists (s : State) (n : Nat) : Bool :=
  s.present (n / 4) && (match s.breakout (n / 4) with
    | 0 => decide (n % 4 = 0)
    | 1 => decide (n % 2 = 0)
    | _ => true)

/-- Gate g exists (R308). -/
def State.gateExists (s : State) (g : Nat) : Bool :=
  if g < 16 then s.present (g / 2) else if g < 48 then s.portExists (g - 16) else decide (g < 50)

/-! ### Queue records (R348); mirror ports A and B hold theirs as dies 8 and 9, partition 0 -/

/-- Word w of a queue record; the record of a queue with EN 0 reads as zero. -/
def State.queueWord (s : State) (d p q w : Nat) : Word :=
  let r := s.queue d p q
  if !r.en then 0
  else match w with
    | 0 => word (atPos 0 1 + atPos 2 r.kind.toNat + atPos 3 (bit r.dense) + atPos 8 r.size + atPos 12 r.tmpl)
    | 1 => word r.base
    | 2 => word r.wptr
    | 3 => word r.rptr
    | 4 => word (atPos 0 (bit r.cen) + atPos 1 (bit r.hen) + atPos 4 r.die + atPos 7 r.cluster + atPos 15 r.cores.toNat +
        atPos 26 r.vector)
    | 5 => word r.thresh
    | 6 =>
      let pend := decide (qWord (s.die d).qram (r.addr r.rptr) = pendingMarker)
      word (atPos 0 (bit r.overrun) + atPos 1 (bit r.qerr) + atPos 2 (bit pend) + r.used)
    | 7 => r.drops
    | _ => 0

/-- A consumer's write of RPTR (R352): inside the range from RPTR to WPTR, else QERR. -/
def Queue.writeRptr (r : Queue) (v : Nat) : Queue :=
  let m := 2 ^ (r.size + 1)
  let n := (v % m + m - r.rptr) % m
  if n ≤ r.used then { r with rptr := v % m } else { r with qerr := true }

/-- A producer's write of WPTR (R352): forward, and USED at most 2^s, else QERR. -/
def Queue.writeWptr (r : Queue) (v : Nat) : Queue :=
  let m := 2 ^ (r.size + 1)
  let n := (v % m + m - r.wptr) % m
  if r.used + n ≤ 2 ^ r.size then { r with wptr := v % m } else { r with qerr := true }

/-- A write of a word of a queue record (R10, R348, R352). -/
def Queue.writeWord (r : Queue) (w : Nat) (v : Word) : Queue :=
  if !r.en then r
  else match w with
    | 2 => if r.kind = 2 then r.writeWptr v.toNat else r
    | 3 => if r.kind = 1 then r.writeRptr v.toNat else r
    | 4 => { r with
        cen := BitVec'.at' v 0, hen := BitVec'.at' v 1, die := (BitVec'.pos v 2 3).toNat, cluster := (BitVec'.pos v 5 3).toNat,
        cores := BitVec'.pos v 8 8, vector := (BitVec'.pos v 16 11).toNat }
    | 5 => { r with thresh := min (v.toNat % 2 ^ 19) (2 ^ r.size) }
    | 6 => { r with overrun := r.overrun && !BitVec'.at' v 0, qerr := r.qerr && !BitVec'.at' v 1 }
    | _ => r

/-! ### The port block (R347) -/

def SrcPort : Nat → Nat → Nat → Bool := fun kind port n => decide (kind = 1) && decide (port = n)

/-- Register word i of lane group g of die d. -/
def State.portWord (s : State) (d g i : Nat) : Word :=
  let n := 4 * d + g
  if !s.portExists n then 0
  else
    let z := s.port n
    let c := z.cnt
    let isSource := SrcPort (s.sourceKind false) (s.sourcePort false) n || SrcPort (s.sourceKind true) (s.sourcePort true) n
    pick [word (atPos 27 (bit z.up) + atPos 29 (s.breakout d) + atPos 30 (bit z.fec) + z.lanes.toNat),
      word (atPos 33 (if z.ptp.server.isSome then (z.ptp.interval + 128).toNat else 0) + atPos 34 (bit z.ptp.server.isSome) +
        bit isSource),
      c.rxFrames, c.rxErr, c.rxPause, c.rxFilter, c.rxIperr, c.rxPtp, c.rxSide, c.txFrames, c.badHdr, c.noSession, c.refused,
      c.resent, c.standins, word (z.sessions.filter fun e => e.2.isOpen).length] i

/-- Entry i of the steering table of ledger port n (R341). -/
def State.steer (s : State) (n i : Nat) : Chr :=
  match s.h.plan.eff with
  | none => 0
  | some pl => match pl.ports.find? (fun e => e.1 = n) with
    | some e =>
      let o := e.2.steer.getD i 0
      Chr.mk (o.testBit 7) (BitVec.ofNat 8 (o % 16))
    | none => 0

/-- The queue area of a die that covers line l: its partition and first line (R346). -/
def State.areaAt (s : State) (d l : Nat) : Option (Nat × Nat) :=
  match s.h.plan.eff with
  | none => none
  | some pl =>
    let on (a : PlanQArea) : Bool :=
      decide (a.die = d) || (decide (s.tandemOf a.part = some (d / 2)) && decide (a.die / 2 = d / 2))
    (pl.queues.find? fun e => on e.2 && decide (e.2.first ≤ l) && decide (l ≤ e.2.last)).map fun e => (e.2.part, e.2.first)

/-- The record word at a word-aligned character of queue RAM: partition, queue and word of the record. -/
def State.recordAt (s : State) (d a : Nat) : Option (Nat × Nat × Nat) :=
  if 8 ≤ d then (if a < 256 then some (0, a / 32, a / 4 % 8) else none)
  else match s.areaAt d (a / 64) with
    | some (p, first) => if a / 64 < first + 4 then some (p, (a - 64 * first) / 32, a / 4 % 8) else none
    | none => none

/-- The word at a word-aligned character of a queue RAM, registers included. -/
def State.ramWord (s : State) (d a : Nat) : Word :=
  if d < 8 ∧ a < 1024 then s.portWord d (a / 256) (a % 256 / 4)
  else if d < 8 ∧ a < 2048 then
    Word.ofChars ((List.range 4).map fun i => s.steer (4 * d + (a - 1024) / 256) (a % 256 + i))
  else match s.recordAt d a with
    | some (p, q, w) => s.queueWord d p q w
    | none => qWord (s.die d).qram a

/-- Characters of queue RAM; a load of any size takes the characters of the registers it covers (R348). -/
def State.ramRead (s : State) (d a n : Nat) : List Chr :=
  (List.range n).map fun i => (s.ramWord d ((a + i) / 4 * 4)).chars.getD ((a + i) % 4) 0

/-- n free characters: the content of queue RAM that cannot be read; no rule gives it. log entry 67. -/
def State.freeChars (s : State) : Nat → State × List Chr
  | 0 => (s, [])
  | n + 1 =>
    let (s1, v) := s.fresh
    let (s2, l) := s1.freeChars n
    (s2, BitVec.ofNat 9 v :: l)

/-- A core (code 0) or the host (code 4) reads queue RAM: corrected symbols are logged and written back; an uncorrectable error is
logged, the packet in which it lies becomes DISCARDED, and the characters read are free (R382). -/
def State.ramFetch (s : State) (d a n part unit code : Nat) : State × List Chr :=
  let ls := (List.range n).map fun i => (a + i) / 64
  let plain := !(decide (d < 8) && decide (a < 4096)) && (s.recordAt d (a / 4 * 4)).isNone
  if !plain then (s, s.ramRead d a n)
  else
    let s1 := s.ramCorrected d part unit ls
    match s.ramBad d ls with
    | some l => ((s1.ramLost d part unit code l).discardAt d l).freeChars n
    | none => (s1, s1.ramRead d a n)

/-- A store to queue RAM: registers take aligned words only, and the port block none (R347, R348). -/
def State.ramWrite (s : State) (d a : Nat) (l : List Chr) : State :=
  if d < 8 ∧ a < 4096 then s
  else match s.recordAt d (a / 4 * 4) with
    | some (p, q, w) =>
      if l.length = 4 ∧ a % 4 = 0 then s.updQueue d p q fun r => r.writeWord w (Word.ofChars l) else s
    | none => s.updDie d fun e => { e with qram := Sparse.setList 0 e.qram a l }

/-! ### Space 2 -/

/-- STATE of SD_STATE (R65). -/
def SdSt.code : SdSt → Nat
  | .unset => 0 | .acquiring => 1 | .locked => 2 | .holdover => 3 | .free => 4

/-- TICK[12:47] (R102). -/
def tickLo (t : BitVec 48) : Word := t.truncate 36

/-- The Sundial block (R100 to R107). -/
def State.sundialWord (s : State) (off : Nat) : Word :=
  let x := s.h.sd
  let g := x.g
  if 112 ≤ off then
    let p := (off - 112) / 12
    let q := s.partn p
    if 16 ≤ p then 0 else pick [word q.sealed, word q.released, word q.visible] ((off - 112) % 12 / 4)
  else if 72 ≤ off ∧ off < 104 then
    let d := (off - 72) / 4
    if (s.die d).member then tickLo (Sparse.get 0 x.hzSeen d) else 0
  else pick
    [word (atPos 2 g.st.code + atPos 5 g.source.toNat + atPos 6 (bit g.which) + atPos 12 g.port.toNat + atPos 13 (bit g.admitOpen) +
      atPos 14 (bit g.slewing) + atPos 15 (bit g.night) + atPos 16 (bit g.beforeOrigin)),
      Pair.hi g.time, Pair.lo g.time, word (g.tick.toNat / 2 ^ 36), tickLo g.tick, g.era, word (g.epoch / 2 ^ 36), word g.epoch,
      word g.tickNs, word g.epochTicks, word g.origin, BitVec.ofInt 36 g.offset, BitVec.ofInt 36 g.freq, word g.holdMs, g.setHi,
      g.setLo, g.err,
      word ((List.range 8).foldl (fun a d => a + atPos d (bit (s.die d).member) + atPos (8 + d) (bit (x.stalled.getLsbD d)))
        (atPos 16 1)),
      0, 0, 0, 0, 0, 0, 0, 0, tickLo x.hzHub, tickLo s.hubHorizon] (off / 4)

/-- SLOTS of partition p (R140). -/
def State.slotCount (s : State) (p : Nat) : Nat := ((List.range 8).map fun d => (s.slotsOf d p).length).sum

/-- Posting counter i of partition p (R140). -/
def State.counterWord (s : State) (p i : Nat) : Word :=
  let c := (s.partn p).cnt
  pick [c.admitted, c.refused, c.committed, c.swabort, c.curfew, c.memerr, c.standin, c.bimgWait, c.grantMax,
    word (s.slotCount p)] i

/-- Word i of the record of gate g (R317 to R319). -/
def State.gateWord (s : State) (g i : Nat) : Word :=
  if !s.gateExists g then 0
  else
    let x := s.gate g
    pick [x.status, x.source, x.addrHi, x.addrLo, x.stamp,
      word (atPos 0 (bit x.abank) + atPos 1 (bit x.swapDone) + x.swaps.toNat)] i

/-- HEARD of MIRROR_STATUS: bit i for MIRROR_ID i (R371, R394). -/
def Mirror.heard (m : Mirror) : Nat := (List.range 4).foldl (fun a i => a + bit (Sparse.get MPeer.reset m.peers i).heard * 2 ^ i) 0

/-- Positions first to first + 3, one for each MIRROR_ID, bit i of v for MIRROR_ID i. -/
def idPositions (first v : Nat) : Nat := (List.range 4).foldl (fun a i => a + atPos (first + i) (v / 2 ^ i % 2)) 0

def PartSt.code : PartSt → Nat
  | .normal => 0 | .reexec => 1 | .degraded => 2 | .stopped => 3 | .following => 4 | .joining => 5

/-- The error-log block (R392 to R394). -/
def State.errorLogWord (s : State) (off : Nat) : Word :=
  if 4096 ≤ off then
    let r := Sparse.get LogRec.reset s.h.elog ((off - 4096) / 16)
    pick [r.w0, r.w1, r.w2, r.w3] (off % 16 / 4)
  else if off = 0 then s.h.elCount
  else if 16 ≤ off ∧ off < 48 then (s.die ((off - 16) / 4)).ceCount
  else if 64 ≤ off ∧ off < 96 then (s.die ((off - 64) / 4)).daccWrap
  else if 96 ≤ off ∧ off < 128 then (s.die ((off - 96) / 4)).daccSkip
  else if 128 ≤ off ∧ off < 176 then
    let t := Sparse.get TsPair.reset s.h.ts ((off - 128) / 12)
    pick [word (atPos 0 (bit t.tandem) + atPos 1 (bit t.fencedLo) + atPos 2 (bit t.fencedHi) + atPos 14 t.mismatches.toNat +
      atPos 26 t.reexecs.toNat), t.epoch, t.digest] ((off - 128) % 12 / 4)
  else if off = 192 then
    let m := s.h.mirror
    word (atPos 1 m.role.toNat + atPos 3 m.id.val + idPositions 4 m.heard + idPositions 8 m.dropped.toNat + atPos 12 (bit m.synced) +
      atPos 13 (bit m.diverged))
  else if off = 196 then word (s.h.mirror.term % 2 ^ 32)
  else if off = 200 then s.h.mirror.drop
  else if 256 ≤ off ∧ off < 384 then
    let q := s.partn ((off - 256) / 8)
    pick [word (atPos 2 q.st.code), word q.stEpoch] (off % 8 / 4)
  else if 384 ≤ off ∧ off < 512 then
    let d := (off - 384) % 64 / 8
    let row := (off - 384) / 64
    pick [word (Sparse.get 0 (s.die d).scrub row % 2 ^ 32), Sparse.get 0 (s.die d).scrubPass row] (off % 8 / 4)
  else 0

/-- A diagnostic word of core c (R185, R440). -/
def State.diagWord (s : State) (c i : Nat) : Word :=
  let k := s.core c
  match i with
  | 0 => k.micro.upc.zeroExtend 36
  | 1 => k.haltRec
  | 2 => k.diagSel
  | 3 =>
    let n := k.diagSel.toNat
    if n < 16 then (k.micro.trace.getD n 0).zeroExtend 36
    else if n < 32 then k.matchWord (n - 16)
    else s.special c (n - 32)
  | _ => 0

/-- Reads the word at a word-aligned character of space 2; a read of GRANT_MAX clears it (RC, R140). In Night the die
blocks and the diagnostic words read zero (R465). -/
def State.space2Read (s : State) (off : Nat) : State × Word :=
  if s.h.pwr.st = .night ∧ 65536 ≤ off ∧ off < 163840 then (s, 0)
  else if off < 4096 then (s, s.sundialWord off)
  else if off < 8192 then
    let p := (off - 4096) / 64
    let i := off % 64 / 4
    if 16 ≤ p then (s, 0)
    else (if i = 8 then s.updPartn p fun q => { q with cnt := { q.cnt with grantMax := 0 } } else s, s.counterWord p i)
  else if off < 16384 then (s, s.gateWord ((off - 8192) / 64) (off % 64 / 4))
  else if 24576 ≤ off ∧ off < 32768 then (s, s.errorLogWord (off - 24576))
  else if 65536 ≤ off ∧ off < 98304 then
    let d := (off - 65536) / 4096
    let i := off % 4096 / 4
    (s, if !s.present d then 0
      else if i < 16 then word (s.visibleAt d i) else if i < 80 then Sparse.get 0 (s.die d).hubMsg (i - 16) else 0)
  else if 131072 ≤ off ∧ off < 163840 then (s, s.diagWord ((off - 131072) / 64) (off % 64 / 4))
  else if 1048576 ≤ off ∧ off < 3145728 then
    (s, s.ramWord (if off < 2097152 then 8 else 9) (off % 1048576))
  else (s, 0)

/-- HUB_MSG of a core (R440). -/
def State.hubMessage (s : State) (c : Nat) (v : Word) : State :=
  let s1 := s.updDie (coreDie c) fun e => { e with hubMsg := Sparse.set 0 e.hubMsg (c % 64) v }
  s1.interrupt c .hub

/-- Writes a word of space 2 (R10, R11). -/
def State.space2Write (s : State) (off : Nat) (v : Word) : State :=
  if s.h.pwr.st = .night ∧ 65536 ≤ off ∧ off < 163840 then s
  else if off = 56 then s.writeSetHi v
  else if off = 60 then s.writeSetLo v
  else if off = 64 then (if BitVec'.at' v 0 then s.updSdRegs fun g => { g with err := 0 } else s)
  else if 8192 ≤ off ∧ off < 16384 then
    if off % 64 = 0 ∧ BitVec'.at' v 0 then
      s.updGate ((off - 8192) / 64) fun x => { x with status := 0, source := 0, addrHi := 0, addrLo := 0, stamp := 0 }
    else s
  else if 65536 ≤ off ∧ off < 98304 then
    let d := (off - 65536) / 4096
    let i := off % 4096 / 4
    if s.present d ∧ 16 ≤ i ∧ i < 80 then s.hubMessage (64 * d + (i - 16)) v else s
  else if 131072 ≤ off ∧ off < 163840 then
    if off % 64 / 4 = 2 then s.updCore ((off - 131072) / 64) fun k => { k with diagSel := word (min v.toNat 57) } else s
  else if 1048576 ≤ off ∧ off < 3145728 then s.ramWrite (if off < 2097152 then 8 else 9) (off % 1048576) v.chars
  else s

end Sys2Proof.Machine
end

