-- ==== Sys2Proof/Machine/Memory.lean ====
section
/-! DEFINITION. Ledger memory as the units of the package use it: regions and lines, before-images and join images (R122,
R123, R128, R373), the digests' CRC (R358), what a read of stored symbols meets (R380, R384), repair (R385) and re-execution
(R360). -/

namespace Sys2Proof.Machine

/-! ### Regions and lines -/

/-- The region that covers line l of die d, whichever partition holds it. -/
def State.regionAt (s : State) (d l : Nat) : Option Region :=
  s.regions.find? fun r =>
    decide (r.first ≤ l) && decide (l ≤ r.last) &&
      (decide (r.die = d) || (decide (s.tandemOf r.part = some (d / 2)) && decide (r.die / 2 = d / 2)))

/-- Partition of a line, 0 where no region covers it. -/
def State.linePart (s : State) (d l : Nat) : Nat :=
  match s.regionAt d l with
  | some r => r.part
  | none => 0

def State.lineInfo (s : State) (d l : Nat) : LineMeta := Sparse.get LineMeta.reset (s.die d).m.info l
/-- The initial key of a line: that of the image which last applied its region or changed the region's key, whether or not a
plan still holds the region (R52). -/
def State.initialKey (s : State) (d l : Nat) : BitVec 4 :=
  match (s.die d).m.keys.find? fun k => decide (k.1 ≤ l) && decide (l ≤ k.2.1) with
  | some k => k.2.2
  | none => 0
def State.lineKey (s : State) (d l : Nat) : BitVec 4 := (s.lineInfo d l).key.getD (s.initialKey d l)
def State.setLineInfo (s : State) (d l : Nat) (m : LineMeta) : State :=
  s.updDie d fun e => { e with m := { e.m with info := Sparse.set LineMeta.reset e.m.info l m } }
def State.lineChars (s : State) (d l : Nat) : List Chr := Sparse.getList 0 (s.die d).m.mem (64 * l) 64
/-- Writes characters of line l from offset at. -/
def State.putChars (s : State) (d l at_ : Nat) (data : List Chr) : State :=
  s.updDie d fun e => { e with m := { e.m with mem := Sparse.setList 0 e.m.mem (64 * l + at_) data } }

/-- Line l of die d waits for a repair (R384). -/
def State.underRepair (s : State) (d l : Nat) : Bool := (s.die d).m.repairs.any fun r => decide (r.line = l)

/-- The die by which a tandem pair's lines are named in digests (R358). -/
def State.digestDie (s : State) (p d : Nat) : Nat := if (s.tandemOf p).isSome then d / 2 * 2 else d

/-! ### Accesses in flight -/

def State.findAccess (s : State) (id : Nat) : Option Access := s.accesses.find? fun a => decide (a.id = id)
def State.updAccess (s : State) (id : Nat) (f : Access → Access) : State :=
  { s with accesses := s.accesses.map fun a => if a.id = id then f a else a }
def State.dropAccess (s : State) (id : Nat) : State :=
  { s with accesses := s.accesses.filter fun a => decide (a.id ≠ id) }

/-! ### Before-images (R122, R123, R128, R373) -/

/-- BIMG_LINES of a die (R139). -/
def State.imageRoom (s : State) (d : Nat) : Bool := decide ((s.die d).m.images.length < s.paramN 41 d 65536)

/-- Saves an image of line l as it stands. -/
def State.saveImage (s : State) (d l : Nat) (p : PartId) (epoch : Nat) (owner : Option (DieId × Nat)) (join : Bool) : State :=
  let g : Image :=
    { line := l, part := p, epoch := epoch, owner := owner, join := join, chars := s.lineChars d l, info := s.lineInfo d l,
      hurt := [] }
  s.updDie d fun e => { e with m := { e.m with images := e.m.images ++ [g] } }

/-- A change of the line by this owner needs an image first. -/
def State.needsImage (s : State) (d l : Nat) (want : Image → Bool) : Bool :=
  !(s.die d).m.images.any fun g => decide (g.line = l) && want g

/-- The image of the line that an observer of epoch e reads: the oldest one after e (R123). -/
def State.imageAfter (s : State) (d l e : Nat) : Option Image :=
  (s.die d).m.images.find? fun g => decide (g.line = l) && !g.join && !epochLe g.epoch e

/-- The line as of epoch e: its content and state. -/
def State.lineAsOf (s : State) (d l e : Nat) : List Chr × LineMeta :=
  match s.imageAfter d l e with
  | some g => (g.chars, g.info)
  | none => (s.lineChars d l, s.lineInfo d l)

/-- The mirror port on which the package sends to a peer: its primary one; the secondary one when that port's link is down or
the peer is silent on it (R364). -/
def State.mirrorPort (s : State) (dst : Nat) : Nat :=
  match s.h.plan.eff.bind fun pl => pl.mirror[dst]? with
  | none => 32
  | some m =>
    let silent := (Sparse.get MPeer.reset s.h.mirror.peers dst).secondary || !(s.port (32 + m.primary)).up
    32 + (if silent && decide (m.secondary < 2) then m.secondary else m.primary)

/-- Entry of MIRROR_ID i in the plan (R419). -/
def State.member (s : State) (i : Nat) : PlanMember :=
  (s.h.plan.eff.bind fun pl => pl.mirror[i]?).getD
    { valid := false, primary := 0, secondary := 0xFF, mac := 0, outer := 0, inner := 0 }

/-- The frame that carries a payload to a peer (R365), to the MAC address and with the tags of the peer's entry (R364). -/
def State.mirrorOctets (s : State) (dst : Nat) (body : MPayload) : List Octet :=
  let m := s.h.mirror
  let q := Sparse.get MPeer.reset m.peers dst
  let f : MFrame := { src := m.id, term := m.term, fseq := q.fseq, body := body }
  let t := (s.member dst).tags
  buildEth (s.member dst).mac (s.member m.id).mac t.1 t.2 0x88B5 (f.octets (s.paramN 16 0 0) dst)

/-- Sends a mirror frame on port n, where the link is up; at 25GBASE-R it carries only HEART frames (R467). It leaves at once: DESIGN
CHOICE, log entry 20. -/
def State.sendMirrorOn (s : State) (n dst : Nat) (body : MPayload) : State :=
  if !(s.port n).up || (s.h.mirror.slow.getLsbD (n - 32) && !body.isHeart) then s
  else
    ((s.updPort n fun z => { z with cnt := { z.cnt with txFrames := z.cnt.txFrames + 1 } }).emit
      (.frame n (s.mirrorOctets dst body))).updMirror fun m =>
        let q := Sparse.get MPeer.reset m.peers dst
        { m with peers := Sparse.set MPeer.reset m.peers dst { q with fseq := (q.fseq + 1) % 2 ^ 32 } }

/-- Sends a mirror frame to a peer. -/
def State.sendMirror (s : State) (dst : Nat) (body : MPayload) : State := s.sendMirrorOn (s.mirrorPort dst) dst body

/-- The before-image store cannot hold a join image: the join is given up (R373). -/
def State.giveUpJoin (s : State) (p : PartId) : State :=
  let q := s.partn p.val
  let s1 := s.sendMirror q.joinTo (.joined p (q.joinEpoch.getD 0) 2)
  let s2 := s1.updPartn p.val fun q => { q with joinEpoch := none }
  iter 8 (fun d x => x.updDie d fun e => { e with m := { e.m with
    images := e.m.images.filter fun g => !(g.join && decide (g.part = p)) } }) s2

/-- The first change of a line of p after J saves a join image (R373). -/
def State.joinImage (s : State) (d l : Nat) (p : PartId) : State :=
  match (s.partn p.val).joinEpoch with
  | none => s
  | some j =>
    if (s.die d).m.images.any fun g => decide (g.line = l) && g.join then s
    else if s.imageRoom d then s.saveImage d l p j none true else s.giveUpJoin p

/-! ### The digests' CRC (R358) -/

def crcPoly : BitVec 64 := 0x42F0E1EBA9EA3693
def crcBit (c : BitVec 64) (b : Bool) : BitVec 64 := if c.msb != b then (c <<< 1) ^^^ crcPoly else c <<< 1
/-- CRC-64 of bits, most significant first. -/
def crc64 (l : List Bool) : BitVec 64 := ~~~(l.foldl crcBit (BitVec.allOnes 64))
/-- Zero bits up to a whole octet. -/
def padOctet (l : List Bool) : List Bool := l ++ List.replicate ((8 - l.length % 8) % 8) false
def charBits (l : List Chr) : List Bool := l.flatMap fun c => bitsOf 9 c.toNat

/-- A store to a plain line enters UNORDERED of its epoch. The width of the character offset, 6 bits, is PRESUMED, log entry
19. -/
def State.countPlain (s : State) (p d l at_ epoch : Nat) (data : List Chr) : State :=
  let b := bitsOf 3 (s.digestDie p d) ++ bitsOf 28 l ++ bitsOf 6 at_ ++ charBits data
  s.updDie d fun e => { e with
    unordered := Sparse.set 0 e.unordered (16 * epoch + p) (Sparse.get 0 e.unordered (16 * epoch + p) + crc64 (padOctet b)) }

/-- The epoch in which a store of core c to a plain line counts. -/
def State.storeEpoch (s : State) (c : Nat) : Nat :=
  match s.coreSlot c with
  | some v => s.slotEpoch v
  | none => s.epochOf s.tick

/-! ### Re-execution (R360) -/

/-- Epoch e lies after r. -/
def epochAfter (e r : Nat) : Bool := !epochLe e r

/-- The outcome stands through a re-execution. -/
def Outcome.isEvent : Outcome → Bool
  | .curfew => true
  | .memerr => true
  | _ => false

/-- Slots of die d whose transactions of p run again from epoch r. -/
def State.rerunSlots (s : State) (p r d : Nat) : List Nat :=
  (s.slotsOf d p).filter fun n =>
    let v := s.slot d n
    epochAfter (s.slotEpoch v) r && !(match v.outcome with | some o => o.isEvent | none => false)

/-- An access in flight of a transaction that is taken back: a store under its claims is not performed, an operation of the
posting unit is not issued, a claimed read becomes an unclaimed one. -/
def Access.takenBack (a : Access) : Option Access :=
  let claimed := a.parts.any AccPart.claimed
  if !claimed then some a
  else if a.posted then none
  else match a.op with
    | .dpost _ _ => some { a with st := .posted 8 0 }
    | .dcas _ _ _ => some { a with st := .posted 8 0 }
    | .write => some { a with parts := a.parts.map fun q => if q.claimed then { q with claimed := false, resp := some [] } else q }
    | .setkey _ => some { a with parts := a.parts.map fun q => { q with claimed := false, resp := some [] } }
    | .cst => some { a with parts := a.parts.map fun q => if q.claimed then { q with claimed := false, resp := some [] } else q }
    | _ => some { a with parts := a.parts.map fun q => { q with claimed := false } }

/-- The slot at a core of a transaction that has been taken back. -/
def phantomSlot (c : Nat) : Nat := 512 + c % 64

/-- Takes slot n of die d back from the core that holds it. -/
def State.takeBack (s : State) (d n : Nat) : State :=
  let v := s.slot d n
  let left (a : Access) : Option Access := if coreDie a.core = d ∧ a.slot = some n then a.takenBack else some a
  let s1 := { s with accesses := s.accesses.filterMap left }
  let s2 := match v.core with
    | none => s1
    | some c =>
      ((s1.updCore c fun k => { k with
          txn := some (phantomSlot c),
          cur := k.cur.map fun (x : Cur) => { x with gate := false } }).setSlot d (phantomSlot c)
        { Slot.reset with st := .aborted, part := v.part, pos := v.pos, core := some c, outcome := some .curfew,
                          restored := true, departed := true }).interrupt c .aborted
  let s3 := iter 8 (fun k x => x.updCluster (8 * d + k) fun z => { z with pool := z.pool.filter (· ≠ n) }) s2
  s3.updSlot d n fun v =>
    { v with st := .queued, core := none, claims := [], borrowed := false, acc := [], resp := none, outcome := none,
             restored := false, departed := false }

/-- Responses of p after r that have not departed are DISCARDED; a follower's never depart (R370). -/
def State.discardResponses (s : State) (p r d : Nat) : State :=
  iter 4 (fun g x =>
    let gone (e : Cached) : Bool := decide (e.part.val = p) && (!e.departed || decide (s.h.mirror.role = 2)) && epochAfter e.epoch r
    let x1 := ((x.port (4 * d + g)).cached.filter gone).foldl (fun y e => y.retype d p (4 + g) e.ptr 2) x
    (x1.updPort (4 * d + g) fun z => { z with cached := z.cached.filter fun e => !gone e }).skipHead d p (4 + g)) s

/-- A message that a re-execution of p from r makes void; s is the state before it. -/
def State.voidMsg (s : State) (p r : Nat) : Msg → Bool
  | .claim _ q => decide (q.part.val = p)
  | .grant dst n _ _ _ => decide ((s.slot dst n).part.val = p)
  | .frontier _ _ q _ => decide (q.val = p)
  | .claimRelease dst line n src =>
    (s.die dst).o.claims.any fun q =>
      decide (q.part.val = p) && decide (q.line = line) && decide (q.slot = n) && decide (q.fromDie = src)
  | .resolve src n _ _ => decide (n ∈ s.rerunSlots p r src)
  | .answer dst n _ _ => decide (n ∈ s.rerunSlots p r dst)
  | .digest _ q e _ _ => decide (q.val = p) && epochAfter e r
  | _ => false

/-- The gate's records of p: outcomes of events and of sealed epochs stay. -/
def Partition.clearOutcomes (q : Partition) (r : Nat) : Partition :=
  { q with
    txns := q.txns.map fun t =>
      if epochAfter t.epoch r && !epochLe t.epoch q.sealed && !(match t.outcome with | some o => o.isEvent | none => false)
      then { t with outcome := none } else t,
    digests := q.digests.filter fun x => !epochAfter x.2.1 r }

/-- What a follower holds of epoch e: the number and the trailer of its LAST segment (R367). -/
def Partition.heldLastOf (q : Partition) (e : Nat) : Option (Nat × Nat × BitVec 64 × BitVec 64) := Sparse.get none q.heldLast e
/-- Segments of epoch e known to be missing (R369). -/
def Partition.missing (q : Partition) (e : Nat) : List Nat :=
  match q.heldLastOf e with
  | none => []
  | some x => (List.range (x.1 + 1)).filter fun n => !(Sparse.get [] q.held e).any fun g => decide (g.1 = n)
def Partition.complete (q : Partition) (e : Nat) : Bool := (q.heldLastOf e).isSome && (q.missing e).isEmpty
/-- The last epoch of a run of complete ones after e, n of them at most. -/
def Partition.heldFrom (q : Partition) (e : Nat) : Nat → Nat
  | 0 => e
  | n + 1 => if q.complete (epochNext e) then q.heldFrom (epochNext e) n else e
/-- HELD: every epoch up to and including this one is held complete (R369). -/
def Partition.heldTo (q : Partition) : Nat := q.heldFrom q.applied q.heldLast.length

/-! ### DRAM rows (R386, R387) -/

/-- The 80-byte unit of a row that holds line l, in the address order of the scrubber (R383), and the one that holds its tag line
(R381). -/
def lineUnit (l : Nat) : Nat := l / 32 * 16 + l % 16
def tagUnit (l : Nat) : Nat := 2 ^ 27 + tagLineOf l

/-- Pseudo-channel, bank and DRAM row of a unit of a row. -/
def dramOf (row u : Nat) : Nat × Nat × Nat :=
  let x := Config.dramPlace (u / 16)
  (16 * row + u % 16, x.1, x.2)

def State.remap (s : State) (d pc bank row : Nat) : Option (Nat × Nat × Nat × Bool) :=
  (s.die d).m.remaps.find? fun e => decide (e.1 = pc ∧ e.2.1 = bank ∧ e.2.2.1 = row)

/-- Spare rows of a pseudo-channel that are free. -/
def State.sparesLeft (s : State) (d pc : Nat) : Nat := 32 - ((s.die d).m.remaps.filter fun e => decide (e.1 = pc)).length

/-- The bank of the spare that takes a row: another than the row's own. -/
def spareBankFor (d pc bank row : Nat) : Nat :=
  let b := Config.spareBank d pc bank row
  if b = bank then bank + 1 else b

/-- The bank that serves a DRAM row: its own, or its spare's. -/
def State.servedBank (s : State) (d : Nat) (x : Nat × Nat × Nat) : Nat :=
  match (s.die d).m.spares.find? fun y => decide ((y.1, y.2.1, y.2.2.1) = x) with
  | some y => y.2.2.2
  | none => x.2.1

/-- Accesses to a unit wait: its DRAM row is being copied to a spare, or the bank that serves it is under repair. -/
def State.unitWaits (s : State) (d row u : Nat) : Bool :=
  (s.die d).m.copying.any (fun x => decide (x = dramOf row u) && decide (s.sparesLeft d x.1 ≠ 0)) ||
    (s.die d).m.remaps.any fun e => e.2.2.2 && decide (e.1 = (dramOf row u).1) && decide (e.2.1 = s.servedBank d (dramOf row u))

/-- Accesses to line l of die d wait for its DRAM row or that of its tag line. -/
def State.rowWaits (s : State) (d l : Nat) : Bool :=
  s.unitWaits d (rowOf l) (lineUnit l) || s.unitWaits d (rowOf l) (tagUnit l)

/-- The DRAM row of a unit is to be remapped to a spare. -/
def State.failRow (s : State) (d row u : Nat) : State :=
  let x := dramOf row u
  if decide (x ∈ (s.die d).m.copying) || (s.remap d x.1 x.2.1 x.2.2).isSome then s
  else s.updDie d fun e => { e with m := { e.m with
    copying := e.m.copying ++ [x], rowCe := e.m.rowCe.filter fun y => decide ((y.1, y.2.1, y.2.2.1) ≠ x) } }

/-- n more corrected symbols of a unit's DRAM row within the scrub pass; ROW_CE_LIMIT of them fail it. -/
def State.countRowCe (s : State) (d row u n : Nat) : State :=
  let x := dramOf row u
  let mine (y : Nat × Nat × Nat × Nat) : Bool := decide ((y.1, y.2.1, y.2.2.1) = x)
  let k := (((s.die d).m.rowCe.find? mine).map fun y => y.2.2.2).getD 0 + n
  if s.paramN 26 0 32 ≤ k then s.failRow d row u
  else s.updDie d fun e => { e with m := { e.m with
    rowCe := e.m.rowCe.filter (fun y => !mine y) ++ [(x.1, x.2.1, x.2.2, k)] } }

/-! ### Repair (R384, R385) -/

/-- Entries for a line whose repair has failed are skipped (R127). -/
def State.skipHeld (s : State) (d l : Nat) : State :=
  s.updDie d fun e =>
    let n := (e.m.dacc.filter fun x => decide (x.2.2.2.line = l)).length
    { e with
      m := { e.m with
        dacc := e.m.dacc.filter (fun x => decide (x.2.2.2.line ≠ l)),
        repairs := e.m.repairs.filter fun r => decide (r.line ≠ l) },
      daccSkip := e.daccSkip + BitVec.ofNat 36 n }

/-- A repair fails: the line stays poisoned. -/
def State.poisonKept (s : State) (d l : Nat) : State :=
  ((s.logErr 0o04 2 d false (s.linePart d l) (rowOf l) (paWord2 (linePa d l)) (paWord3 (linePa d l) 0)).setLineInfo d l
    { s.lineInfo d l with poison := true }).skipHeld d l

/-- A follower that can be asked: heard, SYNCED, not DIVERGED, not DROPPED (R375). -/
def Mirror.eligible (m : Mirror) (i : Nat) : Bool :=
  let q := Sparse.get MPeer.reset m.peers i
  q.heard && decide (q.role = 2) && q.flags.testBit 1 && !q.flags.testBit 2 && !q.flags.testBit 3 && !m.dropped.getLsbD i &&
    decide (i ≠ m.id.val)

def Mirror.firstEligible (m : Mirror) : Option Nat := (List.range 4).find? m.eligible

/-- The partner of a die (R357). -/
def partnerOf (d : Nat) : Nat := d / 2 * 2 + (1 - d % 2)

/-- Asks the partner die for the line as of epoch e. -/
def State.askPartner (s : State) (d l e : Nat) : State :=
  if h : d < 8 ∧ partnerOf d < 8 then s.post (.fetchLine ⟨d, h.1⟩ ⟨partnerOf d, h.2⟩ l e) else s

/-- Starts the repair of a poisoned line, from the partner die of a tandem pair, else from the first eligible follower. -/
def State.startRepair (s : State) (d l : Nat) : State :=
  match s.regionAt d l with
  | none => s.poisonKept d l
  | some g =>
    let r := (s.partn g.part).released
    if h : g.part < 16 then
      let begun (x : State) (partner : Bool) : State := x.updDie d fun e =>
        { e with m := { e.m with
          repairs := e.m.repairs.filter (fun q => decide (q.line ≠ l)) ++ [{ line := l, part := ⟨g.part, h⟩, epoch := r, partner := partner }] } }
      if (s.tandemOf g.part).isSome && s.alive (partnerOf d) then (begun s true).askPartner d l r
      else match s.h.mirror.firstEligible with
        | none => s.poisonKept d l
        | some i =>
          let tag := (s.h.mirror.fetchTag + 1) % 2 ^ 32
          (begun (s.updMirror fun m => { m with fetchTag := tag }) false).sendMirror i (.fetch g.part d l r (BitVec.ofNat 32 tag))
    else s.poisonKept d l

/-! ### What a read of stored symbols meets (R380, R381, R384) -/

/-- Corrected symbols of a line (MEM_CE), each logged with its codeword and place. -/
def State.corrected (s : State) (d l : Nat) (at_ : List (Nat × Nat)) : State :=
  (at_.foldl (fun x c => (x.logErr 0o01 1 d false (x.linePart d l) (rowOf l) (paWord2 (linePa d l))
    (paWord3 (linePa d l) (eccItem c.1 c.2))).updDie d fun e => { e with ceCount := e.ceCount + 1 }) s).countRowCe d (rowOf l)
      (lineUnit l) at_.length

/-- Corrected symbols in a reserved area of a stack: address 0, UNIT the row (R492). -/
def State.correctedArea (s : State) (d row : Nat) (at_ : List (Nat × Nat)) : State :=
  at_.foldl (fun x c => (x.logErr 0o01 1 d false 0 row 0 (paWord3 0 (eccItem c.1 c.2))).updDie d fun e =>
    { e with ceCount := e.ceCount + 1 }) s

/-- An uncorrectable error in a reserved area; code names the reading unit (R492). -/
def State.areaLost (s : State) (d row part code : Nat) : State := s.logErr 0o02 2 d false part row 0 (paWord3 0 code)

/-- An uncorrectable read of a line: POISON, MEM_UE, repair; its DRAM row is remapped. code names the reading unit (R492). -/
def State.uncorrectable (s : State) (d l code unit : Nat) : State :=
  let s1 := (s.setLineInfo d l { s.lineInfo d l with poison := true }).failRow d (rowOf l) (lineUnit l)
  (s1.logErr 0o02 2 d false (s.linePart d l) unit (paWord2 (linePa d l)) (paWord3 (linePa d l) code)).startRepair d l

/-- An uncorrectable tag line: each of its 64 lines is poisoned with KEY 0 and CAPLINE 0, and repaired (R381). -/
def State.tagLost (s : State) (d l : Nat) : State :=
  let j := tagLineOf l
  let s1 := (s.logErr 0o05 2 d false (s.linePart d l) (rowOf l) (BitVec.ofNat 36 j) 0).failRow d (rowOf l) (tagUnit l)
  iter 64 (fun i x =>
    let n := taggedLine (rowOf l) j i
    (x.setLineInfo d n { key := some 0, keyed := false, capline := false, poison := true }).startRepair d n) s1

/-- A correction beyond the code's guarantees has changed the tag line of l: its lines take what it now holds. -/
def State.alterTags (s : State) (d l : Nat) (x : List (Nat × BitVec 4)) : State :=
  if x.isEmpty then s
  else iter 64 (fun i y =>
    let c := tagChange x i
    if c &&& 0xFC = 0 then y
    else
      let n := taggedLine (rowOf l) (tagLineOf l) i
      let m := y.lineInfo d n
      y.setLineInfo d n { m with
        key := some (y.lineKey d n ^^^ c.extractLsb' 4 4), capline := m.capline != c.getLsbD 3, poison := m.poison != c.getLsbD 2 }) s

/-- The read of its tag line that an access to a line begins with: the state, and whether the tags are lost. -/
def State.readTags (s : State) (d l : Nat) (e : Ecc) : State × Bool :=
  match readUnit160 e.tag with
  | .clean => (s, false)
  | .corrected at_ left =>
    (((s.correctedArea d (rowOf l) at_).countRowCe d (rowOf l) (tagUnit l) at_.length).alterTags d l left, false)
  | .uncorrectable => (s.tagLost d l, true)

/-- Takes up the result of a read of line l by a unit: the state and whether the content is lost. A correction beyond the code's
guarantees leaves altered data. -/
def State.readSymbols (s : State) (d l : Nat) (e : Ecc) (code unit : Nat) : State × Bool :=
  if (s.lineInfo d l).poison then (s, true)
  else match readUnit160 e.line with
    | .clean => (s, false)
    | .corrected at_ left =>
      let s1 := s.corrected d l at_
      (if left.isEmpty then s1 else s1.putChars d l 0 (alterChars (s1.lineChars d l) left), false)
    | .uncorrectable => (s.uncorrectable d l code unit, true)

/-! ### Before-images and their errors (R382) -/

/-- Puts g' in place of image g. -/
def State.swapImage (s : State) (d : Nat) (g g' : Image) : State :=
  s.updDie d fun e => { e with m := { e.m with images := e.m.images.map fun h => if h = g then g' else h } }

/-- A before-image that cannot be read: MEM_UE, and its transaction is resolved as MEMERR. -/
def State.imageLost (s : State) (d : Nat) (g : Image) (code : Nat) : State :=
  let s1 := s.areaLost d (rowOf g.line) g.part.val code
  match g.owner with
  | some (o, n) => if s.ownImage o n g then s1.post (.resolve o n (s.slot o n).pos .memerr) else s1
  | none => s1

/-- A unit reads a before-image; x: symbols found changed. The state, and the image unless it is lost. -/
def State.readImage (s : State) (d : Nat) (g : Image) (x : List (Nat × BitVec 4)) (code : Nat) : State × Option Image :=
  match readUnit160 (g.hurt ++ x) with
  | .clean => (s, some g)
  | .corrected at_ left =>
    let g' := { g with chars := alterChars g.chars left, hurt := [] }
    ((s.correctedArea d (rowOf g.line) at_).swapImage d g g', some g')
  | .uncorrectable => ((s.imageLost d g code).swapImage d g { g with hurt := g.hurt ++ x }, none)

/-- Restores a line from a before-image (R131); one that cannot be read leaves the line poisoned and under repair: DESIGN CHOICE,
log entry 67. -/
def State.restoreFrom (s : State) (d : Nat) (g : Image) : State :=
  match readUnit160 g.hurt with
  | .clean => s.putLine d g.line g.chars g.info
  | .corrected at_ left => (s.correctedArea d (rowOf g.line) at_).putLine d g.line (alterChars g.chars left) g.info
  | .uncorrectable =>
    ((s.areaLost d (rowOf g.line) g.part.val 6).setLineInfo d g.line { s.lineInfo d g.line with poison := true }).startRepair d g.line

/-- Restores on die e the lines that slot n of die d changed, from its before-images, and discards these (R131). -/
def State.restoreOn (s : State) (d n e : Nat) : State :=
  let mine (g : Image) : Bool := s.ownImage d n g
  let s1 := ((s.die e).m.images.filter mine).foldl (fun x g => x.restoreFrom e g) s
  s1.updDie e fun z => { z with m := { z.m with images := z.m.images.filter fun g => !mine g } }

/-- Restores every line that slot n of die d changed and sends its releases. -/
def State.restoreSlot (s : State) (d n : Nat) : State :=
  let s1 := iter 8 (fun e x => x.restoreOn d n e) s
  (s1.releaseClaims d n).updSlot d n fun v => { v with restored := true, acc := [] }

/-! ### Re-execution from before-images (R360) -/

/-- Restores the lines of die d that hold before-images of p tagged after r, each from the oldest, and discards these. -/
def State.rollBack (s : State) (p r d : Nat) : State :=
  let mine (g : Image) : Bool := !g.join && decide (g.part.val = p) && epochAfter g.epoch r
  let s1 := ((s.die d).m.images.filter mine).reverse.foldl (fun x g => x.restoreFrom d g) s
  s1.updDie d fun e =>
    let m := e.m
    { e with
      m := { m with
        images := m.images.filter fun g => !mine g,
        dacc := m.dacc.filter fun x => !(decide (x.2.2.1.val = p) && epochAfter x.2.1 r) },
      o := { e.o with
        claims := e.o.claims.filter fun q => decide (q.part.val ≠ p),
        frontier := e.o.frontier.filter fun x => decide (x.1 % 16 ≠ p),
        frontSent := Sparse.set none e.o.frontSent p none },
      unordered := e.unordered.filter fun x => !(decide (x.1 % 16 = p) && epochAfter (x.1 / 16) r) }

/-- Re-execution of partition p from its released epoch, until the epochs up to the current one agree. -/
def State.reexecute (s : State) (p : Nat) : State :=
  let r := (s.partn p).released
  let s1 := { s with msgs := s.msgs.filter fun m => !s.voidMsg p r m }
  let rerun (d : Nat) (x : Position) : Bool := (s.rerunSlots p r d).any fun n => decide ((s.slot d n).pos = x)
  let s2 := iter 8 (fun d x =>
    let x1 := (s.rerunSlots p r d).foldl (fun y n => y.takeBack d n) x
    let x2 := (x1.rollBack p r d).discardResponses p r d
    x2.updDie d fun e => { e with
      digests := e.digests.filter fun g => !(decide (g.part.val = p) && epochAfter g.epoch r && rerun d g.pos) }) s1
  let s3 := s2.updHost fun x => { x with resp := Sparse.set [] x.resp p ((Sparse.get [] x.resp p).filter fun h =>
    match h.epoch with
    | some e => !epochAfter e r
    | none => true) }
  let s4 := s3.updPartn p fun q =>
    { q.clearOutcomes r with st := .reexec, stEpoch := epochNext r, reexecTo := if s.h.mirror.role = 2 then (s.partn p).heldTo else s.h.sd.g.epoch }
  match s.tandemOf p with
  | some k => s4.updTs k fun t => { t with reexecs := if t.reexecs = BitVec.allOnes 12 then t.reexecs else t.reexecs + 1 }
  | none => s4

/-- A repair succeeds with the content and state received; source 1 partner, 2 follower. A before-image of the line after the
released epoch means that p runs again (R385). -/
def State.repaired (s : State) (d l : Nat) (chars : List Chr) (info : LineMeta) (source : Nat) : State :=
  let p := s.linePart d l
  let r := (s.partn p).released
  let s1 := (s.putLine d l chars { info with poison := false }).updDie d fun e =>
    { e with m := { e.m with repairs := e.m.repairs.filter fun r => decide (r.line ≠ l) } }
  let s2 := s1.logErr 0o03 0 d false p (rowOf l) (paWord2 (linePa d l)) (paWord3 (linePa d l) source)
  if s.imageAfter d l r |>.isSome then s2.reexecute p else s2

/-! ### Order of arrival at a line (R55) -/

/-- Some part of access b is still to be performed at line l of die d. -/
def State.pendsAt (s : State) (b : Access) (d l : Nat) : Bool :=
  b.parts.any fun q => !q.scratch && decide (spaceOf q.pa = 0) && q.resp.isNone &&
    decide (s.target b.part.val (coreDie b.core) q.pa = some (d, l))

/-- Another access comes before a at the line: an earlier one of its own core (R209), or one that has arrived there first. One
that waits for before-image space holds up its own core only: DEDUCED, log entry 52. -/
def State.earlierOut (s : State) (a : Access) (d l : Nat) : Bool :=
  s.accesses.any fun b =>
    (match b.st with
      | .sent => decide (b.core = a.core) && decide (b.id < a.id)
      | .admitted => if b.core = a.core then decide (b.id < a.id) else decide (b.arrival < a.arrival) && !b.waited
      | _ => false) && s.pendsAt b d l

/-- An access of a core has arrived at the line and is still to be performed: one from outside any cluster comes after it. -/
def State.lineTaken (s : State) (d l : Nat) : Bool :=
  s.accesses.any fun b => decide (b.st = .admitted) && !b.waited && s.pendsAt b d l

/-- An access from outside the clusters waits at the line: for an earlier access, for its repair, or for its DRAM row. -/
def State.outerWaits (s : State) (d l : Nat) : Bool := s.lineTaken d l || s.underRepair d l || s.rowWaits d l

/-- UNIT of a core: cluster × 8 + core (R393). -/
def coreUnit (c : Nat) : Nat := c % 64

/-- The die of a core asks the gate to resolve its transaction as MEMERR (R134). -/
def State.memErr (s : State) (c : Nat) (slot : Option Nat) : State :=
  match slot with
  | some n => if h : coreDie c < 8 then s.post (.resolve ⟨coreDie c, h⟩ n (s.slot (coreDie c) n).pos .memerr) else s
  | none => s

end Sys2Proof.Machine
end

