-- ==== Sys2Proof/Machine/GateCheck.lean ====
section
/-! DEFINITION. The gates: checks 1 to 5 of R311, the default map (R312), the fixed slots of the hub gate (R316) and the
violation records (R317, R318). -/

namespace Sys2Proof.Machine

/-- The slot right that an access needs (R283); acc is a DACC entry applied at commit. -/
inductive Right where
  | rd | wr | pst | acc
  deriving DecidableEq, Repr

/-- Who makes an access: partition, the die whose copies it reaches, SYS; anyPart: check 4 passes (R446). -/
structure Visitor where
  part : Nat
  die : Nat
  sys : Bool
  anyPart : Bool
  deriving DecidableEq, Repr

/-- What a gate answers: its number, the reason of R311 or 0 for admitted, the slot that matched or 127, its active bank, and
whether the default map admitted the access. -/
structure Verdict where
  gate : Nat
  reason : Nat
  slot : Nat
  bank : Bool
  dflt : Bool
  deriving DecidableEq, Repr

/-- The rules of the active bank. -/
def Gate.active (g : Gate) : Sparse Rule := if g.abank then g.bank1 else g.bank0
def Gate.rule (g : Gate) (n : Nat) : Rule := Sparse.get Rule.reset g.active n
/-- The enabled slot that covers a line. -/
def Gate.slotOf (g : Gate) (slots line : Nat) : Option Nat :=
  (List.range slots).find? fun i => (g.rule i).en && decide ((g.rule i).first ≤ line) && decide (line ≤ (g.rule i).last)

/-- The slot right of check 5. -/
def Rule.permits (r : Rule) : Right → Bool
  | .rd => r.rd
  | .wr => r.wr && r.kind ≠ 2
  | .pst => r.pst && r.kind ≠ 2
  | .acc => r.pst

/-- The verdict of gate g where slot m, if any, covers the address. -/
def State.gateAnswer (s : State) (g : Nat) (m : Option Nat) (v : Visitor) (right : Right) (dflt : Bool) : Verdict :=
  let x := s.gate g
  match m with
  | none => { gate := g, reason := if dflt && v.sys then 0 else 3, slot := 127, bank := x.abank, dflt := dflt && v.sys }
  | some i =>
    let r := x.rule i
    let reason := if !v.anyPart && !r.pmask.getMsbD v.part then 4 else if !r.permits right then 5 else 0
    { gate := g, reason := reason, slot := i, bank := x.abank, dflt := false }

/-- A refusal before any slot is looked at. -/
def State.gateRefuses (s : State) (g reason : Nat) : Verdict :=
  { gate := g, reason := reason, slot := 127, bank := (s.gate g).abank, dflt := false }

/-- The offsets of the hub gate's slots 0 to 8 (R316). -/
def hubBlocks : List (Nat × Nat) :=
  [(0, 4095), (4096, 8191), (8192, 16383), (16384, 24575), (24576, 32767), (65536, 98303), (131072, 163839),
    (1048576, 2097151), (2097152, 3145727)]

/-- Characters of a die's queue RAM (R346). -/
def queueRamSize : Nat := 4194304

/-- Before a plan is applied the default map reaches SD_SET_HI and SD_SET_LO, which R104 leaves RW then. DEDUCED, log entry 37. -/
def State.sdSetOpen (s : State) (a : Nat) : Bool := s.h.plan.eff.isNone && decide (56 ≤ a) && decide (a < 64)

/-- Checks 1 to 5 of R311 for an access at pa. aligned: an aligned word access, or GETKEY. In Night spaces 0 and 1 map no target
(R465). -/
def State.verdict (s : State) (v : Visitor) (pa : Nat) (right : Right) (aligned : Bool) : Verdict :=
  let a := pa % 2 ^ 37
  if s.h.pwr.st = .night ∧ spaceOf pa < 2 then s.gateRefuses 48 1
  else match spaceOf pa with
  | 0 =>
    let l := a / 64 % 2 ^ 28
    match s.copyDie v.part v.die (a / 2 ^ 34) with
    | none => s.gateRefuses (2 * v.die + rowOf l) 1
    | some d =>
      if !s.alive d then s.gateRefuses 48 1
      else
        let g := 2 * d + rowOf l
        s.gateAnswer g ((s.gate g).slotOf 64 l) v right false
  | 1 =>
    let n := a / 2 ^ 32
    let c := a % 2 ^ 32
    let d := n / 4
    if !s.alive d then s.gateRefuses 48 1
    else if n % 4 ≠ 0 ∨ !s.portExists n ∨ queueRamSize ≤ c then s.gateRefuses (16 + 4 * d) 1
    else s.gateAnswer (16 + n) ((s.gate (16 + n)).slotOf 16 (c / 64)) v right true
  | 2 =>
    if !aligned then s.gateRefuses 48 2
    else
      let i := hubBlocks.findIdx? fun b => decide (b.1 ≤ a) && decide (a ≤ b.2)
      let x := s.gateAnswer 48 (i.filter fun n => ((s.gate 48).rule n).en) v right true
      { x with dflt := x.dflt && !s.sdSetOpen a }
  | 3 =>
    if !s.h.host.g.h3En || !s.h.host.busMaster then s.gateRefuses 49 1
    else s.gateAnswer 49 ((s.gate 49).slotOf 16 (a / 64)) v right false
  | _ => s.gateRefuses 48 1

/-! ### Violation records (R317, R318) -/

/-- GV_SOURCE of a core's access. -/
def coreSource (p c key lineKey : Nat) (sys : Bool) : Word :=
  word (p * 2 ^ 32 + coreDie c * 2 ^ 29 + coreCluster c % 8 * 2 ^ 26 + coreIndex c * 2 ^ 23 + key * 2 ^ 18 + lineKey * 2 ^ 14 +
    bit sys * 2 ^ 13)
/-- GV_SOURCE of an inbound host access. -/
def hostSource (p key lineKey : Nat) (sys : Bool) : Word :=
  word (p * 2 ^ 32 + 2 ^ 22 + key * 2 ^ 18 + lineKey * 2 ^ 14 + bit sys * 2 ^ 13)

/-- KIND of the record (R317). -/
def AccOp.kind (posted : Bool) : AccOp → Nat
  | .read => 0
  | .write => if posted then 1 else 2
  | .dpost _ _ => 3
  | .dcas _ _ _ => 3
  | _ => 5

/-- A violation at gate g: the first one is recorded, later ones are counted. -/
def Gate.record (x : Gate) (reason kind slot : Nat) (bank : Bool) (source : Word) (pa : Nat) (tick : BitVec 48) : Gate :=
  if BitVec'.at' x.status 0 then
    let n := (BitVec'.pos x.status 9 12).toNat
    { x with status := BitVec'.setPos x.status 9 12 (min (n + 1) 4095) }
  else
    { x with
      status := word (2 ^ 35 + reason * 2 ^ 31 + kind * 2 ^ 28 + bit bank * 2 ^ 27 + slot % 128 * 2 ^ 8), source := source,
      addrHi := word (pa / 2 ^ 36), addrLo := word pa, stamp := tickLo tick }

def State.violation (s : State) (v : Verdict) (kind : Nat) (source : Word) (pa : Nat) : State :=
  s.updGate v.gate fun x => x.record v.reason kind v.slot v.bank source pa s.tick

/-- The slot right of an operation. -/
def AccOp.right : AccOp → Right
  | .read => .rd
  | .cld => .rd
  | .getkey => .rd
  | .dpost _ _ => .pst
  | .dcas _ _ _ => .pst
  | _ => .wr

/-- The verdict on a part of a core's access. -/
def State.partVerdict (s : State) (a : Access) (q : AccPart) : Verdict :=
  let word := decide (q.len = 4) && decide (q.pa % 4 = 0) && q.whole
  s.verdict { part := a.part.val, die := coreDie a.core, sys := q.sys, anyPart := false } q.pa a.op.right
    (decide (a.op = .getkey) || (word && decide (a.op = .read ∨ a.op = .write)))

/-- Records the refusal of a part. -/
def State.refusePart (s : State) (a : Access) (q : AccPart) (v : Verdict) (lineKey : Nat) : State :=
  s.violation v (a.op.kind a.posted) (coreSource a.part.val a.core.val q.key.toNat lineKey q.sys) q.pa

end Sys2Proof.Machine
end

