-- ==== Sys2Proof/Machine/Access.lean ====
section
/-! DEFINITION. Accesses in flight: their gates (R311, R315), what they do at the row's controller (R55, R291 to R297, R314,
R384), at queue RAM, hub blocks and host memory (R58, R59, R449), the walker (R301, R302, R304), the response to the core
(R142), and the taking of interrupts (R174 to R176). -/

namespace Sys2Proof.Machine

/-! ### Failures -/

/-- A refused or failed access: the cause at the core, TARGET_VIOLATION for a posted store. -/
def State.failAccess (s : State) (a : Access) (cause : Cause) (va : Nat) : State :=
  s.updAccess a.id fun x => { x with st := .failed (if a.posted then .targetViolation else cause) va }

def AccPart.side (q : AccPart) : Bool := !q.scratch && decide (spaceOf q.pa ≠ 0)
def AccPart.stored (q : AccPart) : Bool := !q.scratch && decide (spaceOf q.pa = 0)

def State.setPart (s : State) (id k : Nat) (f : AccPart → AccPart) : State :=
  s.updAccess id fun a => { a with parts := a.parts.modify k f }

/-- The part is performed: the characters it read, or none. A posted store is then gone. -/
def State.partDone (s : State) (id k : Nat) (l : List Chr) : State :=
  let s1 := s.setPart id k fun q => { q with resp := some l }
  match s1.findAccess id with
  | some a => if a.posted && a.parts.all (fun q => q.scratch || q.resp.isSome) then s1.dropAccess id else s1
  | none => s1

/-! ### Queue RAM, hub blocks, host memory -/

/-- Host address of a physical address of space 3 (R449). -/
def State.hostAddr (s : State) (pa : Nat) : Nat := (s.h.host.g.h3Base.toNat + pa % 2 ^ 37) % 2 ^ 64

/-- The PF can send requests: link up, Bus Master Enable 1, power state D0 (R433, R450). -/
def State.hostSends (s : State) : Bool := s.h.host.linkUp && s.h.host.busMaster && !(s.fnCfg 0).d3hot

/-- Sends a Memory Write of the PF; one that the link cannot send is dropped (R450). -/
def State.hostWrite (s : State) (pa : Nat) (l : List Chr) : State :=
  if s.hostSends then s.emit (.memWrite (s.hostAddr pa) (octetsOfChars l))
  else s.updHostRegs fun g => { g with err := g.err ||| 4 }

/-- Writes of a part to spaces 1 to 3. -/
def State.sideWrite (s : State) (q : AccPart) (dflt : Bool) (l : List Chr) : State :=
  match spaceOf q.pa with
  | 1 => s.ramWrite (q.pa % 2 ^ 37 / 2 ^ 34) (q.pa % 2 ^ 32) l
  | 2 => if dflt then s else s.space2Write (q.pa % 2 ^ 37) (Word.ofChars l)
  | 3 => s.hostWrite q.pa l
  | _ => s

/-- Reads of a part of spaces 1 and 2. -/
def State.sideRead (s : State) (a : Access) (q : AccPart) (dflt : Bool) : State × List Chr :=
  match spaceOf q.pa with
  | 1 => s.ramFetch (q.pa % 2 ^ 37 / 2 ^ 34) (q.pa % 2 ^ 32) q.len a.part.val (coreUnit a.core) 0
  | 2 => if dflt then (s, List.replicate q.len 0) else let (s', w) := s.space2Read (q.pa % 2 ^ 37); (s', w.chars)
  | _ => (s, [])

/-- One part of spaces 1 to 3; a read of host memory waits for its completion. -/
def State.sidePart (s : State) (a : Access) (k : Nat) (q : AccPart) : State :=
  let dflt := (s.partVerdict a q).dflt
  match a.op with
  | .read =>
    if spaceOf q.pa = 3 then s else let (s1, l) := s.sideRead a q dflt; s1.partDone a.id k l
  | .write => (s.sideWrite q dflt q.data).partDone a.id k []
  | .wholeLine _ => (s.sideWrite q dflt (List.replicate 64 0)).partDone a.id k []
  | .getkey => s.partDone a.id k [0]
  | _ => s.partDone a.id k []

/-- The two parts are the words of one pair of host memory that crosses no 4 KiB boundary: one request carries both (R449). -/
def State.hostPair (s : State) (p q : AccPart) : Bool :=
  p.side && q.side && decide (spaceOf p.pa = 3) && decide (spaceOf q.pa = 3) && !p.whole && !q.whole &&
    decide (p.len = 4 ∧ q.len = 4 ∧ s.hostAddr p.pa / 4096 = s.hostAddr q.pa / 4096 ∧ q.va = p.va + 4)

/-- The Memory Reads of the space 3 parts: one for each part, or for a pair. -/
def State.hostReads (s : State) : List AccPart → State
  | [] => s
  | [p] => s.emit (.memRead (s.hostAddr p.pa) p.len)
  | p :: q :: ps =>
    if s.hostPair p q then (s.emit (.memRead (s.hostAddr p.pa) 8)).hostReads ps
    else (s.emit (.memRead (s.hostAddr p.pa) p.len)).hostReads (q :: ps)

/-- The parts of spaces 1 to 3 performed in order; a pair of host memory leaves as one Memory Write. -/
def State.sideAll (s : State) (a : Access) : List (AccPart × Nat) → State
  | [] => s
  | [e] => if e.1.side then s.sidePart a e.2 e.1 else s
  | e :: f :: l =>
    if decide (a.op = .write) && s.hostPair e.1 f.1 then
      (((s.hostWrite e.1.pa (e.1.data ++ f.1.data)).partDone a.id e.2 []).partDone a.id f.2 []).sideAll a l
    else (if e.1.side then s.sidePart a e.2 e.1 else s).sideAll a (f :: l)

/-- Once every part in ledger memory is performed, the parts of spaces 1 to 3 are, unless the check of one outside ledger memory has
failed. -/
def State.sideParts (s : State) (id : Nat) : State :=
  match s.findAccess id with
  | none => s
  | some a =>
    if a.parts.any fun q => q.stored && q.resp.isNone then s
    else match a.parts.findSome? fun q => if q.stored then none else q.refused.map fun cause => (cause, q.va) with
      | some (cause, va) => s.failAccess a cause va
      | none =>
        let s1 := s.sideAll a a.parts.zipIdx
        if a.op = .read then s1.hostReads (a.parts.filter fun q => q.side && decide (spaceOf q.pa = 3)) else s1

/-! ### The gate (R311) -/

/-- The parts as the gates answer them, and the refusals recorded. -/
def State.gateParts (s : State) (a : Access) : List AccPart → State × List AccPart
  | [] => (s, [])
  | q :: qs =>
    if q.scratch then
      let (s1, l) := s.gateParts a qs
      (s1, q :: l)
    else
      let v := s.partVerdict a q
      if v.reason = 0 then
        let (s1, l) := s.gateParts a qs
        (s1, { q with bank := v.bank, slot := v.slot } :: l)
      else
        let (s1, l) := (s.refusePart a q v 0).gateParts a qs
        (s1, { q with refused := some .gateViolation } :: l)

/-- The die of the core holds the access back until its visible epoch switches (R93). -/
def State.heldBack (s : State) (a : Access) : Bool :=
  a.held && (Sparse.get none (s.die (coreDie a.core)).o.holding a.part.val).isSome

/-- An earlier access of the core to a line of this one has not reached its gate yet: a core's accesses to one line are sent in the
order of its instructions (R209). -/
def State.sentBehind (s : State) (a : Access) : Bool :=
  a.parts.any fun q => q.stored && (match s.target a.part.val (coreDie a.core) q.pa with
    | some (d, l) => s.accesses.any fun b =>
        decide (b.core = a.core) && decide (b.id < a.id) && decide (b.st = .sent) && s.pendsAt b d l
    | none => false)

def execGateCheck (id : Nat) (s : State) : Host.Outcome State Fault Refusal :=
  .next <| match s.findAccess id with
  | none => s
  | some a =>
    if a.st ≠ .sent ∨ s.heldBack a ∨ s.sentBehind a then s
    else
      let (s1, parts) := s.gateParts a a.parts
      let s2 := { s1 with nextId := s1.nextId + 1 }.updAccess id fun x =>
        { x with parts := parts, arrival := s1.nextId, st := .admitted }
      match parts.find? fun q => !q.scratch with
      | none => s2
      | some q =>
        if q.refused.isSome then s2.failAccess a .gateViolation q.va
        else if q.side && decide (a.op = .cld) then s2.failAccess a .capFormat q.va
        else if q.side && decide (a.op = .cst) then
          (s2.refusePart a q { s.partVerdict a q with reason := 7 } 0).failAccess a .gateViolation q.va
        else s2.sideParts id

/-- The refusal of a posted store reaches the core (R315). -/
def execTargetViolation (id : Nat) (s : State) : Host.Outcome State Fault Refusal :=
  .next <| match s.findAccess id with
  | none => s
  | some a =>
    match a.posted, a.st with
    | true, .failed _ va =>
      (s.dropAccess id).updCore a.core fun k =>
        { k with tvPend := match k.tvPend with | some w => some w | none => some (word va) }
    | _, _ => s

/-! ### The row's controller (R55) -/

/-- The gate in front of a line, as a refusal under check 6 or 7; bank and slot are those that admitted the access. -/
def rowRefusal (d l reason : Nat) (bank : Bool) (slot : Nat) : Verdict :=
  { gate := 2 * d + rowOf l, reason := reason, slot := slot, bank := bank, dflt := false }

/-- Keys match (R294). -/
def keyMatches (cap line : BitVec 4) : Bool := cap = 0 || decide (cap = line)

/-- Performs a store to a line: images first, then the line; a store to a plain line enters its digest. -/
def State.performStore (s : State) (a : Access) (q : AccPart) (d l : Nat) : State :=
  let s1 := s.joinImage d l a.part
  let s2 := match q.claimed, a.slot with
    | true, some n =>
      if h : coreDie a.core < 8 then
        if s1.needsImage d l (s1.ownImage (coreDie a.core) n) then
          s1.saveImage d l a.part (s1.slotEpoch (s1.slot (coreDie a.core) n)) (some (⟨coreDie a.core, h⟩, n)) false
        else s1
      else s1
    | _, _ => s1
  let at_ := q.pa % 64
  let plain (x : State) (data : List Chr) : State :=
    match x.regionOf a.part.val d l with
    | some r => if r.kind = 0 then x.countPlain a.part.val d l at_ (x.storeEpoch a.core) data else x
    | none => x
  match a.op with
  | .wholeLine cap =>
    let zeros := List.replicate 64 (0 : Chr)
    (plain s2 zeros).putLine d l zeros { s2.lineInfo d l with capline := cap, poison := false }
  | .setkey k => s2.setLineInfo d l { s2.lineInfo d l with key := some k, keyed := true }
  | _ => (plain s2 q.data).putChars d l at_ q.data

/-- A store needs before-image space on the line's die. -/
def State.storeNeedsRoom (s : State) (a : Access) (q : AccPart) (d l : Nat) : Bool :=
  q.claimed && (match a.slot with
    | some n => s.needsImage d l (s.ownImage (coreDie a.core) n)
    | none => false) && !s.imageRoom d

/-- One more write that waits for before-image space (R124). -/
def State.countImageWait (s : State) (p : Nat) : State :=
  s.updPartn p fun q => { q with cnt := { q.cnt with bimgWait := q.cnt.bimgWait + 1 } }

/-- The store is performed, or waits for before-image space. -/
def State.storePart (s : State) (a : Access) (k : Nat) (q : AccPart) (d l : Nat) : State :=
  if s.storeNeedsRoom a q d l then
    if a.waited then s else (s.countImageWait a.part.val).updAccess a.id fun x => { x with waited := true }
  else ((s.performStore a q d l).partDone a.id k []).sideParts a.id

/-- Line state of check 7 and of stage 8 against a store; none: it passes. -/
def lineState (op : AccOp) (info : LineMeta) : Option Cause :=
  match op with
  | .write => if info.capline then some .caplineStore else none
  | .cst => if info.capline then none else some .gateViolation
  | _ => none

/-- A store that meets lost content (R134, R384). -/
def State.lostStore (s : State) (a : Access) (k : Nat) (q : AccPart) : State :=
  if q.claimed then ((s.memErr a.core a.slot).partDone a.id k []).sideParts a.id
  else if a.posted then
    (s.logErr 0o33 2 (coreDie a.core) false a.part.val (coreUnit a.core) (word q.va) (word a.core.val)).dropAccess a.id
  else s.failAccess a .linePoison q.va

/-- The first part that has been refused: its cause and the address of its first character. -/
def Access.firstRefused (a : Access) : Option (Cause × Nat) := a.parts.findSome? fun q => q.refused.map fun cause => (cause, q.va)

/-- Checks of a store at the controller; it goes on when every part has passed. A store to a ledger line of an aborted transaction is
discarded (R131). -/
def State.storeAccess (s : State) (a : Access) (k : Nat) (q : AccPart) (d l : Nat) (e : Ecc) : State :=
  if q.cleared then
    if a.parts.all fun x => !x.stored || x.cleared || x.resp.isSome then s.storePart a k q d l else s
  else if q.void then (s.partDone a.id k []).sideParts a.id
  else
    let whole := match a.op with | .wholeLine _ => true | _ => false
    let (s0, gone) := s.readTags d l e
    if gone && !whole then s0.lostStore a k q
    else if !keyMatches q.key (s0.lineKey d l) then
      (s0.refusePart a q (rowRefusal d l 6 q.bank q.slot) (s0.lineKey d l).toNat).failAccess a .gateViolation q.va
    else match lineState a.op (s0.lineInfo d l) with
      | some cause => (s0.refusePart a q (rowRefusal d l 7 q.bank q.slot) 0).failAccess a cause q.va
      | none =>
        let (s1, lost) := if whole then (s0, false) else s0.readSymbols d l e 0 (coreUnit a.core)
        if lost then s1.lostStore a k q
        else
          let s2 := s1.setPart a.id k fun x => { x with cleared := true }
          let ready := a.parts.zipIdx.all fun x => decide (x.2 = k) || !x.1.stored || x.1.cleared || x.1.resp.isSome
          if !ready then s2
          else match a.firstRefused with
            | some (cause, va) => s2.failAccess a cause va
            | none => s2.storePart a k q d l

/-- A load, CLD or GETKEY at the controller: the working content under a claim, otherwise the line as of the visible epoch
of the core's die (R94, R123). -/
def State.loadAccess (s : State) (a : Access) (k : Nat) (q : AccPart) (d l : Nat) (e : Ecc) : State :=
  let done (x : State) (i : LineMeta) (chars : List Chr) : State :=
    if a.op = .cld ∧ i.capline = false then x.failAccess a .capFormat q.va
    else
      let got := if a.op = .getkey then [i.char (x.initialKey d l)] else (chars.drop (q.pa % 64)).take q.len
      (x.partDone a.id k got).sideParts a.id
  let poisoned (x : State) : State :=
    if q.claimed then ((x.memErr a.core a.slot).partDone a.id k (List.replicate q.len 0)).sideParts a.id
    else x.failAccess a .linePoison q.va
  let (s0, gone) := s.readTags d l e
  if gone && decide (a.op ≠ .getkey) then poisoned s0
  else if !keyMatches q.key (s0.lineKey d l) then
    (s0.refusePart a q (rowRefusal d l 6 q.bank q.slot) (s0.lineKey d l).toNat).failAccess a .gateViolation q.va
  else
    match (if q.claimed then none else s0.imageAfter d l (s0.visibleAt (coreDie a.core) a.part.val)) with
    | some g =>
      if a.op = .getkey then done s0 g.info []
      else match s0.readImage d g e.line 0 with
        | (s1, none) => s1.failAccess a .linePoison q.va
        | (s1, some g') => if g'.info.poison then s1.failAccess a .linePoison q.va else done s1 g'.info g'.chars
    | none =>
      if a.op = .getkey then done s0 (s0.lineInfo d l) []
      else
        let (s1, lost) := s0.readSymbols d l e 0 (coreUnit a.core)
        if lost then poisoned s1 else done s1 (s1.lineInfo d l) (s1.lineChars d l)

def execLineAccess (id k : Nat) (e : Ecc) (s : State) : Host.Outcome State Fault Refusal :=
  .next <| match s.findAccess id with
  | none => s
  | some a =>
    match a.st, a.parts[k]? with
    | .admitted, some q =>
      let before := a.parts.take k |>.all fun x => !x.stored || x.resp.isSome || x.cleared
      let near := match a.op with | .dpost _ _ => true | .dcas _ _ _ => true | _ => false
      if !q.stored || q.resp.isSome || !before || near then s
      else match ({ a with parts := a.parts.take (k + 1) } : Access).firstRefused with
      | some (cause, va) => s.failAccess a cause va
      | none => match s.target a.part.val (coreDie a.core) q.pa with
        | none => s
        | some (d, l) =>
          if !s.alive d then (s.refusePart a q (s.gateRefuses 48 1) 0).failAccess a .gateViolation q.va
          else if s.earlierOut a d l || s.underRepair d l || s.rowWaits d l then s
          else if a.op.isRead then s.loadAccess a k q d l e
          else s.storeAccess a k q d l e
    | _, _ => s

/-! ### The response (R142) -/

/-- The state that a meaning answers. -/
def stateOr (s : State) : Host.Outcome State Fault Refusal → State
  | .next t => t
  | _ => s

/-- The instruction of a core that waited goes on. -/
def State.again (s : State) (i : Instr) : State :=
  stateOr s <| match i with
  | .ldc c d t => execLdc c d t s
  | .ldw c d t => execLdw c d t s
  | .ldp c d t => execLdp c d t s
  | .stc c d t => execStc c d t s
  | .stw c d t => execStw c d t s
  | .stp c d t => execStp c d t s
  | .mac c a kb x kc y m n => execMac c a kb x kc y m n s
  | .txnRespond c l t => execTxnRespond c l t s
  | .txnClaim c t => execTxnClaim c t s
  | .txnClaimx c t => execTxnClaimx c t s
  | .dcas c x y w t => execDcas c x y w t s
  | .dpost c x w k o => execDpost c x w k o s
  | .dacc c x w k o => execDacc c x w k o s
  | .fspill c => execFspill c s
  | .ffill c => execFfill c s
  | .dldw c x n t => execDldw c x n t s
  | .dstw c x n t => execDstw c x n t s
  | .daddm c x n t => execDaddm c x n t s
  | .dsubm c x n t => execDsubm c x n t s
  | .dcmpm c d x n t => execDcmpm c d x n t s
  | .dmulm c x n t => execDmulm c x n t s
  | .cvcd c x w k wx => execCvcd c x w k wx s
  | .cvdc c x w k wx => execCvdc c x w k wx s
  | .movc c kd wd ks ws wl => execMovc c kd wd ks ws wl s
  | .fillc c kd wd wl wf => execFillc c kd wd wl wf s
  | .movem c kd wd ks ws wl x y z => execMovem c kd wd ks ws wl x y z s
  | .tr c kd wd ks ws wl kt m => execTr c kd wd ks ws wl kt m s
  | .scan c wr ks ws wl m => execScan c wr ks ws wl m s
  | .cmpc c ka wa kb wb wl => execCmpc c ka wa kb wb wl s
  | .edit c x kd wd kp wp wl => execEdit c x kd wd kp wp wl s
  | .cld c kd t => execCld c kd t s
  | .cst c ks t => execCst c ks t s
  | .capln c t => execCapln c t s
  | .dataln c t => execDataln c t s
  | .setkey c a t => execSetkey c a t s
  | .getkey c d t => execGetkey c d t s
  | .tlbLock c a => execTlbLock c a s
  | .txnCommit c w => execTxnCommit c w s
  | .txnAbort c w => execTxnAbort c w s
  | _ => .next s

/-- The awaited instruction of core c goes on with a changed progress, after cc of far wait. -/
def State.goOn (s : State) (c : Nat) (cur : Cur) (cc : Nat) : State :=
  (s.updCore c fun k => { k.count (·.addFar cc) with
    cur := some { cur with acc := none, walk := none, gate := false, soft := false } }).again cur.instr

/-- The awaited instruction of core c faults, after cc of far wait. -/
def State.awaitFault (s : State) (c : CoreId) (cur : Cur) (cc : Nat) (cause : Cause) (va : Nat) : State :=
  let s1 := s.updCore c fun k => { k.count (·.addFar cc) with cur := none }
  s1.settle c cur.instr (if cur.begun then State.strAct c cur s1 (.fault cause va) else .fault cause va)

/-- The instruction of a core that awaits access id. -/
def Core.awaiting (k : Core) (id : Nat) : Option Cur := k.cur.filter fun x => decide (x.acc = some id)

/-- Characters of every part in order; the scratch parts of a store are written now. -/
def State.deliver (s : State) (a : Access) (cc : Nat) : State :=
  let s1 := s.dropAccess a.id
  match (s.core a.core).awaiting a.id with
  | none => s1
  | some cur =>
    let s2 := if a.op.isRead then s1
      else a.parts.foldl (fun x q => if q.scratch then x.scratchWrite (coreCluster a.core) q.pa q.data else x) s1
    let l := if a.op.isRead then a.parts.flatMap fun q => q.resp.getD [] else []
    s2.goOn a.core { cur with rounds := cur.rounds ++ [l] } cc

def execMemoryResponse (id cc : Nat) (s : State) : Host.Outcome State Fault Refusal :=
  .next <| match s.findAccess id with
  | none => s
  | some a =>
    if a.posted then s
    else match a.st with
      | .failed cause va =>
        match (s.core a.core).awaiting id with
        | none => s.dropAccess id
        | some cur => (s.dropAccess id).awaitFault a.core cur cc cause va
      | .admitted =>
        let near := match a.op with | .dpost _ _ => true | .dcas _ _ _ => true | _ => false
        if !near && a.parts.all (fun q => q.scratch || q.resp.isSome) then s.deliver a cc else s
      | _ => s

/-- A host completion gives its octets to the parts in order (R449). -/
def dealHost : List AccPart → List Octet → List AccPart
  | [], _ => []
  | q :: qs, o =>
    if q.side && decide (spaceOf q.pa = 3) then
      { q with resp := some ((o.take q.len).map (Chr.mk false)) } :: dealHost qs (o.drop q.len)
    else q :: dealHost qs o

/-- The completion of a core's read of host memory, all its requests together, or its failure (R450). -/
def execHost3Completion (id : Nat) (r : Host3Result) (cc : Nat) (s : State) : Host.Outcome State Fault Refusal :=
  .next <| match s.findAccess id with
  | none => s
  | some a =>
    let waiting := a.parts.filter fun q => q.side && decide (spaceOf q.pa = 3) && q.resp.isNone
    match waiting with
    | [] => s
    | q :: _ =>
      if a.st ≠ .admitted ∨ a.op ≠ .read ∨ (a.parts.any fun x => x.stored && x.resp.isNone) then s
      else match r with
        | .failed =>
          let s1 := s.refusePart a q (s.gateRefuses 49 1) 0
          match (s.core a.core).awaiting id with
          | none => s1.dropAccess id
          | some cur => (s1.dropAccess id).awaitFault a.core cur cc .gateViolation q.va
        | .data o =>
          if o.length ≠ (waiting.map AccPart.len).sum then s
          else
            let a' := { a with parts := dealHost a.parts o }
            (s.updAccess id fun _ => a').deliver a' cc

/-! ### The walker (R301, R302, R304) -/

/-- What a read of the walk gives: it waits at the line, a cause, or the word. -/
inductive WalkStep where
  | waits
  | fault (s : State) (cause : Cause)
  | word (s : State) (w : Word)

/-- A read of the walk. -/
def State.walkRead (s : State) (c p pa : Nat) (e : Ecc) : WalkStep :=
  let sp := spaceOf pa
  if sp = 1 ∨ sp = 2 ∨ sp = 3 then .fault s .walkSideEffect
  else if 4 ≤ sp then .fault s .walkBusError
  else match s.target p (coreDie c) pa with
    | none => .fault s .walkBusError
    | some (d, l) =>
      if !s.alive d then .fault s .walkBusError
      else match s.regionOf p d l with
        | none => .fault s .walkBusError
        | some r =>
          if r.kind ≠ 0 then .fault s .walkBusError
          else if s.outerWaits d l then .waits
          else
            let (s0, gone) := s.readTags d l e
            let (s1, lost) := s0.readSymbols d l e 3 (coreUnit c)
            if gone || lost then .fault s1 .walkBusError
            else .word s1 (Word.ofChars ((s1.lineChars d l).drop (pa % 64)))

/-- KIND of the line that the access causing the walk addresses (R303, R304). -/
def State.fillKind (s : State) (p d pa : Nat) : Nat :=
  if spaceOf pa ≠ 0 then 3
  else match s.target p d pa with
    | none => 3
    | some (e, l) => match s.regionOf p e l with
      | some r => r.kind
      | none => 3

/-- The entry that a second-level entry gives for va. -/
def State.newEntry (s : State) (p d va : Nat) (large : Bool) (e2 : Word) : TlbEntry :=
  let e : TlbEntry :=
    { v := true, lk := false, lg := large, rd := BitVec'.at' e2 1, wr := BitVec'.at' e2 2, pst := BitVec'.at' e2 3,
      cp := BitVec'.at' e2 4, se := false, kind := 0, rf := false, vpn := BitVec.ofNat 20 (va / 2 ^ 16),
      frame := e2.truncate 24 }
  let pa := e.phys va
  { e with se := decide (1 ≤ spaceOf pa) && decide (spaceOf pa ≤ 3), kind := BitVec.ofNat 2 (s.fillKind p d pa) }

/-- Two entries' ranges overlap. -/
def TlbEntry.overlaps (a b : TlbEntry) : Bool :=
  if a.lg || b.lg then decide (a.vpn.toNat / 256 = b.vpn.toNat / 256) else decide (a.vpn = b.vpn)

/-- Puts a new entry into the TLB: in place of an entry marked for refill, otherwise under R304. -/
def Core.fill (k : Core) (va : Nat) (e : TlbEntry) : Core :=
  match (k.tlbHit va).filter fun n => (k.entry n).rf with
  | some n => k.setEntry n { e with lk := (k.entry n).lk, vpn := (k.entry n).vpn }
  | none =>
    let k1 := k.entries (fun x => x.v && !x.lk && x.overlaps e) fun x => { x with v := false, rf := false }
    let order := (List.range 32).map fun i => (k1.victim + i) % 32
    let n := match (List.range 32).find? fun n => !(k1.entry n).v && !(k1.entry n).lk with
      | some n => n
      | none => (order.find? fun n => !(k1.entry n).lk).getD 0
    { k1.setEntry n e with victim := (n + 1) % 32 }

/-- The two reads of a walk; none while one of them waits. -/
def State.walk (s : State) (c p va : Nat) (x1 x2 : Ecc) : Option (State × Except Cause TlbEntry) :=
  let v : Word := word va
  match s.walkRead c p ((s.planPart p).ptRoot + 4 * (BitVec'.pos v 0 10).toNat) x1 with
  | .waits => none
  | .fault s1 cause => some (s1, .error cause)
  | .word s1 e1 =>
    if !BitVec'.at' e1 0 || decide (BitVec'.pos e1 5 3 ≠ 0) then some (s1, .error .pageFault)
    else
      let q := (BitVec'.pos v 10 2).toNat
      let large := BitVec'.at' e1 (1 + q)
      let i := if large then 256 * q else (BitVec'.pos v 10 10).toNat
      match s1.walkRead c p ((BitVec'.pos e1 8 28).toNat * 2 ^ 12 + 4 * i) x2 with
      | .waits => none
      | .fault s2 cause => some (s2, .error cause)
      | .word s2 e2 =>
        if !BitVec'.at' e2 0 || decide (BitVec'.pos e2 5 7 ≠ 0) || (large && decide (BitVec'.pos e2 28 8 ≠ 0)) then
          some (s2, .error .pageFault)
        else some (s2, .ok (s2.newEntry p (coreDie c) va large e2))

def execPageWalk (cl : ClusterId) (x1 x2 : Ecc) (cc : Nat) (s : State) : Host.Outcome State Fault Refusal :=
  .next <| match (s.cluster cl).walks with
  | [] => s
  | (c, va) :: rest =>
    let s0 := s.updCluster cl fun x => { x with walks := rest }
    match (s.core c).cur.filter fun x => decide (x.walk = some va) with
    | none => s0
    | some cur =>
      let p := match s.partOf c with
        | some p => p.val
        | none => 0
      match s0.walk c p va x1 x2 with
      | none => s
      | some (s1, .error cause) => s1.awaitFault c cur cc cause va
      | some (s1, .ok e) => (s1.updCore c fun k => k.fill va e).goOn c { cur with xlat := cur.xlat ++ [e] } cc

/-! ### Interrupts and asynchronous exceptions (R174 to R176, R250) -/

/-- At a boundary the core takes the first item it can; a wait that an interrupt may abandon ends here, with the state of a
string instruction written. -/
def execInterruptTake (c : CoreId) (s : State) : Host.Outcome State Fault Refusal :=
  .next <| match (s.core c).live, (s.core c).takeable, (s.core c).cur with
  | true, some i, none => (s.takeItem c i).rung c
  | true, some i, some x =>
    if x.retrying && x.soft then
      let s1 := s.updCore c fun k => { k with cur := none }
      let s2 := if x.begun then
          (s1.saveString c x.instr x.prog).updCore c (·.count (·.addCycles (stringSetup x.instr + x.cost)))
        else s1
      (s2.takeItem c i).rung c
    else s
  | _, _, _ => s

end Sys2Proof.Machine
end

