-- ==== Sys2Proof/Machine/Ed25519.lean ====
section
/-! DEFINITION. Ed25519 verification, which R401 names by RFC 8032: SHA-512 (FIPS 180-4) and the twisted Edwards curve over the
integers modulo 2^255 - 19. PRESUMED, log entry 7: the texts of those standards are outside the manual. -/

namespace Sys2Proof.Machine

/-! ### SHA-512 -/

/-- The round constants: the fractional parts of the cube roots of the first 80 primes. -/
def shaK : List (BitVec 64) :=
  [0x428A2F98D728AE22, 0x7137449123EF65CD, 0xB5C0FBCFEC4D3B2F, 0xE9B5DBA58189DBBC, 0x3956C25BF348B538,
    0x59F111F1B605D019, 0x923F82A4AF194F9B, 0xAB1C5ED5DA6D8118, 0xD807AA98A3030242, 0x12835B0145706FBE,
    0x243185BE4EE4B28C, 0x550C7DC3D5FFB4E2, 0x72BE5D74F27B896F, 0x80DEB1FE3B1696B1, 0x9BDC06A725C71235,
    0xC19BF174CF692694, 0xE49B69C19EF14AD2, 0xEFBE4786384F25E3, 0x0FC19DC68B8CD5B5, 0x240CA1CC77AC9C65,
    0x2DE92C6F592B0275, 0x4A7484AA6EA6E483, 0x5CB0A9DCBD41FBD4, 0x76F988DA831153B5, 0x983E5152EE66DFAB,
    0xA831C66D2DB43210, 0xB00327C898FB213F, 0xBF597FC7BEEF0EE4, 0xC6E00BF33DA88FC2, 0xD5A79147930AA725,
    0x06CA6351E003826F, 0x142929670A0E6E70, 0x27B70A8546D22FFC, 0x2E1B21385C26C926, 0x4D2C6DFC5AC42AED,
    0x53380D139D95B3DF, 0x650A73548BAF63DE, 0x766A0ABB3C77B2A8, 0x81C2C92E47EDAEE6, 0x92722C851482353B] ++
  [0xA2BFE8A14CF10364, 0xA81A664BBC423001, 0xC24B8B70D0F89791, 0xC76C51A30654BE30, 0xD192E819D6EF5218,
    0xD69906245565A910, 0xF40E35855771202A, 0x106AA07032BBD1B8, 0x19A4C116B8D2D0C8, 0x1E376C085141AB53,
    0x2748774CDF8EEB99, 0x34B0BCB5E19B48A8, 0x391C0CB3C5C95A63, 0x4ED8AA4AE3418ACB, 0x5B9CCA4F7763E373,
    0x682E6FF3D6B2B8A3, 0x748F82EE5DEFB2FC, 0x78A5636F43172F60, 0x84C87814A1F0AB72, 0x8CC702081A6439EC,
    0x90BEFFFA23631E28, 0xA4506CEBDE82BDE9, 0xBEF9A3F7B2C67915, 0xC67178F2E372532B, 0xCA273ECEEA26619C,
    0xD186B8C721C0C207, 0xEADA7DD6CDE0EB1E, 0xF57D4F7FEE6ED178, 0x06F067AA72176FBA, 0x0A637DC5A2C898A6,
    0x113F9804BEF90DAE, 0x1B710B35131C471B, 0x28DB77F523047D84, 0x32CAAB7B40C72493, 0x3C9EBE0A15C9BEBC,
    0x431D67C49C100D4C, 0x4CC5D4BECB3E42B6, 0x597F299CFC657E2A, 0x5FCB6FAB3AD6FAEC, 0x6C44198C4A475817]

/-- The initial hash: the fractional parts of the square roots of the first 8 primes. -/
def shaInit : List (BitVec 64) :=
  [0x6A09E667F3BCC908, 0xBB67AE8584CAA73B, 0x3C6EF372FE94F82B, 0xA54FF53A5F1D36F1, 0x510E527FADE682D1,
    0x9B05688C2B3E6C1F, 0x1F83D9ABFB41BD6B, 0x5BE0CD19137E2179]

/-- The message schedule, the latest word first. -/
def shaSchedule (block : List (BitVec 64)) : List (BitVec 64) :=
  (List.range 64).foldl (fun w _ =>
    let s0 (x : BitVec 64) : BitVec 64 := x.rotateRight 1 ^^^ x.rotateRight 8 ^^^ (x >>> 7)
    let s1 (x : BitVec 64) : BitVec 64 := x.rotateRight 19 ^^^ x.rotateRight 61 ^^^ (x >>> 6)
    (s1 (w.getD 1 0) + w.getD 6 0 + s0 (w.getD 14 0) + w.getD 15 0) :: w) block.reverse

/-- One round on the eight working variables. -/
def shaRound (v : List (BitVec 64)) (kw : BitVec 64 × BitVec 64) : List (BitVec 64) :=
  match v with
  | [a, b, c, d, e, f, g, h] =>
    let t1 := h + (e.rotateRight 14 ^^^ e.rotateRight 18 ^^^ e.rotateRight 41) + ((e &&& f) ^^^ (~~~e &&& g)) + kw.1 + kw.2
    let t2 := (a.rotateRight 28 ^^^ a.rotateRight 34 ^^^ a.rotateRight 39) + ((a &&& b) ^^^ (a &&& c) ^^^ (b &&& c))
    [t1 + t2, a, b, c, d + t1, e, f, g]
  | _ => v

/-- n words of eight octets. -/
def words64 : Nat → List Octet → List (BitVec 64)
  | 0, _ => []
  | n + 1, o => BitVec.ofNat 64 (ofOctetsBE (o.take 8)) :: words64 n (o.drop 8)

/-- The blocks of a padded message, n of them. -/
def shaBlocks : Nat → List Octet → List (BitVec 64) → List (BitVec 64)
  | 0, _, h => h
  | n + 1, o, h =>
    let w := (shaSchedule (words64 16 (o.take 128))).reverse
    shaBlocks n (o.drop 128) (List.zipWith (· + ·) h ((shaK.zip w).foldl shaRound h))

def sha512 (m : List Octet) : List Octet :=
  let body := m ++ [0x80]
  let o := body ++ zeros ((128 - (body.length + 16) % 128) % 128) ++ octetsBE 16 (8 * m.length)
  (shaBlocks (o.length / 128) o shaInit).flatMap fun w => octetsBE 8 w.toNat

/-! ### The curve -/

def edP : Nat := 2 ^ 255 - 19
/-- The order of the base point. -/
def edL : Nat := 2 ^ 252 + 27742317777372353535851937790883648493
def edD : Nat := 37095705934669439343138083508754565189542113879843219016388785533085940283555

/-- a to the power e modulo p, by the low n bits of e. -/
def edPow (a e : Nat) : Nat → Nat
  | 0 => 1
  | n + 1 =>
    let r := edPow (a * a % edP) (e / 2) n
    if e % 2 = 1 then a * r % edP else r

/-- A point in extended coordinates: x = X / Z, y = Y / Z, x y = T / Z. -/
structure EdPoint where
  x : Nat
  y : Nat
  z : Nat
  t : Nat
  deriving DecidableEq, Repr

def edSub (a b : Nat) : Nat := (a + edP - b % edP) % edP

/-- The sum of two points; it holds for equal ones too. -/
def EdPoint.add (p q : EdPoint) : EdPoint :=
  let a := edSub p.y p.x * edSub q.y q.x % edP
  let b := (p.y + p.x) * (q.y + q.x) % edP
  let c := 2 * edD * p.t % edP * q.t % edP
  let d := 2 * p.z * q.z % edP
  let e := edSub b a
  let f := edSub d c
  let g := (d + c) % edP
  let h := (b + a) % edP
  { x := e * f % edP, y := g * h % edP, z := f * g % edP, t := e * h % edP }

/-- k times a point, by the low n bits of k. -/
def EdPoint.mul (p : EdPoint) (k : Nat) : Nat → EdPoint
  | 0 => { x := 0, y := 1, z := 1, t := 0 }
  | n + 1 =>
    let r := (p.add p).mul (k / 2) n
    if k % 2 = 1 then p.add r else r

def EdPoint.same (p q : EdPoint) : Bool :=
  decide (p.x * q.z % edP = q.x * p.z % edP) && decide (p.y * q.z % edP = q.y * p.z % edP)

/-- The point that 32 octets, as a number with the least significant octet first, encode. -/
def edDecode (n : Nat) : Option EdPoint :=
  let y := n % 2 ^ 255
  let sign := n / 2 ^ 255
  let u := edSub (y * y) 1
  let v := (edD * (y * y % edP) + 1) % edP
  let v3 := v * v % edP * v % edP
  let r := u * v3 % edP * edPow (u * v3 % edP * (v3 * v % edP) % edP) ((edP - 5) / 8) 256 % edP
  let x := if v * (r * r % edP) % edP = u then r else r * edPow 2 ((edP - 1) / 4) 256 % edP
  if edP ≤ y ∨ v * (x * x % edP) % edP ≠ u ∨ (x = 0 ∧ sign = 1) then none
  else
    let x' := if x % 2 = sign then x else edP - x
    some { x := x', y := y, z := 1, t := x' * y % edP }

def edBase : EdPoint :=
  let x := 15112221349535400772501151409588531511454012693041857206046113283949847762202
  let y := 46316835694926478169428394003475163141307993866256225615783033603165251855960
  { x := x, y := y, z := 1, t := x * y % edP }

/-- A number from octets, the least significant first. -/
def edNumber (o : List Octet) : Nat := ofOctetsLE o

/-- Verification: the key, the message, the signature R and S. The group equation is the one with the cofactor 8, which RFC 8032 gives;
its sufficient form without the cofactor is not used. DESIGN CHOICE, log entry 7. -/
def ed25519 (key : Nat) (m sig : List Octet) : Bool :=
  let s := edNumber ((sig.drop 32).take 32)
  match edDecode (key % 2 ^ 256), edDecode (edNumber (sig.take 32)) with
  | some a, some r =>
    let k := edNumber (sha512 (sig.take 32 ++ octetsLE 32 key ++ m)) % edL
    decide (sig.length = 64) && decide (s < edL) && (edBase.mul (8 * s) 260).same ((r.mul 8 4).add (a.mul (8 * k) 260))
  | _, _ => false

end Sys2Proof.Machine
end

