-- ==== Sys2Proof/Machine/Posting.lean ====
section
/-! DEFINITION. Claim engines and frontiers (R116 to R121), the posting units (R125 to R128), the commit gate and what its
answers do on a die (R129 to R135), and the digest record of a transaction (R358). -/

namespace Sys2Proof.Machine

/-! ### Boardwalk messages (R30, R32) -/

/-- Messages of one lane keep their order: claim traffic between two dies, the gate's answers to a die, releases to a die,
Horizons between two units, frame copies, and what each die reports to the hub. -/
def Msg.lane : Msg → Nat × Nat × Nat
  | .claim dst c => (1, c.fromDie, dst)
  | .grant dst _ _ e _ => (1, e, dst)
  | .frontier src dst _ _ => (1, src, dst)
  | .claimRelease dst _ _ src => (1, src, dst)
  | .answer dst _ _ _ => (2, 8, dst)
  | .notice dst _ _ _ => (2, 8, dst)
  | .release dst p _ => (3, p, dst)
  | .horizon src dst _ =>
    let n : HzUnit → Nat := fun | .die d => d | .hub => 8
    (4, n src, n dst)
  | .copy dst v _ _ => (5, v.org.port / 4, dst)
  | .digest src p _ _ _ => (6, src, p)
  | .switched src p _ => (7, src, p)
  | .resolve src _ _ _ => (8, src, 8)
  | .fetchLine src dst _ _ => (9, src, dst)
  | .lineAnswer src dst _ _ _ _ _ _ => (9, src, dst)

/-- The oldest message that sel names and that no earlier one of its lane holds up; the messages without it. -/
def takeMsg (sel : Msg → Bool) : List (Nat × Nat × Nat) → List Msg → Option (Msg × List Msg)
  | _, [] => none
  | held, m :: ms =>
    if sel m && decide (m.lane ∉ held) then some (m, ms)
    else (takeMsg sel (m.lane :: held) ms).map fun r => (r.1, m :: r.2)

/-- Takes a message and goes on with it; nothing happens without one. -/
def State.receive (s : State) (sel : Msg → Bool) (f : State → Msg → State) : State :=
  match takeMsg sel [] s.msgs with
  | none => s
  | some (m, ms) => f { s with msgs := ms } m

/-! ### Claims (R116 to R120) -/

/-- Claim entries of a slice (R120). -/
def sliceEntries : Nat := 32768

def execClaimArrive (d : DieId) (s : State) : Host.Outcome State Fault Refusal :=
  .next <| s.receive (fun m => match m with | .claim dst _ => decide (dst = d) | _ => false) fun x m =>
    match m with
    | .claim _ c =>
      if !x.alive d then x
      else x.updDie d fun e =>
        let here := (e.o.claims.filter fun q => !q.overflow && decide (rowOf q.line = rowOf c.line)).length
        { e with o := { e.o with claims := e.o.claims ++ [{ c with granted := false, overflow := decide (sliceEntries ≤ here) }] } }
    | _ => x

/-- The least position of a list. -/
def leastPos : List Position → Option Position
  | [] => none
  | p :: ps => match leastPos ps with
    | none => some p
    | some q => some (if q.before p then q else p)

/-- The earliest position that a follower has still to enter: of the entries it holds, else of the epoch that it does not hold
yet. -/
def State.followBound (s : State) (p : Nat) : Position :=
  let q := s.partn p
  let next := (q.todo.filter fun x => decide (x.2.kind = 1 ∨ x.2.kind = 4)).map fun x => x.2.pos
  next.headD { tick := s.lastTick q.heldTo + 1, port := 0, seq := 0 }

/-- The declaration frontier of die d for partition p (R117); a follower's does not pass a transaction that it has still to
enter (R370). -/
def State.frontierOf (s : State) (d p : Nat) : Position :=
  let open_ := (s.slotsOf d p).filter fun n => decide ((s.slot d n).st = .queued ∨ (s.slot d n).st = .taken)
  let f := (leastPos (open_.map fun n => (s.slot d n).pos)).getD { tick := s.dieHorizon d + 1, port := 0, seq := 0 }
  if s.h.mirror.role = 2 ∧ (s.followBound p).before f then s.followBound p else f

/-- Partition p has a cluster on die d under the plan. -/
def State.hasCluster (s : State) (p d : Nat) : Bool := (List.range 8).any fun c => (s.planPart p).clusters.getLsbD (8 * d + c)

/-- No frontier that die d waits for is before position x (R118). -/
def State.frontiersPassed (s : State) (d p : Nat) (x : Position) : Bool :=
  let dies := if (s.tandemOf p).isSome then [d] else s.members.filter (s.hasCluster p)
  dies.all fun e =>
    if e = d then !(s.frontierOf d p).before x
    else match Sparse.get none (s.die d).o.frontier (16 * e + p) with
      | some f => !f.before x
      | none => false

/-- Two claims concern a common line. -/
def Claim.meets (a b : Claim) : Bool := decide (a.line = b.line) || a.lines.any fun l => decide (l ∈ b.lines)

/-- The claim can be granted (R118). -/
def State.grantable (s : State) (d : Nat) (c : Claim) : Bool :=
  !c.granted && tickLe c.pos.tick (s.dieHorizon d) && s.frontiersPassed d c.part c.pos &&
    !(s.die d).o.claims.any fun q => q.meets c && q.pos.before c.pos

/-- The engine reads a claim of its overflow area: the state, and whether it is lost; its transaction is then resolved as MEMERR
(R382). -/
def State.claimRead (s : State) (d : DieId) (c : Claim) : State × Bool :=
  if !c.overflow then (s, false)
  else match readUnit160 c.hurt with
    | .clean => (s, false)
    | .corrected at_ _ =>
      ((s.correctedArea d (rowOf c.line) at_).updDie d fun e => { e with o := { e.o with
        claims := e.o.claims.map fun q => if q = c then { q with hurt := [] } else q } }, false)
    | .uncorrectable =>
      ((s.areaLost d (rowOf c.line) c.part.val 1).post (.resolve c.fromDie c.slot c.pos .memerr), true)

/-- Grants the claim on a line that R118 allows, if any. -/
def State.tryGrant (s : State) (d : DieId) (line : Nat) : State :=
  match (s.die d).o.claims.find? fun c => decide (c.line = line) && s.grantable d c with
  | none => s
  | some c =>
    let (s1, lost) := s.claimRead d c
    if lost then s1
    else (s1.updDie d fun e => { e with o := { e.o with
      claims := e.o.claims.map fun q => if q.line = c.line ∧ q.pos = c.pos ∧ q.slot = c.slot ∧ q.fromDie = c.fromDie then
        { q with granted := true } else q } }).post
      (.grant c.fromDie c.slot line d c.pos)

def execClaimGrant (d : DieId) (line : Nat) (s : State) : Host.Outcome State Fault Refusal := .next (s.tryGrant d line)

def execGrantReceive (d : DieId) (waitNs : Nat) (s : State) : Host.Outcome State Fault Refusal :=
  .next <| s.receive (fun m => match m with | .grant dst _ _ _ _ => decide (dst = d) | _ => false) fun x m =>
    match m with
    | .grant _ n line e pos =>
      let v := x.slot d n
      if v.pos ≠ pos ∨ ¬ v.claims.any (fun q => decide (q.die = e.val) && decide (q.line = line)) then x
      else
        let cs := v.claims.map fun q => if q.die = e.val ∧ q.line = line then { q with granted := true } else q
        let st := if v.st = .declared ∧ cs.all ClaimReg.granted then SlotSt.granted else v.st
        (x.setSlot d n { v with claims := cs, st := st }).updPartn v.part fun q =>
          { q with cnt := { q.cnt with grantMax := BitVec.ofNat 36 (max q.cnt.grantMax.toNat (min waitNs (2 ^ 36 - 1))) } }
    | _ => x

/-- A release frees the claim; R118 is then applied to the lines that it held. -/
def execClaimRelease (d : DieId) (s : State) : Host.Outcome State Fault Refusal :=
  .next <| s.receive (fun m => match m with | .claimRelease dst _ _ _ => decide (dst = d) | _ => false) fun x m =>
    match m with
    | .claimRelease _ line n src =>
      let gone (q : Claim) : Bool := decide (q.line = line) && decide (q.slot = n) && decide (q.fromDie = src)
      let x1 := x.updDie d fun e => { e with o := { e.o with claims := e.o.claims.filter fun q => !gone q } }
      ((x1.die d).o.claims.map Claim.line).foldl (fun y l => if l = line then y.tryGrant d l else y) x1
    | _ => x

/-- Dies that hold a ledger region of p. -/
def State.ledgerDies (s : State) (p : Nat) : List Nat :=
  (List.range 8).filter fun d => s.regions.any fun r => decide (r.part = p) && decide (r.kind = 1) && decide (r.die = d)

def execFrontierSend (d : DieId) (p : PartId) (s : State) : Host.Outcome State Fault Refusal :=
  .next <|
    let f := s.frontierOf d p
    if !s.alive d || decide (Sparse.get none (s.die d).o.frontSent p = some f) then s
    else
      let s1 := s.updDie d fun e => { e with o := { e.o with frontSent := Sparse.set none e.o.frontSent p (some f) } }
      if (s.tandemOf p).isSome then s1
      else ((s.ledgerDies p).filter (· ≠ d.val)).foldl
        (fun x e => if h : e < 8 then x.post (.frontier d ⟨e, h⟩ p f) else x) s1

def execFrontierReceive (d : DieId) (s : State) : Host.Outcome State Fault Refusal :=
  .next <| s.receive (fun m => match m with | .frontier _ dst _ _ => decide (dst = d) | _ => false) fun x m =>
    match m with
    | .frontier src _ p f =>
      x.updDie d fun e => { e with o := { e.o with frontier := Sparse.set none e.o.frontier (16 * src + p) (some f) } }
    | _ => x

/-! ### The posting unit (R125, R126) -/

/-- Words f to f + n − 1 of a line. -/
def lineWords (chars : List Chr) (f n : Nat) : List Word := ((wordsOfChars chars).drop f).take n

/-- What the posting unit answers for a line whose content is known: status, the value for Dx, the new field if any. -/
def postOutcome (op : AccOp) (f : Nat) (chars : List Chr) : Nat × Int × Option Int :=
  let value (ctl : Word) : Option Int := packedValue (lineWords chars f (ctlFw ctl))
  match op with
  | .dpost ctl x =>
    let limit := if ctlCheck ctl = 0 then some 0 else packedValue (lineWords chars (ctlLword ctl) (ctlLw ctl))
    match value ctl, limit with
    | some old, some lim =>
      let new := old + x
      if !fitsDigits (9 * ctlFw ctl - 1) new then (3, old, none)
      else if ctlCheck ctl = 1 ∧ new < lim then (1, old, none)
      else if ctlCheck ctl = 2 ∧ lim < new then (2, old, none)
      else (0, old, some new)
    | _, _ => (4, 0, none)
  | .dcas ctl x y =>
    match value ctl with
    | none => (4, 0, none)
    | some old =>
      if old ≠ x then (5, old, none) else if !fitsDigits (9 * ctlFw ctl - 1) y then (3, old, none) else (0, old, some y)
  | _ => (6, 0, none)

/-- The control word of a posting operation. -/
def AccOp.ctl : AccOp → Option (Word × Bool)
  | .dpost w _ => some (w, false)
  | .dcas w _ _ => some (w, true)
  | _ => none

/-- The operation at the line: the image (R122), then the field. -/
def State.postAt (s : State) (a : Access) (q : AccPart) (d l fw : Nat) (r : Nat × Int × Option Int) : State :=
  match r.2.2, a.slot with
  | some new, some n =>
    if h : coreDie a.core < 8 then
      let s0 := s.joinImage d l a.part
      let s1 := if s0.needsImage d l (s0.ownImage (coreDie a.core) n) then
          s0.saveImage d l a.part (s0.slotEpoch (s0.slot (coreDie a.core) n)) (some (⟨coreDie a.core, h⟩, n)) false
        else s0
      (s1.putChars d l (q.pa % 64 / 4 * 4) ((packWords fw new).flatMap Word.chars)).updAccess a.id fun x =>
        { x with st := .posted r.1 r.2.1 }
    else s
  | _, _ => s.updAccess a.id fun x => { x with st := .posted r.1 r.2.1 }

def execPostingRequest (id : Nat) (e : Ecc) (s : State) : Host.Outcome State Fault Refusal :=
  .next <| match s.findAccess id with
  | none => s
  | some a =>
    match a.st, a.parts, a.op.ctl with
    | .admitted, q :: _, some (ctl, noCheck) =>
      match s.target a.part.val (coreDie a.core) q.pa with
      | none => s
      | some (d, l) =>
        let f := q.pa % 64 / 4
        let posted (x : State) (st : Nat) : State := x.updAccess id fun z => { z with st := .posted st 0 }
        if !s.alive d then (s.refusePart a q (s.gateRefuses 48 1) 0).failAccess a .gateViolation q.va
        else if s.earlierOut a d l || s.underRepair d l || s.rowWaits d l then s
        else
        let (s0, gone) := s.readTags d l e
        if gone then posted (s0.memErr a.core a.slot) 7
        else if !keyMatches q.key (s0.lineKey d l) then
          (s0.refusePart a q (rowRefusal d l 6 q.bank q.slot) (s0.lineKey d l).toNat).failAccess a .gateViolation q.va
        else if (s0.lineInfo d l).capline then
          (s0.refusePart a q (rowRefusal d l 7 q.bank q.slot) 0).failAccess a .gateViolation q.va
        else if badControl ctl f noCheck then posted s0 6
        else
          let (s1, lost) := s0.readSymbols d l e 1 (coreUnit a.core)
          if lost then posted (s1.memErr a.core a.slot) 7
          else
            let r := postOutcome a.op f (s1.lineChars d l)
            if r.2.2.isSome && s1.storeNeedsRoom a { q with claimed := true } d l then
              if a.waited then s1 else (s1.countImageWait a.part).updAccess id fun x => { x with waited := true }
            else s1.postAt a q d l (ctlFw ctl) r
    | _, _, _ => s

def execPostingResult (id cc : Nat) (s : State) : Host.Outcome State Fault Refusal :=
  .next <| match s.findAccess id with
  | none => s
  | some a =>
    match a.st with
    | .posted st dx =>
      match (s.core a.core).awaiting id with
      | none => s.dropAccess id
      | some cur => (s.dropAccess id).goOn a.core { cur with post := some (st, dx) } cc
    | _ => s

/-! ### DACC at commit (R127, R128, R315) -/

/-- The unique value congruent to v + x modulo 10^n in the range of R127. -/
def accumulate (n : Nat) (v x : Int) : Int :=
  let m : Int := 10 ^ n
  let h : Int := 5 * 10 ^ (n - 1)
  (v + x + h) % m - h

/-- Removes the first entry equal to e. -/
def State.dropDacc (s : State) (d : Nat) (e : CoreId × Nat × PartId × DaccEntry) : State :=
  s.updDie d fun z => { z with m := { z.m with dacc := z.m.dacc.erase e } }

/-- A refused entry is skipped and TARGET_VIOLATION becomes pending at the core (R315). -/
def State.daccRefused (s : State) (d : Nat) (e : CoreId × Nat × PartId × DaccEntry) (v : Verdict) (lineKey : Nat) : State :=
  let (c, _, p, x) := e
  let s1 := s.violation v 4 (coreSource p c x.key.toNat lineKey x.sys) (linePa d x.line + 4 * x.word)
  let s2 := (s1.dropDacc d e).updDie d fun z => { z with daccSkip := z.daccSkip + 1 }
  s2.updCore c fun k => { k with tvPend := match k.tvPend with | some w => some w | none => some (word x.va) }

/-- The entry is added to its field. -/
def State.daccAdd (s : State) (d : Nat) (e : CoreId × Nat × PartId × DaccEntry) : State :=
  let (_, epoch, p, x) := e
  match packedValue (lineWords (s.lineChars d x.line) x.word x.fw) with
  | none => (s.dropDacc d e).updDie d fun z => { z with daccSkip := z.daccSkip + 1 }
  | some v =>
    let new := accumulate (9 * x.fw - 1) v x.x
    let s0 := s.joinImage d x.line p
    let s1 := if s0.needsImage d x.line fun g => !g.join && decide (g.epoch = epoch) then
        s0.saveImage d x.line p epoch none false
      else s0
    let s2 := (s1.putChars d x.line (4 * x.word) ((packWords x.fw new).flatMap Word.chars)).dropDacc d e
    if new = v + x.x then s2 else s2.updDie d fun z => { z with daccWrap := z.daccWrap + 1 }

def execDaccApply (d : DieId) (e : Ecc) (s : State) : Host.Outcome State Fault Refusal :=
  .next <| match (s.die d).m.dacc.find? fun x => !s.outerWaits d x.2.2.2.line with
  | none => s
  | some en =>
    let (c, epoch, p, x) := en
    let v := s.verdict { part := p, die := d, sys := x.sys, anyPart := false } (linePa d x.line + 4 * x.word) .acc true
    if v.reason ≠ 0 then s.daccRefused d en v 0
    else
    let (s0, gone) := s.readTags d x.line e
    if gone then s0
    else if !keyMatches x.key (s0.lineKey d x.line) then
      s0.daccRefused d en (rowRefusal d x.line 6 v.bank v.slot) (s0.lineKey d x.line).toNat
    else if (s0.lineInfo d x.line).poison then s0.startRepair d x.line
    else
      let (s1, lost) := s0.readSymbols d x.line e 1 (coreUnit c)
      if lost then s1
      else if s1.needsImage d x.line (fun g => !g.join && decide (g.epoch = epoch)) && !s1.imageRoom d then
        if x.waited then s1
        else (s1.countImageWait p).updDie d fun z => { z with m := { z.m with
          dacc := z.m.dacc.map fun w => if w = en then (c, epoch, p, { x with waited := true }) else w } }
      else s1.daccAdd d en

/-! ### The digest record of a transaction (R358) -/

def Outcome.code : Outcome → Nat
  | .committed => 0 | .software => 1 | .curfew => 2 | .memerr => 3

/-- Inserts a line number into a rising list. -/
def insertLine (n : Nat) : List Nat → List Nat
  | [] => [n]
  | m :: ms => if n < m then n :: m :: ms else if n = m then m :: ms else m :: insertLine n ms

/-- Ledger lines of die e that slot n of die d has left changed, in rising order. -/
def State.changedLines (s : State) (d n e : Nat) : List Nat :=
  (s.die e).m.images.foldl (fun l g =>
    let i := s.lineInfo e g.line
    let same := decide (g.chars = s.lineChars e g.line) && decide (g.info.capline = i.capline) &&
      decide (g.info.key.getD (s.initialKey e g.line) = s.lineKey e g.line)
    if s.ownImage d n g && !same then
      insertLine g.line l
    else l) []

/-- The bits of a record. -/
def State.recordBits (s : State) (d n : Nat) (o : Outcome) : List Bool :=
  let v := s.slot d n
  let p := v.part.val
  let lines := (List.range 8).flatMap fun e => (s.changedLines d n e).flatMap fun l =>
    bitsOf 3 (s.digestDie p e) ++ bitsOf 28 l ++ charBits (s.lineChars e l) ++ bitsOf 4 (s.lineKey e l).toNat ++
      [(s.lineInfo e l).capline]
  let accs := v.acc.flatMap fun x =>
    bitsOf 3 (s.digestDie p x.die) ++ bitsOf 28 x.line ++ bitsOf 4 x.word ++ bitsOf 3 x.fw ++
      (packWords 7 x.x).flatMap fun w => bitsOf 36 w.toNat
  let resp := (v.resp.getD []).flatMap fun b => bitsOf 8 b.toNat
  padOctet (bitsOf 72 v.pos.bits.toNat ++ bitsOf 4 o.code ++ (if o = .committed then lines ++ accs ++ resp else []))

def State.addRecord (s : State) (d n : Nat) (o : Outcome) : State :=
  let v := s.slot d n
  let g : DigestRec := { part := v.part, epoch := s.slotEpoch v, pos := v.pos, bits := s.recordBits d n o }
  s.updDie d fun e => { e with digests := e.digests ++ [g] }

/-! ### The commit gate (R129, R130, R136) -/

/-- Enters an event in the input log of an epoch. -/
def State.logEvent (s : State) (p epoch kind : Nat) (pos target : Position) (data : List Octet) : State :=
  let e : LogEntry := { pos := pos, kind := kind, data := data, marks := [], target := target, peer := .none }
  s.updPartn p fun q => { q with logs := Sparse.set [] q.logs epoch (Sparse.get [] q.logs epoch ++ [e]) }

/-- Outcome counters (R140). -/
def PCounters.decided (c : PCounters) : Outcome → PCounters
  | .committed => { c with committed := c.committed + 1 }
  | .software => { c with swabort := c.swabort + 1 }
  | .curfew => { c with curfew := c.curfew + 1 }
  | .memerr => { c with memerr := c.memerr + 1 }

/-- The gate decides the transaction at a position: its record, the counters, and for an event its stamp and log entry. -/
def State.decide_ (s : State) (p : Nat) (pos : Position) (epoch : Nat) (o : Outcome) : State :=
  let s1 := s.updPartn p fun q =>
    { q with txns := q.txns.map fun t => if t.pos = pos then { t with outcome := some o } else t, cnt := q.cnt.decided o }
  if o.isEvent then
    let (s2, e) := s1.stamp (if o = .curfew then 33 else 34)
    s2.logEvent p epoch (if o = .curfew then 2 else 3) e pos []
  else s1

/-- Tells every die that holds the transaction that it is aborted (R131). -/
def State.noticeAll (s : State) (p : Nat) (pos : Position) (o : Outcome) : State :=
  iter 8 (fun d x =>
    if h : d < 8 then
      ((x.slotsOf d p).filter fun n => decide ((x.slot d n).pos = pos)).foldl (fun y n => y.post (.notice ⟨d, h⟩ n pos o)) x
    else x) s

/-- The transaction's Curfew tick has begun and its check of this edge is still to come: the check decides first (R132). -/
def State.curfewDue (s : State) (p : Nat) (t : GateTxn) : Bool :=
  t.outcome.isNone && tickLe t.curfew s.tick && !epochLe t.epoch (s.partn p).sealed && decide (s.h.mirror.role ≠ 2)

/-- The first request or Curfew check decides, and every request is answered; the notice of a MEMERR decision to every die that
holds the transaction is its answer. A follower stamps no MEMERR event (R70). -/
def execResolveRequest (s : State) : Host.Outcome State Fault Refusal :=
  .next <| if !s.up gateDomain 4 then s else s.receive (fun m => match m with | .resolve _ _ _ _ => true | _ => false) fun x m =>
    match m with
    | .resolve d n pos r =>
      let v := x.slot d n
      if v.pos ≠ pos ∨ v.st = .free then x
      else match (x.partn v.part).txns.find? fun t => decide (t.pos = pos) with
        | none => x
        | some t =>
          if x.curfewDue v.part t then s else
          let want : Outcome := match r with | .commit => .committed | .abort => .software | .memerr => .memerr
          match r, t.outcome with
          | _, some o => x.post (.answer d n pos o)
          | .memerr, none =>
            if x.h.mirror.role = 2 then x else ((x.decide_ v.part pos t.epoch .memerr).noticeAll v.part pos .memerr).edgePassed
          | _, none => ((x.decide_ v.part pos t.epoch want).post (.answer d n pos want)).edgePassed
    | _ => x

/-! ### Outcomes on a die (R130, R131, R135) -/

/-- A response that has not departed is discarded (R133, R355). -/
def State.discardResponse (s : State) (d n : Nat) : State :=
  let v := s.slot d n
  let p := v.part.val
  let s1 := iter 32 (fun g x =>
    let mine (e : Cached) : Bool :=
      decide (e.part.val = p) && decide (e.die = d) && decide (e.slot = n) &&
        (!e.departed || decide (s.h.mirror.role = 2)) && decide (e.epoch = s.slotEpoch v)
    let hit := (x.port g).cached.filter mine
    if hit.isEmpty then x
    else
      let x1 := hit.foldl (fun y e => y.retype (g / 4) p (4 + g % 4) e.ptr 2) x
      (x1.updPort g fun z => { z with cached := z.cached.filter fun e => !mine e }).skipHead (g / 4) p (4 + g % 4)) s
  let s2 := s1.updHost fun x => { x with resp := Sparse.set [] x.resp p ((Sparse.get [] x.resp p).filter fun h =>
    !(decide (h.pos = v.pos) && h.epoch.isSome)) }
  s2.updSlot d n fun v => { v with resp := none }

/-- What the host is told of an injection that placed no response (R455). -/
def State.hostOutcome (s : State) (d n outcome : Nat) : State :=
  let v := s.slot d n
  let l := Sparse.get [] s.h.host.resp v.part
  let r : HostResp :=
    { q := v.org.port + 2, outcome := outcome, tag := v.org.tag.truncate 16, pos := v.pos, epoch := some (s.slotEpoch v),
      body := [] }
  if !v.org.host || v.resp.isSome || l.any (fun x => decide (x.pos = v.pos)) then s
  else if s.h.mirror.role = 2 then s.updSlot d n fun v => { v with departed := true }
  else s.updHost fun x => { x with resp := Sparse.set [] x.resp v.part (l ++ [r]) }

/-- The transaction of slot n of die d is committed on the die: record, DACC entries to their dies, releases. -/
def State.commitSlot (s : State) (d n : Nat) : State :=
  let v := s.slot d n
  let s1 := (s.addRecord d n .committed).hostOutcome d n 1
  let s2 := v.acc.foldl (fun x a => x.updDie a.die fun e => { e with m := { e.m with
    dacc := e.m.dacc ++ [(v.core.getD 0, s.slotEpoch v, v.part, a)] } }) s1
  (s2.releaseClaims d n).updSlot d n fun v => { v with st := .committed, outcome := some .committed, acc := [] }

/-- The transaction is aborted on the die. -/
def State.abortSlot (s : State) (d n : Nat) (o : Outcome) : State :=
  let s1 := s.addRecord d n o
  let s2 := match o with
    | .curfew => s1.discardResponse d n
    | .memerr => (s1.discardResponse d n).hostOutcome d n 4
    | _ => s1.hostOutcome d n 2
  s2.updSlot d n fun v => { v with st := .aborted, outcome := some o, acc := [] }

/-- The core that waits for the gate goes on. -/
def State.gateDone (s : State) (c : CoreId) (cc : Nat) : State :=
  match (s.core c).cur with
  | some x => if x.gate then s.goOn c x cc else s
  | none => s

/-- Claimed lines of slot n of die d that have been found poisoned are repaired: the gate has committed the transaction all the
same (R134). -/
def State.repairClaims (s : State) (d n : Nat) : State :=
  (s.slot d n).claims.foldl (fun x q => q.lines.foldl (fun y l =>
    if (y.lineInfo q.die l).poison && !y.underRepair q.die l then y.startRepair q.die l else y) x) s

def execGateAnswer (d : DieId) (cc : Nat) (s : State) : Host.Outcome State Fault Refusal :=
  .next <| s.receive (fun m => match m with | .answer dst _ _ _ => decide (dst = d) | _ => false) fun x m =>
    match m with
    | .answer _ n pos o =>
      let v := x.slot d n
      let x0 := if v.pos = pos ∧ o = .committed then x.repairClaims d n else x
      if v.pos ≠ pos ∨ v.st ≠ .resolving then x0
      else
        let x1 := match o with
          | .committed => x0.commitSlot d n
          | _ => (x0.abortSlot d n o).restoreSlot d n
        match v.core with
        | some c => x1.gateDone c cc
        | none => x1.tryFree d n
    | _ => x

/-- A Curfew or MEMERR abort reaches the die; a core that runs the transaction is interrupted. A slot that awaits the gate's
answer is left to it. -/
def execAbortNotice (d : DieId) (s : State) : Host.Outcome State Fault Refusal :=
  .next <| s.receive (fun m => match m with | .notice dst _ _ _ => decide (dst = d) | _ => false) fun x m =>
    match m with
    | .notice _ n pos o =>
      let v := x.slot d n
      if v.pos ≠ pos then x
      else match v.st with
        | .queued => ((x.abortSlot d n o).updSlot d n fun v => { v with restored := true }).tryFree d n
        | .taken => (match v.core with | some c => (x.abortSlot d n o).interrupt c .aborted | none => x.abortSlot d n o)
        | .declared => (match v.core with | some c => (x.abortSlot d n o).interrupt c .aborted | none => x.abortSlot d n o)
        | .granted => (match v.core with | some c => (x.abortSlot d n o).interrupt c .aborted | none => x.abortSlot d n o)
        | _ => x
    | _ => x

/-- A store that the transaction of slot n of die d has issued is still to be performed. -/
def State.txnStoresOut (s : State) (d n : Nat) : Bool :=
  s.accesses.any fun a =>
    decide (coreDie a.core = d) && decide (a.slot = some n) && !a.op.isRead && a.parts.any (fun q => q.claimed && q.resp.isNone) &&
      (match a.st with | .failed _ _ => false | .posted _ _ => false | _ => true)

def execAbortRestore (d : DieId) (n : Nat) (s : State) : Host.Outcome State Fault Refusal :=
  .next <|
    let v := s.slot d n
    if v.st ≠ .aborted ∨ v.restored ∨ s.txnStoresOut d n then s else (s.restoreSlot d n).tryFree d n

def execRepairTimeout (d : DieId) (line : Nat) (s : State) : Host.Outcome State Fault Refusal :=
  .next (if s.underRepair d line then s.poisonKept d line else s)

end Sys2Proof.Machine
end

