-- ==== Sys2Proof/Machine/Order.lean ====
section
/-! DEFINITION. The order of events: the tick edge and its scheduled actions in the order of R85, Horizons (R81 to R84), seal,
release and visibility (R90 to R93), and the shipping of input logs (R368). -/

namespace Sys2Proof.Machine

/-! ### The edge (R72, R75, R85) -/

/-- Posting time at which unwrapped tick u begins. -/
def SdRegs.edgeOf (g : SdRegs) (u : Nat) : Nat := g.originNs + u * g.tickNs

/-- Ticks are distributed (R65, R72). -/
def State.ticking (s : State) : Bool := decide (s.h.sd.g.st ≠ .unset) && !s.h.sd.g.beforeOrigin

/-- Length of the current holdover (R68). -/
def State.holdTime (s : State) : State :=
  s.updSd fun x =>
    if x.g.st = .holdover then { x with g := { x.g with holdMs := (x.g.time.toNat - x.holdStart) / 1000000 } } else x

/-- While no ticks are distributed, posting time runs on by the length of a tick with each edge of the hub, from the write of
SD_SET_LO in UNSET (R104), and before ORIGIN up to it. DESIGN CHOICE, log entry 35. -/
def State.runOn (s : State) : State :=
  let g := s.h.sd.g
  let t := g.time.toNat + g.tickNs
  if g.st = .unset ∧ s.h.sd.running then s.updSdRegs fun g => { g with time := BitVec.ofNat 72 t }
  else if g.st ≠ .unset ∧ t < g.originNs then s.updSdRegs fun g => { g with time := BitVec.ofNat 72 t }
  else s

/-- The next tick edge: posting time, tick, era and epoch in the hub, the tick counter of every participating die; the
actions of the edge can then launch. -/
def execTickEdge (s : State) : Host.Outcome State Fault Refusal :=
  .next <|
    let s := s.updSd fun x => { x with ran := x.ran + x.g.tickNs }
    if !s.ticking then s.runOn
    else
      let u := s.unwrapped + 1
      let s1 := s.updSd fun x =>
        { x with
          g := { x.g with
            time := BitVec.ofNat 72 (x.g.edgeOf u), tick := BitVec.ofNat 48 u, era := BitVec.ofNat 36 (u / 2 ^ 48),
            epoch := u / x.g.epochTicks % 2 ^ 72 },
          edgeStep := 1 }
      let s2 := iter 8 (fun d x =>
        if x.alive d && (x.die d).member then
          x.updDie d fun e => { e with o := { e.o with tick := e.o.tick + 1, edgeStep := 1 } }
        else x) s1
      s2.holdTime.tryAdmission

/-- The hub's full tick at an epoch boundary against the die's counter (R75). -/
def execTickCheck (d : DieId) (s : State) : Host.Outcome State Fault Refusal :=
  .next <|
    if !s.ticking || !s.alive d || !(s.die d).member || decide ((s.die d).o.tick = s.tick) then s
    else (s.sdError 1 d).updDie d fun e =>
      { e with fenceDue := match e.fenceDue with | some c => some c | none => some .tickCheck }

/-- Posting time reaches ORIGIN: tick 0 begins (R72). -/
def execOriginReached (s : State) : Host.Outcome State Fault Refusal :=
  .next <|
    if s.h.sd.g.st = .unset ∨ ¬ s.h.sd.g.beforeOrigin then s
    else
      let s1 := s.updSd fun x =>
        { x with g := { x.g with time := BitVec.ofNat 72 (x.g.originNs), beforeOrigin := false }, edgeStep := 1 }
      (s1.setTick 0).tryAdmission

/-- The hub launches its action of order n; no later one of this edge has been launched. -/
def State.atStep (s : State) (n : Nat) (f : State → State) : State :=
  if s.ticking && decide (s.h.sd.edgeStep ≤ n) then f (s.updSd fun x => { x with edgeStep := n }) else s

/-- Die d launches its action of order n. -/
def State.dieStep (s : State) (d n : Nat) (f : State → State) : State :=
  if s.ticking && s.alive d && (s.die d).member && decide ((s.die d).o.edgeStep ≤ n) then
    f (s.updDie d fun e => { e with o := { e.o with edgeStep := n } })
  else s

/-! ### Curfew (R132) -/

/-- Inserts a transaction in position order. -/
def insertTxn (t : GateTxn) : List GateTxn → List GateTxn
  | [] => [t]
  | x :: xs => if t.pos.before x.pos then t :: x :: xs else x :: insertTxn t xs

/-- A transaction whose die has been fenced: its changes on the other dies are restored and its claims there freed (R131,
R389). -/
def State.clearDead (s : State) (t : GateTxn) : State :=
  if s.alive t.die then s
  else iter 8 (fun d x =>
    let mine (g : Image) : Bool := !g.join && decide (g.owner = some (t.die, t.slot)) && decide (g.epoch = t.epoch)
    let x1 := ((x.die d).m.images.filter mine).foldl (fun y g => y.restoreFrom d g) x
    x1.updDie d fun e => { e with
      m := { e.m with images := e.m.images.filter fun g => !mine g },
      o := { e.o with claims := e.o.claims.filter fun c => !(decide (c.fromDie = t.die) && decide (c.pos = t.pos)) } }) s

/-- Aborts every unresolved transaction of p whose Curfew tick has begun, in position order. -/
def execCurfewCheck (p : PartId) (s : State) : Host.Outcome State Fault Refusal :=
  .next <| s.atStep 2 fun x =>
    if !x.up gateDomain 4 then x
    else
      let due := ((x.partn p).txns.filter (x.curfewDue p)).foldl (fun l t => insertTxn t l) []
      due.foldl (fun y t =>
        (((y.decide_ p t.pos t.epoch .curfew).noticeAll p t.pos .curfew).clearDead t).updPartn p fun q =>
          { q with standins := q.standins ++ [t] }) x

/-! ### Input logs and their followers (R367, R368) -/

/-- Peers of the group that hold the role of a follower to this lead: valid and not dropped (R92, R374). -/
def State.followers (s : State) : List Nat :=
  match s.h.plan.eff with
  | none => []
  | some pl =>
    if s.h.mirror.role ≠ 1 then []
    else (List.range 4).filter fun i =>
      decide (i ≠ s.h.mirror.id.val) && (match pl.mirror[i]? with | some m => m.valid | none => false) &&
        !s.h.mirror.dropped.getLsbD i

/-- Entries cut into segments whose payload stays within 9,000 octets (R365); an entry larger than that is a segment of its
own. DESIGN CHOICE, log entry 20. -/
def logSegments : List LogEntry → List LogEntry → List (List LogEntry)
  | cur, [] => [cur]
  | cur, e :: es =>
    if cur ≠ [] ∧ 8964 < (cur.map LogEntry.size).sum + e.size then cur :: logSegments [e] es
    else logSegments (cur ++ [e]) es

/-- Entries of an epoch's log in position order (R136). Where an event's own position precedes a later transaction of its epoch,
R91's words put it after every transaction; position order is kept: DESIGN CHOICE, log entry 20. -/
def insertEntry (e : LogEntry) : List LogEntry → List LogEntry
  | [] => [e]
  | x :: xs => if e.pos.before x.pos then e :: x :: xs else x :: insertEntry e xs
def sortEntries (l : List LogEntry) : List LogEntry := l.foldl (fun a e => insertEntry e a) []

/-- Segments of epoch e as LOG payloads. -/
def Partition.logPayloads (q : Partition) (p : PartId) (e : Nat) (dig : BitVec 64 × BitVec 64) : List MPayload :=
  let l := sortEntries (Sparse.get [] q.logs e)
  let segs := logSegments [] l
  segs.zipIdx.map fun x =>
    .log p (decide (x.2 = 0)) (decide (x.2 + 1 = segs.length)) x.2 e x.1 l.length dig.1 dig.2

/-- The read of an epoch's log before it is sent: a corrected symbol is written back, and a segment that cannot be read is rebuilt
from the dies' copies of the landed frames (R382). The buffer is taken to lie in row 0 of the lowest participating die, which the
error log names: DESIGN CHOICE, log entry 67. -/
def State.readLog (s : State) (p e : Nat) : State :=
  let d := s.members.headD 0
  let mended (x : State) : State := x.updPartn p fun q => { q with logHurt := Sparse.set [] q.logHurt e [] }
  match readUnit160 (Sparse.get [] (s.partn p).logHurt e) with
  | .clean => s
  | .corrected at_ _ => mended (s.correctedArea d 0 at_)
  | .uncorrectable => mended (s.areaLost d 0 p 5)

/-- Sends the epoch's segments to a peer, or those that pick names. -/
def State.shipTo (s : State) (p : PartId) (e dst : Nat) (pick : Nat → Bool) : State :=
  match Sparse.get none (s.partn p).sealedDigests e with
  | none => s
  | some dig =>
    (((s.partn p).logPayloads p e dig).zipIdx.filter fun x => pick x.2).foldl (fun y x => y.sendMirror dst x.1) (s.readLog p e)

/-- The follower that copies p (R373). -/
def State.joiner (s : State) (p : Nat) : List Nat :=
  if (s.partn p).joinEpoch.isSome then [(s.partn p).joinTo] else []

/-- Space of the input-log buffers, 256 MiB of each stack, is used up (R368). -/
def State.logsFull (s : State) : Bool :=
  let used := ((List.range 16).map fun p =>
    ((s.partn p).logs.map fun e => (e.2.map LogEntry.size).sum).sum).sum
  decide (s.members.length * 268435456 ≤ used)

/-! ### Digests at the hub (R358, R359) -/

/-- Die d runs p: it has a cluster of p or a region of p. -/
def State.runs (s : State) (p d : Nat) : Bool :=
  s.hasCluster p d || s.regions.any fun r =>
    decide (r.part = p) && (decide (r.die = d) || (decide (s.tandemOf p = some (d / 2)) && decide (r.die / 2 = d / 2)))

/-- Participating dies that form a digest for p. -/
def State.digestDies (s : State) (p : Nat) : List Nat := s.members.filter (s.runs p)

def Partition.digestOf (q : Partition) (d e : Nat) : Option (BitVec 64 × BitVec 64) :=
  (q.digests.find? fun x => decide (x.1.val = d) && decide (x.2.1 = e)).map fun x => x.2.2

/-- Enters a digest in place of an earlier one of the same die and epoch. -/
def putDigest (l : List (DieId × Nat × BitVec 64 × BitVec 64)) (x : DieId × Nat × BitVec 64 × BitVec 64) :
    List (DieId × Nat × BitVec 64 × BitVec 64) :=
  l.filter (fun y => !(decide (y.1 = x.1) && decide (y.2.1 = x.2.1))) ++ [x]

/-- The hub takes up the digests of p that have arrived. -/
def State.takeDigests (s : State) (p : Nat) : State :=
  let mine (m : Msg) : Bool := match m with | .digest _ q _ _ _ => decide (q.val = p) | _ => false
  let got := s.msgs.filterMap fun m => match m with
    | .digest src q e o u => if q.val = p then some (src, e, o, u) else none
    | _ => none
  ({ s with msgs := s.msgs.filter fun m => !mine m }).updPartn p fun q =>
    { q with digests := got.foldl putDigest q.digests }

/-- The digest of epoch e of p: that of the pair, or the sums over the dies modulo 2^64. DESIGN CHOICE, log entry 21. -/
def State.epochDigest (s : State) (p e : Nat) : Option (BitVec 64 × BitVec 64) :=
  let dies := s.digestDies p
  let l := dies.filterMap fun d => (s.partn p).digestOf d e
  if l.length ≠ dies.length then none
  else if (s.tandemOf p).isSome then some (l.headD (0, 0))
  else some (l.foldl (fun a x => (a.1 + x.1, a.2 + x.2)) (0, 0))

/-- The digests of the pair agree, or p has no pair of running dies (R90, R362). -/
def State.digestsAgree (s : State) (p e : Nat) : Bool :=
  match s.tandemOf p with
  | none => true
  | some k =>
    if s.alive (2 * k) && s.alive (2 * k + 1) then
      match (s.partn p).digestOf (2 * k) e, (s.partn p).digestOf (2 * k + 1) e with
      | some a, some b => decide (a = b)
      | _, _ => false
    else true

/-- Records the digest of each sealed epoch once it is known, and sends the epoch's log to the followers. -/
def State.shipSealed (s : State) (p : PartId) : State :=
  let q := s.partn p
  let n := ((q.digests.map fun x => x.2.1).filter fun e => epochLe e q.sealed && (Sparse.get none q.sealedDigests e).isNone).eraseDups
  n.foldl (fun x e => match x.epochDigest p e with
    | none => x
    | some dig =>
      let x1 := x.updPartn p fun q => { q with sealedDigests := Sparse.set none q.sealedDigests e (some dig) }
      (x1.followers ++ (x1.joiner p).filter (· ∉ x1.followers)).foldl (fun y i => y.shipTo p e i fun _ => true) x1) s

/-! ### Seal, release, visibility (R90 to R93) -/

/-- Epoch e of p meets the conditions of R90 but that on its predecessor. -/
def State.sealable (s : State) (p e : Nat) : Bool :=
  tickLe (s.lastTick e) s.hubHorizon &&
    ((s.partn p).txns.all fun t => decide (t.epoch ≠ e) || t.outcome.isSome) && s.digestsAgree p e && !s.logsFull

/-- Seals from epoch e on while the conditions hold. -/
def State.sealFrom (s : State) (p : Nat) : Nat → State
  | 0 => s
  | fuel + 1 =>
    let e := epochNext (s.partn p).sealed
    if s.sealable p e then (s.updPartn p fun q => { q with sealed := e }).sealFrom p fuel else s

/-- p seals and releases epochs (R363, R491). -/
def State.sealing (s : State) (p : Nat) : Bool :=
  s.h.sd.opened && decide (s.h.mirror.role.toNat < 2) &&
    decide ((s.partn p).st = .normal ∨ (s.partn p).st = .degraded)

def execEpochSeal (p : PartId) (s : State) : Host.Outcome State Fault Refusal :=
  .next <| s.atStep 3 fun x =>
    if !x.sealing p || !x.up gateDomain 4 then x
    else
      let x1 := x.takeDigests p
      let last := x1.epochOf x1.hubHorizon
      let fuel := (last + 1 + 2 ^ 72 - (x1.partn p).sealed % 2 ^ 72) % 2 ^ 72
      (if fuel < 2 ^ 71 then x1.sealFrom p fuel else x1).shipSealed p

/-- Releases every epoch of p that is sealed and acknowledged. -/
def State.releaseFrom (s : State) (p : PartId) : Nat → State
  | 0 => s
  | fuel + 1 =>
    let q := s.partn p
    let e := epochNext q.released
    if epochLe e q.sealed && s.followers.all (fun i => epochLe e (Sparse.get 0 q.acked i)) then
      let s1 := s.updPartn p fun q => { q with released := e }
      (s1.members.foldl (fun x d => if h : d < 8 then x.post (.release ⟨d, h⟩ p e) else x) s1).releaseFrom p fuel
    else s

def execReleaseLaunch (p : PartId) (s : State) : Host.Outcome State Fault Refusal :=
  .next <| s.atStep 4 fun x =>
    let q := x.partn p
    let n := (q.sealed + 2 ^ 72 - q.released % 2 ^ 72) % 2 ^ 72
    if !x.sealing p || decide (2 ^ 71 ≤ n) then x else x.releaseFrom p n

/-- A release reaches the die, which holds new unclaimed reads of p; a later one waits its turn (R92). -/
def execReleaseReceive (d : DieId) (p : PartId) (s : State) : Host.Outcome State Fault Refusal :=
  .next <|
    if (Sparse.get none (s.die d).o.holding p).isSome then s
    else s.receive (fun m => match m with | .release dst q _ => decide (dst = d) && decide (q = p) | _ => false) fun x m =>
      match m with
      | .release _ _ e =>
        if !x.alive d then x
        else x.updDie d fun z => { z with o := { z.o with holding := Sparse.set none z.o.holding p (some e) } }
      | _ => x

/-- An unclaimed read of p that a core of die d issued before the release is outstanding. -/
def State.readsOut (s : State) (d p : Nat) : Bool :=
  s.accesses.any fun a =>
    decide (coreDie a.core = d) && decide (a.part.val = p) && a.op.isRead && !a.held &&
      a.parts.any fun q => !q.claimed && !q.scratch

/-- The die's visible epoch of p becomes e: held reads proceed, slots that waited for it are freed. -/
def State.switchVisible (s : State) (d : DieId) (p : PartId) (e : Nat) : State :=
  let s1 := s.updDie d fun z => { z with o := { z.o with
    visible := Sparse.set 0 z.o.visible p e, holding := Sparse.set none z.o.holding p none } }
  let proceed (a : Access) : Access := if coreDie a.core = d.val ∧ a.part = p then { a with held := false } else a
  let s2 := { s1 with accesses := s1.accesses.map proceed }
  (s2.slotsOf d p).foldl (fun x n => x.tryFree d n) (s2.post (.switched d p e))

/-- A line still carries what a transaction of p up to epoch e wrote that is neither committed nor restored there (R131), or a DACC
entry of such an epoch is still to be applied (R97). DEDUCED, log entry 36: the switch waits for both, so that reads return every
line as of the epoch (R94) and the image is there to restore. -/
def State.changesOpen (s : State) (p e : Nat) : Bool :=
  (List.range 8).any fun d =>
    (s.die d).m.images.any (fun g =>
      !g.join && decide (g.part.val = p) && epochLe g.epoch e && match g.owner with
      | some (o, n) => s.ownImage o.val n g && decide ((s.slot o.val n).st ≠ .committed) && !(s.slot o.val n).restored
      | none => false) ||
    (s.die d).m.dacc.any fun x => decide (x.2.2.1.val = p) && epochLe x.2.1 e

def execVisibleEpochSwitch (d : DieId) (p : PartId) (s : State) : Host.Outcome State Fault Refusal :=
  .next <| match Sparse.get none (s.die d).o.holding p with
  | none => s
  | some e => if s.readsOut d p || s.changesOpen p e then s else s.switchVisible d p e

/-- What the hub and the dies no longer need once epoch e of p is visible: before-images (R93, R128), the gate's records, the
digests, and, with no join in progress, the logs (R368). -/
def State.forget (s : State) (p e : Nat) : State :=
  let s1 := iter 8 (fun d x => x.updDie d fun z =>
    { z with
      m := { z.m with images := z.m.images.filter fun g => g.join || decide (g.part.val ≠ p) || !epochLe g.epoch e },
      digests := z.digests.filter fun g => decide (g.part.val ≠ p) || !epochLe g.epoch e,
      unordered := z.unordered.filter fun x => decide (x.1 % 16 ≠ p) || !epochLe (x.1 / 16) e }) s
  s1.updPartn p fun q =>
    let keep (f : Nat) : Bool := !epochLe f e || q.joinEpoch.isSome
    { q with
      txns := q.txns.filter fun t => !epochLe t.epoch e || t.outcome.isNone,
      digests := q.digests.filter fun x => !epochLe x.2.1 e,
      logs := q.logs.filter fun x => keep x.1,
      sealedDigests := q.sealedDigests.filter fun x => keep x.1 }

/-- Every participating die has reported its switch to the next epoch of p. -/
def execHubVisibleSwitch (p : PartId) (s : State) : Host.Outcome State Fault Refusal :=
  .next <|
    let q := s.partn p
    let e := epochNext q.visible
    let reported (d : Nat) : Bool := s.msgs.any fun m => match m with
      | .switched src r f => decide (src.val = d) && decide (r = p) && decide (f = e)
      | _ => false
    if !epochLe e q.released || s.members.isEmpty || !s.members.all reported then s
    else
      let s1 := { s with msgs := s.msgs.filter fun m => match m with
        | .switched _ r f => !(decide (r = p) && decide (f = e))
        | _ => true }
      (s1.updPartn p fun q => { q with visible := e }).forget p e

/-! ### Alarms (R88) -/

def execAlarmFire (c : CoreId) (s : State) : Host.Outcome State Fault Refusal :=
  .next <| match (s.core c).alarm with
  | none => s
  | some w =>
    if !(s.core c).running then s.updCore c fun k => { k with alarm := none }
    else s.dieStep (coreDie c) 5 fun x =>
      if ((x.die (coreDie c)).o.tick.truncate 36 - w : Word).toNat < 2 ^ 35 ∧ (x.core c).alarmTick ≠ some (x.die (coreDie c)).o.tick then
        (x.updCore c fun k => { k with alarm := none }).interrupt c .alarm
      else x

/-! ### Scrubbing (R383) -/

/-- 80-byte units of a row: half of a stack of 24 GiB, over 16 pseudo-channels (R53, R56). DEDUCED, log entry 22. -/
def rowUnits : Nat := 161061264

/-- What a scrubber's read of unit u of a row meets. The units of the row's lines come first, then its tag lines, then the
reserved areas. DESIGN CHOICE, log entry 22. e.line: the changed symbols of the unit. -/
def State.scrubUnit (s : State) (d row u : Nat) (e : Ecc) : State :=
  if u < 2 ^ 27 then
    let l := u / 16 * 32 + row * 16 + u % 16
    (s.readSymbols d l e 2 row).1
  else
    let l := 128 * (u - 2 ^ 27) + 16 * row
    if u < 2 ^ 27 + 2 ^ 21 then (s.readTags d l { e with tag := e.line }).1
    else match readUnit160 e.line with
      | .clean => s
      | .corrected at_ _ => (s.correctedArea d row at_).countRowCe d row u at_.length
      | .uncorrectable => (s.areaLost d row 0 2).failRow d row u

/-- One unit, and the row's progress. -/
def State.scrubNext (s : State) (d row : Nat) (e : Ecc) : State :=
  let u := Sparse.get 0 (s.die d).scrub row
  (s.scrubUnit d row u e).updDie d fun z =>
    if u + 1 < rowUnits then { z with scrub := Sparse.set 0 z.scrub row (u + 1) }
    else { z with
      m := { z.m with rowCe := z.m.rowCe.filter fun y => decide (y.1 / 16 ≠ row) },
      scrub := Sparse.set 0 z.scrub row 0,
      scrubPass := Sparse.set 0 z.scrubPass row (Sparse.get 0 z.scrubPass row + 1) }

def execScrubSlice (d : DieId) (row : Bool) (es : List Ecc) (s : State) : Host.Outcome State Fault Refusal :=
  .next <| s.dieStep d 6 fun x =>
    if es.length ≠ x.paramN 25 0 4 || !x.up (13 * d + 8 + bit row) 4 then x else es.foldl (fun y e => y.scrubNext d (bit row) e) x

/-! ### Statistics snapshot (R443) -/

def execStatisticsSnapshot (s : State) : Host.Outcome State Fault Refusal :=
  .next <|
    if s.tick.toNat % s.h.host.g.snapPeriod ≠ 0 then s
    else s.atStep 7 fun x =>
      let post := (List.range 16).foldl (fun m p =>
        (List.range 10).foldl (fun m w => Sparse.set 0 m (16 * p + w) (x.counterWord p w)) m) []
      let port := (List.range 32).foldl (fun m n =>
        (List.range 14).foldl (fun m j => Sparse.set 0 m (16 * n + j) (x.portWord (n / 4) (n % 4) (2 + j))) m) []
      (x.updHost fun h => { h with
        snap := { seq := (h.snap.seq + 2) % 2 ^ 64, tick := x.tick, post := post, port := port } }).event 5

/-! ### Horizons (R81 to R84) -/

/-- The position's frame was landed on die d. -/
def Slot.landedOn (v : Slot) (d : Nat) : Bool := !v.org.host && decide (v.org.port / 4 = d)

/-- Ticks of frames that some sel names and whose copies are in flight. -/
def State.copyTicks (s : State) (sel : Slot → Bool) : List (BitVec 48) :=
  s.msgs.filterMap fun m => match m with
    | .copy _ v _ _ => if sel v then some (v.pos.tick - 1) else none
    | _ => none

/-- The Horizon of a unit: the tick before the current one, or the one before the earliest frame still in flight. -/
def State.ownHorizon (s : State) (tick : BitVec 48) (sel : Slot → Bool) : BitVec 48 :=
  (leastTick ((tick - 1) :: s.copyTicks sel)).getD 0

/-- Once admission has opened a Horizon does not go back; before that no frame has been stamped, and it follows the tick. -/
def laterTick (a b : BitVec 48) : BitVec 48 := if tickLe a b then b else a

/-- Sends a Horizon to every other participating unit. -/
def State.sendHorizon (s : State) (u : HzUnit) (t : BitVec 48) : State :=
  let dies := s.members.filterMap fun d => if h : d < 8 then some (HzUnit.die ⟨d, h⟩) else none
  ((HzUnit.hub :: dies).filter (· ≠ u)).foldl (fun x v => x.post (.horizon u v t)) s

def execHorizonAnnounce (u : HzUnit) (s : State) : Host.Outcome State Fault Refusal :=
  .next <|
    if !s.ticking then s
    else match u with
      | .die d =>
        if !s.alive d || !(s.die d).member then s
        else
          let o := (s.die d).o
          let own := s.ownHorizon o.tick fun v => v.landedOn d
          let t := if s.h.sd.opened then laterTick o.hzSent own else own
          (s.updDie d fun e => { e with o := { e.o with hzSent := t } }).sendHorizon u t
      | .hub =>
        let own := s.ownHorizon s.tick fun v => v.org.host
        let t := if s.h.sd.opened then laterTick s.h.sd.hzHub own else own
        (s.updSd fun x => { x with hzHub := t }).sendHorizon u t

/-- Posting time at which the announcement after a die's latest Horizon falls due (R84). -/
def State.hzDue (s : State) (d : Nat) : Nat :=
  s.h.sd.g.edgeOf (s.unwrap (Sparse.get 0 s.h.sd.hzSeen d) + 2) + 48

/-- The die's lag exceeds n ns within the current tick. -/
def State.lagBeyond (s : State) (d n : Nat) : Bool :=
  (s.die d).member && s.ticking && decide (s.hzDue d + n < s.h.sd.g.edgeOf (s.unwrapped + 1))

/-- The hub clears STALLED when the lag is within the limit all through the current tick. -/
def execHorizonReceive (dst src : HzUnit) (s : State) : Host.Outcome State Fault Refusal :=
  .next <| s.receive (fun m => match m with | .horizon a b _ => decide (a = src) && decide (b = dst) | _ => false) fun x m =>
    match m with
    | .horizon _ _ t =>
      match dst, src with
      | .die d, .die e => x.updDie d fun z => { z with o := { z.o with hzSeen := Sparse.set 0 z.o.hzSeen e t } }
      | .die d, .hub => x.updDie d fun z => { z with o := { z.o with hzSeen := Sparse.set 0 z.o.hzSeen 8 t } }
      | .hub, .die e =>
        let x1 := (x.updSd fun z => { z with hzSeen := Sparse.set 0 z.hzSeen e t }).edgePassed
        if x1.lagBeyond e (x1.paramN 15 0 2000) then x1
        else x1.updSd fun z => { z with stalled := z.stalled &&& ~~~(1#8 <<< e.val) }
      | .hub, .hub => x
    | _ => x

def execHorizonStall (d : DieId) (s : State) : Host.Outcome State Fault Refusal :=
  .next <|
    if s.h.sd.stalled.getLsbD d || !s.lagBeyond d (s.paramN 15 0 2000) then s
    else (s.updSd fun z => { z with stalled := z.stalled ||| (1#8 <<< d.val) }).sdError 2 d

def execHorizonStallFence (d : DieId) (s : State) : Host.Outcome State Fault Refusal :=
  .next <|
    if !s.lagBeyond d (4 * s.paramN 15 0 2000) then s
    else s.updDie d fun e => { e with fenceDue := match e.fenceDue with | some c => some c | none => some .stall }

end Sys2Proof.Machine
end

