-- ==== Sys2Proof/Machine/Sundial.lean ====
section
/-! DEFINITION. The Sundial's sources and its servo (R63 to R71, R331), the pulse output (R490), its timers (R66, R69) and the
register accesses with an effect of their own (R104, R140). -/

namespace Sys2Proof.Machine

/-! ### Calibration (R482) -/

def clamp3 (lo hi v : Int) : Int := max lo (min hi v)

/-- The effective value: factory plus user offset, clamped. -/
def State.calValue (s : State) (item : Nat) (lo hi : Int) : Int :=
  clamp3 lo hi (Sparse.get 0 s.h.fuses.cal item + Sparse.get 0 s.h.calUser item)

/-- A delay of class 1 to 3, whose unit is 62.5 ps, in whole ns. Parts of a ns are dropped: DESIGN CHOICE, log entry 24. -/
def State.delayNs (s : State) (cls idx : Nat) : Int := s.calValue (256 * cls + idx) 0 4095 / 16

/-! ### Sources (R63, R64) -/

def Sundial.source (x : Sundial) (second : Bool) : Source := if second then x.sec else x.pri
def Sundial.setSource (x : Sundial) (second : Bool) (v : Source) : Sundial :=
  if second then { x with sec := v } else { x with pri := v }

/-- A value held within ±m. -/
def clampInt (x m : Int) : Int := max (-m) (min x m)

/-- SD_OFFSET saturates (R103). -/
def satOffset (x : Int) : Int := clampInt x (2 ^ 35 - 1)

/-- One measurement in the run of a source: the run lasts while measurements come at least once per second and no two
consecutive ones differ by more than QUAL_NS (R64). -/
def Source.measured (q : Source) (offset : Int) (at_ gapMs qualNs qualMs : Nat) (y : Int) : Source :=
  let good := q.seen && decide (gapMs ≤ 1000) && decide ((offset - q.last).natAbs ≤ qualNs)
  let run := if good then q.runMs + gapMs else 0
  { seen := true, runMs := run, last := offset, at_ := at_, qualified := decide (qualMs ≤ run), y := y }

/-- Interval and gains of a source's servo (R331, R371): ns, PTP_KP, PTP_KI. -/
structure Servo where
  interval : Int
  kp : Nat
  ki : Nat
  deriving DecidableEq, Repr

/-- Port number of the PTP client that serves a source of kind 1 or 2. -/
def State.sourceClient (s : State) (second : Bool) : Nat :=
  if s.sourceKind second = 2 then 32 + s.sourcePort second else s.sourcePort second

/-- 2^k s in ns. -/
def intervalNs (k : Int) : Int := if 0 ≤ k then 1000000000 * 2 ^ k.toNat else 1000000000 / 2 ^ (-k).toNat

/-- The integral and the correction y, both in parts per 10^12, for a measurement m = local − source. -/
def Servo.next (v : Servo) (slew : Int) (i m : Int) : Int × Int :=
  let lim := slew * 1000000
  let part (k : Nat) : Int := m * 1000000000000 / (v.interval * 2 ^ k)
  let i' := clampInt (i + part v.ki) lim
  (i', clampInt (part v.kp + i') lim)

/-! ### Choice of a source (R64 to R66) -/

/-- Posting time moves to the source's and the integral starts anew (R67, R331). -/
def State.stepTo (s : State) (second : Bool) (offset : Int) : State :=
  let s1 := s.setTime (BitVec.ofInt 72 ((s.h.sd.g.time.toNat : Int) + offset))
  let s2 := s1.updSd fun x => x.setSource second { x.source second with last := 0 }
  let k := s.sourceKind second
  if k = 1 ∨ k = 2 then s2.updPort (s.sourceClient second) fun z => { z with ptp := { z.ptp with integral := 0 } }
  else if k = 4 then s2.updMirror fun z => { z with integral := 0 } else s2

/-- The state's fields for a source. -/
def State.selectSd (s : State) (st : SdSt) (second : Bool) : State :=
  s.enterSd st (BitVec.ofNat 3 (s.sourceKind second)) second (BitVec.ofNat 6 (s.sourcePort second))

/-- Mean of the corrections of the last 64 s of lock (R68). -/
def meanFreq (l : List (Nat × Int)) (d : Int) : Int :=
  if l.isEmpty then d else (l.map Prod.snd).sum / l.length

/-- The Sundial enters HOLDOVER on the averaged correction; the last source selected stays shown (R68, R101). -/
def State.enterHoldover (s : State) : State :=
  let g := s.h.sd.g
  let s1 := s.updSd fun x => { x with g := { x.g with freq := meanFreq x.freqLog x.g.freq }, freqLog := [] }
  s1.enterSd .holdover g.source g.which g.port

/-- A source is qualified and of a kind that measures. -/
def State.usable (s : State) (second : Bool) : Bool :=
  (s.h.sd.source second).qualified && decide (s.sourceKind second ≠ 0)

/-- SD_FREQ while LOCKED to a source (R103, R331). The correction that the 10 MHz input gives is not in the manual: a free
value, log entry 23. -/
def State.lockFreq (s : State) (second : Bool) (y : Int) : State :=
  let s1 := if s.sourceKind second = 3 then { s with free := s.free + 1 } else s
  let v := if s.sourceKind second = 3 then clampInt (Config.freeWord s.free).toInt (s.paramN 12 0 100 * 1000000) else y
  s1.updSd fun x =>
    let now := x.g.time.toNat
    { x with
      g := { x.g with freq := v },
      freqLog := x.freqLog.filter (fun e => decide (now ≤ e.1 + 64000000000)) ++ [(now, v)] }

/-- A measurement of the selected source: SD_OFFSET and SLEWING, a step before the first opening, the errors
(R67, R103, R105). -/
def State.takeOffset (s : State) (second : Bool) (offset : Int) : State :=
  let s1 := s.updSdRegs fun g => { g with offset := satOffset offset }
  if s.h.sd.opened ∨ offset.natAbs ≤ 1000 then
    let s2 := s1.updSdRegs fun g => { g with slewing := decide (s.paramN 9 0 100 < offset.natAbs) }
    if s.h.sd.opened ∧ 1000000000 < offset.natAbs then s2.sdError 5 0 else s2
  else (s1.updSdRegs fun g => { g with slewing := false }).stepTo second offset

/-- LOCKED to a source, with the offset of its last measurement and the correction of its servo (R66, R67, R103). -/
def State.lockTo (s : State) (second : Bool) : State :=
  let q := s.h.sd.source second
  ((s.selectSd .locked second).takeOffset second q.last).lockFreq second q.y

/-- The selected source is lost (R66): code 3, then the other source if it is qualified, else HOLDOVER. -/
def State.loseSelected (s : State) : State :=
  let w := s.h.sd.g.which
  let s1 := (s.sdError 3 0).updSd fun x => x.setSource w { x.source w with seen := false, runMs := 0, qualified := false }
  if s.h.sd.g.st ≠ .locked then s1
  else if (s1.h.sd.source (!w)).qualified then s1.lockTo (!w)
  else s1.enterHoldover

/-- LOCKED to the primary source when it is qualified, else to the secondary source (R64, R66). -/
def State.relock (s : State) : State :=
  if s.usable false then s.lockTo false
  else if s.usable true then s.lockTo true
  else s

/-- A valid measurement of a source (R64, R66, R67): its time, posting time at the measurement, the gap since its previous
measurement in ms, and the correction y of its servo. Events of one second are taken in the order in which their commands wait, which
is to be the order of R66's rows. A measurement beyond JUMP_NS records code 4 and then, the source being lost, code 3: DESIGN CHOICE,
log entry 35. -/
def State.measure (s : State) (second : Bool) (time loc : Nat) (gapMs : Nat) (y : Int) : State :=
  let kind := s.sourceKind second
  let qualNs := s.paramN 9 0 100
  if kind = 0 then s
  else
    let st := s.h.sd.g.st
    let offset : Int := if st = .unset then 0 else (time : Int) - loc
    let upd (x : State) : State := x.updSd fun z =>
      z.setSource second ((z.source second).measured offset time gapMs qualNs (1000 * s.paramN 10 0 8) y)
    match st with
    | .unset => ((upd s).selectSd .acquiring second).setTime (BitVec.ofNat 72 time)
    | .free => upd s
    | .acquiring =>
      let s1 := upd s
      let w := s.h.sd.g.which
      let chosen := if s1.usable false then false else if s1.usable true then true
        else if (s1.h.sd.source w).seen then w else second
      if chosen ≠ second then s1
      else
        let s2 := (if chosen = w then s1 else s1.selectSd .acquiring second).takeOffset second offset
        if (s1.h.sd.source second).qualified && decide (offset.natAbs ≤ qualNs) then (s2.selectSd .locked second).lockFreq second y
        else s2
    | .locked =>
      let sel := s.h.sd.g.which
      let s1 := upd s
      if sel = second then
        if s.paramN 11 0 1000 < offset.natAbs then
          ((s1.updSdRegs fun g => { g with offset := satOffset offset, slewing := decide (qualNs < offset.natAbs) }).sdError 4 0).loseSelected
        else
          let s2 := (s1.takeOffset second offset).lockFreq second y
          if sel && s2.usable false then s2.lockTo false else s2
      else if !second && s1.usable false then s1.lockTo false
      else s1
    | .holdover =>
      let s1 := upd s
      let s2 := if s.h.sd.g.which = second then s1.takeOffset second offset else s1
      if s.h.sd.g.night then s2 else s2.relock

/-- The servo that serves a source: that of its PTP client, or of the lead's heartbeats with the gains of R331 for the primary mirror
port; its integral. -/
def State.servoOf (s : State) (second : Bool) : Servo × Int :=
  let k := s.sourceKind second
  if k = 4 then
    let p := match s.h.plan.eff.bind fun pl => s.h.mirror.lead.bind fun l => pl.mirror[l.val]? with
      | some m => 32 + m.primary
      | none => 32
    ({ interval := max 1 (s.paramN 19 0 10 * 1000 : Int), kp := s.paramN 65 p 3, ki := s.paramN 66 p 8 }, s.h.mirror.integral)
  else
    let n := s.sourceClient second
    ({ interval := intervalNs (s.port n).ptp.interval, kp := s.paramN 65 n 3, ki := s.paramN 66 n 8 }, (s.port n).ptp.integral)

/-- A servo takes a measurement m = local − source: its integral moves on, and the correction. -/
def State.servoTake (s : State) (second : Bool) (m : Int) : State × Int :=
  let (v, i0) := s.servoOf second
  let (i, y) := v.next (s.param 12 0 100) i0 m
  (if s.sourceKind second = 4 then s.updMirror fun z => { z with integral := i }
    else s.updPort (s.sourceClient second) fun z => { z with ptp := { z.ptp with integral := i } }, y)

/-! ### Commands -/

/-- The domain that holds a port (R458). -/
def portDomain (n : Nat) : Nat := if n < 32 then 13 * (n / 4) + 11 else if n = 32 then 108 else 110

/-- A source can be measured: the port that serves one of kind 1 or 2 is powered, which in Night only mirror port A is (R465). -/
def State.measurable (s : State) (second : Bool) : Bool :=
  !decide (s.sourceKind second = 1 ∨ s.sourceKind second = 2) || s.up (portDomain (s.sourceClient second)) 4

/-- A measurement of a source; of kinds 1, 2 and 4 its servo gives the correction. -/
def execSourceMeasurement (second : Bool) (time loc : Pair) (gapMs : Nat) (s : State) : Host.Outcome State Fault Refusal :=
  .next <|
    if !s.measurable second then s
    else if s.sourceKind second = 0 ∨ s.sourceKind second = 3 then s.measure second time.toNat loc.toNat gapMs 0
    else
      let (s1, y) := s.servoTake second ((loc.toNat : Int) - time.toNat)
      s1.measure second time.toNat loc.toNat gapMs y

/-- A source has delivered nothing for its timeout (R64). -/
def execSourceLoss (second : Bool) (s : State) : Host.Outcome State Fault Refusal :=
  .next <|
    if !(s.h.sd.source second).seen then s
    else if s.h.sd.g.which = second ∧ (s.h.sd.g.st = .acquiring ∨ s.h.sd.g.st = .locked) then s.loseSelected
    else s.updSd fun x =>
      x.setSource second { x.source second with seen := false, runMs := 0, qualified := false }

/-- Whole seconds nearest to a time in ns. -/
def nearestSecond (t : Nat) : Nat := (t + 500000000) / 1000000000 * 1000000000

/-- A 1PPS edge for the sources of kind 3: the first one after a write of SD_SET_LO takes the seconds written (R63). -/
def State.ppsFor (s : State) (second : Bool) (loc : Nat) : State :=
  if s.sourceKind second ≠ 3 then s
  else
    let x := s.h.sd
    let gap (t : Nat) : Nat := (t - (x.source second).at_) / 1000000
    if x.secondsTaken then let t := nearestSecond loc; s.measure second t loc (gap t) 0
    else if !x.running then s
    else
      let t := nearestSecond x.setTaken.toNat
      (s.updSd fun x => { x with secondsTaken := true }).measure second t loc (gap t) 0

/-- loc: posting time at the input; PPS_DELAY corrects it (R482). -/
def execPpsEdge (loc : Pair) (s : State) : Host.Outcome State Fault Refusal :=
  let t := ((loc.toNat : Int) - s.delayNs 3 0).toNat
  .next ((s.ppsFor false t).ppsFor true t)

/-- A whole second of posting time falls within the current tick: PPS_OUT pulses (R490). -/
def execPpsOutPulse (s : State) : Host.Outcome State Fault Refusal :=
  .next <|
    let g := s.h.sd.g
    let t := g.time.toNat
    let sec := ceilDiv t 1000000000 * 1000000000
    if g.st = .unset ∨ t + g.tickNs ≤ sec then s else s.emit .pps

/-- LOCK_WAIT_S have passed since the image was applied without LOCKED or FREE (R66). -/
def execLockWaitExpiry (s : State) : Host.Outcome State Fault Refusal :=
  .next <|
    let x := s.h.sd
    if s.h.plan.eff.isNone ∨ x.lockReported ∨ x.opened ∨ x.g.st = .locked ∨ x.g.st = .free then s
    else (s.updSd fun x => { x with lockReported := true }).sdError 7 0

/-- SD_HOLD_MS exceeds HOLD_LIMIT_S × 1,000 (R69). -/
def execHoldLimitExpiry (s : State) : Host.Outcome State Fault Refusal :=
  .next <|
    let x := s.h.sd
    let limit := s.paramN 13 0 0
    if x.g.st ≠ .holdover ∨ limit = 0 ∨ x.holdReported ∨ x.g.holdMs ≤ limit * 1000 then s
    else (s.updSd fun x => { x with holdReported := true }).sdError 6 0

def execSdSetLoWrite (v : Word) (s : State) : Host.Outcome State Fault Refusal := .next (s.writeSetLo v)

/-- A read of GRANT_MAX of partition p: its value, as the space 2 view shows a word, and the register cleared (R140). -/
def execGrantMaxRead (p : PartId) (s : State) : Host.Outcome State Fault Refusal :=
  .next <|
    let (s1, w) := s.space2Read (4096 + 64 * p.val + 32)
    s1.emit (.completion [w.zeroExtend 64] false)

end Sys2Proof.Machine
end

