-- ==== Sys2Proof/Machine/Wire.lean ====
section
/-! DEFINITION. Frames as octets, from the destination address to the last octet before the FCS: VLAN tags (R325), IP and UDP
headers (R326, R328), LPT messages (R332) and received mirror frames (R365 to R373). -/

namespace Sys2Proof.Machine

/-- n octets from a, the most significant first. -/
def beAt (o : List Octet) (a n : Nat) : Nat := ofOctetsBE ((o.drop a).take n)


/-! ### Ethernet -/

/-- An Ethernet header: addresses, tags as their four octets (0 for none), the VID of R413, EtherType, and what follows. -/
structure Eth where
  dst : Nat
  src : Nat
  outer : Nat
  inner : Nat
  vid : Nat
  etype : Nat
  body : List Octet
  deriving DecidableEq, Repr

def isTag (t : Nat) : Bool := decide (t = 0x8100) || decide (t = 0x88A8)

/-- The header of a frame; none for tags that R325 does not admit. -/
def parseEth (o : List Octet) : Option Eth :=
  let t := beAt o 12 2
  let dst := beAt o 0 6
  let src := beAt o 6 6
  if t = 0x8100 then
    if isTag (beAt o 16 2) then none
    else some { dst := dst, src := src, outer := beAt o 12 4, inner := 0, vid := beAt o 14 2 % 4096, etype := beAt o 16 2,
                body := o.drop 18 }
  else if t = 0x88A8 then
    if beAt o 16 2 ≠ 0x8100 ∨ isTag (beAt o 20 2) then none
    else some { dst := dst, src := src, outer := beAt o 12 4, inner := beAt o 16 4, vid := beAt o 18 2 % 4096,
                etype := beAt o 20 2, body := o.drop 22 }
  else some { dst := dst, src := src, outer := 0, inner := 0, vid := 0, etype := t, body := o.drop 14 }

/-! ### Checksums -/

/-- Sum of 16-bit units. -/
def sum16 : List Octet → Nat
  | a :: b :: l => a.toNat * 256 + b.toNat + sum16 l
  | [a] => a.toNat * 256
  | [] => 0

/-- The one's complement sum. -/
def onesSum (l : List Octet) : Nat :=
  let n := sum16 l
  if n = 0 then 0 else if n % 65535 = 0 then 65535 else n % 65535

def checksum (l : List Octet) : Nat := 65535 - onesSum l

/-! ### IP and UDP -/

/-- The IPv4-mapped form of an IPv4 address (R367). -/
def mapped (a : Nat) : Nat := 0xFFFF * 2 ^ 32 + a

/-- An IP packet: addresses of 128 bits, protocol, payload by the length of its header; bad and short: row 4 of R326, short when the
frame carries fewer octets than that length, which only its last bit shows. -/
structure Ip where
  v6 : Bool
  src : Nat
  dst : Nat
  proto : Nat
  bad : Bool
  short : Bool
  body : List Octet
  deriving DecidableEq, Repr

/-- n octets, zeros where there are fewer. -/
def takeZeros (o : List Octet) (n : Nat) : List Octet := o.take n ++ List.replicate (n - o.length) 0

def parseIp4 (o : List Octet) : Ip :=
  let ihl := beAt o 0 1 % 16
  let frag := beAt o 6 2
  let total := beAt o 2 2
  { v6 := false, src := mapped (beAt o 12 4), dst := mapped (beAt o 16 4), proto := beAt o 9 1,
    bad := decide (ihl ≠ 5) || decide (frag / 8192 % 2 = 1) || decide (frag % 8192 ≠ 0) || decide (onesSum (o.take 20) ≠ 65535),
    short := decide (o.length < total), body := (takeZeros o total).drop (4 * ihl) }

def parseIp6 (o : List Octet) : Ip :=
  let next := beAt o 6 1
  let n := beAt o 4 2
  { v6 := true, src := beAt o 8 16, dst := beAt o 24 16, proto := next,
    bad := decide (next ≠ 17) && decide (next ≠ 58), short := decide (o.length < 40 + n), body := takeZeros (o.drop 40) n }

/-- The IP packet of a frame. -/
def Eth.ip (e : Eth) : Option Ip :=
  if e.etype = 0x0800 then some (parseIp4 e.body) else if e.etype = 0x86DD then some (parseIp6 e.body) else none

/-- What the checksum of UDP and ICMPv6 covers before the payload. -/
def pseudoHeader (v6 : Bool) (src dst proto len : Nat) : List Octet :=
  if v6 then octetsBE 16 src ++ octetsBE 16 dst ++ octetsBE 4 len ++ octetsBE 4 proto
  else octetsBE 4 src ++ octetsBE 4 dst ++ octetsBE 2 proto ++ octetsBE 2 len

def Ip.udpDst (i : Ip) : Nat := beAt i.body 2 2

/-- Row 7 of R326; last: the last bit has passed, so that the checksum is known. -/
def Ip.badUdp (i : Ip) (last : Bool) : Bool :=
  let n := beAt i.body 4 2
  let c := beAt i.body 6 2
  decide (n < 8) || decide (i.body.length < n) ||
    (if c = 0 then i.v6 else last && decide (onesSum (pseudoHeader i.v6 i.src i.dst 17 n ++ i.body.take n) ≠ 65535))

/-- Octets of a UDP datagram's payload. -/
def Ip.udpBody (i : Ip) : List Octet := (i.body.take (beAt i.body 4 2)).drop 8

def buildUdp (v6 : Bool) (src dst sport dport : Nat) (body : List Octet) : List Octet :=
  let n := 8 + body.length
  let head := octetsBE 2 sport ++ octetsBE 2 dport ++ octetsBE 2 n
  let c := checksum (pseudoHeader v6 src dst 17 n ++ head ++ [0, 0] ++ body)
  head ++ octetsBE 2 (if c = 0 then 65535 else c) ++ body

/-- An IPv4 or IPv6 header (R328); open_: the fields that the manual leaves open (type of service and identification, or
traffic class and flow label). -/
def buildIp (v6 : Bool) (src dst proto ttl open_ : Nat) (body : List Octet) : List Octet :=
  if v6 then
    octetsBE 4 (6 * 2 ^ 28 + open_ % 2 ^ 28) ++ octetsBE 2 body.length ++ octetsBE 1 proto ++ octetsBE 1 ttl ++ octetsBE 16 src ++
      octetsBE 16 dst ++ body
  else
    let a := octetsBE 1 0x45 ++ octetsBE 1 open_ ++ octetsBE 2 (20 + body.length) ++ octetsBE 2 (open_ / 256) ++ octetsBE 2 0x4000 ++
      octetsBE 1 ttl ++ octetsBE 1 proto
    let b := octetsBE 4 src ++ octetsBE 4 dst
    a ++ octetsBE 2 (checksum (a ++ [0, 0] ++ b)) ++ b ++ body

/-! ### Ports as the plan sets them (R326, R413) -/

def State.planPort (s : State) (n : Nat) : PlanPort :=
  match s.h.plan.eff.bind fun pl => pl.ports.find? fun e => decide (e.1 = n) with
  | some e => e.2
  | none => { mac := 0, untagged := false, vids := [], v4 := [], v6 := [], steer := [], templates := [] }

/-- MAC address of a port; a mirror port has the package's own (R419). -/
def State.portMac (s : State) (n : Nat) : Nat :=
  if n < 32 then (s.planPort n).mac
  else match s.h.plan.eff.bind fun pl => pl.mirror[s.h.mirror.id.val]? with
    | some m => m.mac
    | none => 0

/-- Addresses of a port, those adopted after a fence among them (R389), in the 128-bit form. -/
def State.portIps (s : State) (n : Nat) : List Nat :=
  let q := s.planPort n
  let z := s.port n
  (q.v4 ++ z.adopted4).map mapped ++ q.v6 ++ z.adopted6

/-- The port's address towards a peer. -/
def State.selfIp (s : State) (n : Nat) (p : Peer) : Nat :=
  if p.self ≠ 0 then p.self
  else if p.v6 then ((s.planPort n).v6 ++ (s.port n).adopted6).headD 0
  else mapped (((s.planPort n).v4 ++ (s.port n).adopted4).headD 0)

/-- A ledger port of a follower or a stale package sends nothing (R370, R376). -/
def State.mute (s : State) (n : Nat) : Bool := decide (2 ≤ s.h.mirror.role.toNat) && decide (n < 32)

/-- A frame waits to leave with a priority of R329; departure frames name their partition. -/
def State.queueOut (s : State) (n prio part : Nat) (o : List Octet) : State :=
  if s.mute n then s else s.updPort n fun z => { z with out := z.out ++ [(16 * prio + part, o)] }

/-- The frame of a UDP datagram from a port to a peer. -/
def State.udpFrame (s : State) (n : Nat) (p : Peer) (sport : Nat) (body : List Octet) : State × List Octet :=
  let (s1, w) := s.fresh
  let src := s.selfIp n p
  let cut (a : Nat) : Nat := if p.v6 then a else a % 2 ^ 32
  let udp := buildUdp p.v6 (cut src) (cut p.ip) sport p.udp body
  let ip := buildIp p.v6 (cut src) (cut p.ip) 17 (s.paramN 59 n 64) w udp
  (s1, buildEth p.mac (s.portMac n) p.outer p.inner (if p.v6 then 0x86DD else 0x0800) ip)

def State.sendUdp (s : State) (n prio part : Nat) (p : Peer) (sport : Nat) (body : List Octet) : State :=
  let x := s.udpFrame n p sport body
  x.1.queueOut n prio part x.2

/-! ### LPT messages (R332, R333) -/

/-- The message of a datagram's payload; none: counted in LPT_BADHDR. -/
def parseLpt (o : List Octet) (p : Peer) : Option Lpt :=
  let type := beAt o 1 1
  if o.length < 32 ∨ beAt o 0 1 ≠ 1 ∨ beAt o 26 2 + 32 ≠ o.length ∨ ¬ (type = 1 ∨ type = 3 ∨ type = 6 ∨ type = 8) then none
  else some
    { type := type, flags := BitVec.ofNat 16 (beAt o 2 2), sid := BitVec.ofNat 32 (beAt o 4 4),
      seq := BitVec.ofNat 32 (beAt o 8 4), ack := BitVec.ofNat 32 (beAt o 12 4), sack := BitVec.ofNat 32 (beAt o 16 4),
      deadline := beAt o 20 4, steer := BitVec.ofNat 16 (beAt o 24 2), tag := BitVec.ofNat 32 (beAt o 28 4), body := o.drop 32,
      octets := o, peer := p }

/-- A message of the port; open_: the fields that the manual leaves open (DEADLINE and STEER). -/
def buildLpt (type flags : Nat) (sid seq ack sack tag : BitVec 32) (open_ : Nat) (body : List Octet) : List Octet :=
  octetsBE 1 1 ++ octetsBE 1 type ++ octetsBE 2 flags ++ octetsBE 4 sid.toNat ++ octetsBE 4 seq.toNat ++ octetsBE 4 ack.toNat ++
    octetsBE 4 sack.toNat ++ octetsBE 4 open_ ++ octetsBE 2 (open_ / 16) ++ octetsBE 2 body.length ++ octetsBE 4 tag.toNat ++ body

/-! ### Mirror frames (R365 to R373) -/

def part? (n : Nat) : Option PartId := if h : n < 16 then some ⟨n, h⟩ else none

/-- MARKS of an entry as mark bits (R367). -/
def marksOf (l : List Octet) (n : Nat) : List Bool := (List.range n).map fun k => (l.getD (k / 8) 0).getLsbD (7 - k % 8)

/-- PEER of an entry. -/
def parsePeer (o : List Octet) : Peer :=
  let ip := beAt o 16 16
  { self := 0, mac := beAt o 0 6, v6 := decide (ip / 2 ^ 32 ≠ 0xFFFF), ip := ip, udp := beAt o 6 2, outer := beAt o 8 4,
    inner := beAt o 12 4 }

/-- Entries of a segment, n of them. -/
def parseEntries : Nat → List Octet → Option (List LogEntry × List Octet)
  | 0, o => some ([], o)
  | n + 1, o =>
    let kind := beAt o 9 1
    let len := beAt o 10 2
    let marks := if kind = 1 then ceilDiv len 8 else 0
    let head := entryHead kind
    let size := ceilDiv (head + len + marks) 4 * 4
    if o.length < size then none
    else
      let e : LogEntry :=
        { pos := Position.ofBits (BitVec.ofNat 72 (beAt o 0 9)), kind := kind, data := (o.drop head).take len,
          marks := if kind = 1 then marksOf ((o.drop (head + len)).take marks) len else [],
          target := Position.ofBits (BitVec.ofNat 72 (beAt o 12 9)),
          peer := if kind = 1 then parsePeer ((o.drop 24).take 36) else .none }
      match parseEntries n (o.drop size) with
      | some (l, r) => some (e :: l, r)
      | none => none

/-- n values of 9 octets. -/
def nines (o : List Octet) (n : Nat) : List Nat := (List.range n).map fun i => beAt o (9 * i) 9

/-- The payload of a mirror frame (R366). -/
def parseMirror (type : Nat) (o : List Octet) : Option MPayload :=
  match type with
  | 1 =>
    match part? (beAt o 0 1), parseEntries (beAt o 13 2) (o.drop 16) with
    | some p, some (l, r) =>
      some (.log p ((o.getD 1 0).getLsbD 0) ((o.getD 1 0).getLsbD 1) (beAt o 2 2) (beAt o 4 9) l (beAt r 0 4)
        (BitVec.ofNat 64 (beAt r 4 8)) (BitVec.ofNat 64 (beAt r 12 8)))
    | _, _ => none
  | 2 => (part? (beAt o 0 1)).map fun p =>
    .ack p (beAt o 4 9) (beAt o 16 9) ((List.range (beAt o 2 2)).map fun i => (beAt o (28 + 12 * i) 9, beAt o (37 + 12 * i) 2))
  | 3 => some (.fetch (beAt o 0 1) (beAt o 1 1) (beAt o 2 4) (beAt o 6 9) (BitVec.ofNat 32 (beAt o 15 4)))
  | 4 => some (.line (beAt o 0 1) (beAt o 1 1) (beAt o 2 4) (beAt o 6 9) (BitVec.ofNat 32 (beAt o 15 4)) (beAt o 19 1)
      (o.getD 20 0) ((o.drop 21).take 72))
  | 5 => some (.heart (beAt o 0 1) (beAt o 1 1) (beAt o 2 1) (beAt o 3 1) (beAt o 4 9) (beAt o 13 9) (beAt o 22 9)
      (nines (o.drop 32) 16))
  | 6 => some (.take (beAt o 0 1) (nines (o.drop 1) 16))
  | 7 => (part? (beAt o 0 1)).map .join
  | 8 => (part? (beAt o 0 1)).map fun p => .joined p (beAt o 1 9) (beAt o 10 1)
  | _ => none

/-- A mirror frame for this package: its group, its CRC and its type (R364 to R366). With no plan in effect the package has no
GROUP, and takes any. -/
def State.parseMFrame (s : State) (o : List Octet) : Option MFrame :=
  let len := beAt o 6 2
  let src := beAt o 4 1
  let dst := beAt o 5 1
  if beAt o 0 1 ≠ 1 ∨ (s.h.plan.eff.isSome ∧ (beAt o 2 2 : Int) ≠ s.param 16 0 0) ∨ o.length < 20 + len ∨
      beAt o (16 + len) 4 ≠ (crc32c (o.take (16 + len))).toNat ∨ ¬ (dst = s.h.mirror.id.val ∨ dst = 255) then none
  else if h : src < 4 then
    (parseMirror (beAt o 1 1) ((o.drop 16).take len)).map fun b =>
      { src := ⟨src, h⟩, term := beAt o 8 4, fseq := beAt o 12 4, body := b }
  else none

end Sys2Proof.Machine
end

