-- ==== Sys2Proof/Machine/Lpt.lean ====
section
/-! DEFINITION. The Lerid Posting Transport (R332 to R344), the admission of landed frames (R108 to R110, R348, R351), stand-ins
(R133) and departures (R355). -/

namespace Sys2Proof.Machine

/-! ### Sessions (R334 to R337) -/

def State.session (s : State) (n i : Nat) : Session := Sparse.get Session.reset (s.port n).sessions i
def State.setSession (s : State) (n i : Nat) (x : Session) : State :=
  s.updPort n fun z => { z with sessions := Sparse.set Session.reset z.sessions i x }
def State.updSession (s : State) (n i : Nat) (f : Session → Session) : State := s.setSession n i (f (s.session n i))

/-- The same addresses and UDP port (R335). -/
def Peer.matches (a b : Peer) : Bool :=
  decide (a.mac = b.mac) && decide (a.v6 = b.v6) && decide (a.ip = b.ip) && decide (a.udp = b.udp)

/-- A SID (R335). -/
def sidOf (gen : BitVec 18) (i : Nat) : BitVec 32 := (gen ++ BitVec.ofNat 14 i : BitVec 32)
def sidIndex (sid : BitVec 32) : Nat := sid.toNat % 16384
def sidGen (sid : BitVec 32) : BitVec 18 := BitVec.ofNat 18 (sid.toNat / 16384)

/-- The peer uses an address that the port has adopted from a fenced partner (R389). -/
def State.adopted (s : State) (n : Nat) (p : Peer) : Bool :=
  decide (p.self ∈ (s.port n).adopted4.map mapped ++ (s.port n).adopted6)

/-- First key of the entries that serve a peer: those of the port's own table lie below 16,384, those taken over from the
shadow table of a fenced partner above. -/
def State.tableBase (s : State) (n : Nat) (p : Peer) : Nat := if s.adopted n p then 16384 else 0
def State.sidKey (s : State) (n : Nat) (sid : BitVec 32) (p : Peer) : Nat := s.tableBase n p + sidIndex sid

/-- The open entry that a SID of a peer names. -/
def State.sidSession (s : State) (n : Nat) (sid : BitVec 32) (p : Peer) : Option Session :=
  let x := s.session n (s.sidKey n sid p)
  if x.isOpen && decide (x.gen = sidGen sid) then some x else none

/-- The session of a message (R335). -/
def State.msgSession (s : State) (n : Nat) (m : Lpt) : Option Session :=
  (s.sidSession n m.sid m.peer).filter fun x => x.peer.matches m.peer
def State.msgKey (s : State) (n : Nat) (m : Lpt) : Nat := s.sidKey n m.sid m.peer

/-- A freed entry: its generation advances, 0 skipped. -/
def Session.freed (x : Session) : Session :=
  { Session.reset with gen := if x.gen + 1 = 0 then 1 else x.gen + 1 }

def Session.num (x : Session) (seq : BitVec 32) : NumSt := Sparse.get .none x.win seq.toNat
def Session.setNum (x : Session) (seq : BitVec 32) (v : NumSt) : Session := { x with win := Sparse.set .none x.win seq.toNat v }

/-- E moved past the run of HELD numbers that begins at it. -/
def Session.advance (x : Session) : Nat → Session
  | 0 => x
  | n + 1 => if x.num x.base = .held then ({ (x.setNum x.base .none) with base := x.base + 1 }).advance n else x

def Session.hold (x : Session) (seq : BitVec 32) : Session := (x.setNum seq .held).advance 257

/-- SACK: bit 31 for E + 1 (R339). -/
def Session.sack (x : Session) : BitVec 32 :=
  (List.range 32).foldl (fun a k =>
    if x.num (x.base + 1 + BitVec.ofNat 32 k) = .held then a ||| (1#32 <<< (31 - k)) else a) 0

/-! ### Messages of the port (R333, R342) -/

/-- The frame of a message: of an open session with its current ACK and SACK, to the addresses and tags of its OPEN (R328); the ACK
and SACK of a session that is gone are left open. -/
def State.lptFrame (s : State) (n type : Nat) (retx : Bool) (sid seq tag : BitVec 32) (p : Peer) (body : List Octet) :
    State × List Octet :=
  let (s1, w) := s.fresh
  let (s2, v) := s1.fresh
  let flags := 2 + 4 * bit retx
  match (s.sidSession n sid p).filter fun x => x.peer.matches p with
  | some x =>
    (s2.updSession n (s.sidKey n sid p) fun x => { x with ackDue := false }).udpFrame n x.peer (s.paramN 48 n 37412)
      (buildLpt type flags sid seq x.base x.sack tag w body)
  | none =>
    s2.udpFrame n p (s.paramN 48 n 37412)
      (buildLpt type flags sid seq (BitVec.ofNat 32 v) (BitVec.ofNat 32 (v / 16)) tag w body)

/-- Sends a message. -/
def State.sendLpt (s : State) (n prio part type : Nat) (retx : Bool) (sid seq tag : BitVec 32) (p : Peer) (body : List Octet) :
    State :=
  let x := s.lptFrame n type retx sid seq tag p body
  x.1.queueOut n prio part x.2

/-- REFUSED: counted always, sent at most once in each tick to an open session, or to an address without one (R342). -/
def State.sendRefused (s : State) (n : Nat) (m : Lpt) (reason : Nat) : State :=
  let t := (s.die (n / 4)).o.tick
  let known := decide (m.type ≠ 1) && (s.msgSession n m).isSome
  let key : Nat × Nat × Nat := if known then (1, s.msgKey n m, 0) else (0, m.peer.ip, m.peer.udp)
  let s1 := s.updPort n fun z => { z with
    cnt := { z.cnt with refused := z.cnt.refused + 1 },
    refusedTick := t, refusedTo := if z.refusedTick = t then z.refusedTo else [] }
  if key ∈ (s1.port n).refusedTo then s1
  else
    let s2 := s1.updPort n fun z => { z with refusedTo := key :: z.refusedTo }
    let (s3, w) := s2.fresh
    let sid := if known then m.sid else BitVec.ofNat 32 w
    s3.sendLpt n 4 0 7 false sid m.seq m.tag m.peer (octetsBE 2 reason ++ [0, 0])

/-- An ACK to a session. SEQ and TAG of an ACK that answers a message are the message's. -/
def State.sendAck (s : State) (n : Nat) (sid seq tag : BitVec 32) (p : Peer) : State := s.sendLpt n 4 0 6 false sid seq tag p []

/-! ### Taking messages -/

/-- The message at the head of the port's LPT input, of this type; without one nothing happens. -/
def State.takeLpt (s : State) (n type : Nat) (f : State → Lpt → State) : State :=
  match (s.port n).inbox with
  | m :: ms => if m.type = type then f (s.updPort n fun z => { z with inbox := ms }) m else s
  | [] => s

/-- Admission is open for frames (R66, R70, R71); it is closed from the first step towards Night on (R464). -/
def State.admits (s : State) : Bool :=
  s.h.sd.g.admitOpen && (match s.h.pwr.nightAt with
    | some e => !epochLe e s.h.sd.g.epoch
    | none => true) && decide (s.h.mirror.role.toNat < 2) &&
    (match s.h.mirror.replayTick with
      | some t => tickBefore t s.tick
      | none => true)

/-- Partition that entry i of the steering table names (R341). -/
def State.steered (s : State) (n i : Nat) : Option PartId :=
  let x := s.steer n i
  if BitVec'.at' x 0 then part? (x.toNat % 16) else none

/-- The admit die of a partition for a port; in a tandem-mode partition the landing die (R109, R410). -/
def State.admitDie (s : State) (n p : Nat) : Option Nat :=
  let d := (s.planPart p).admitDie.getD n 0xFF
  if 8 ≤ d then none else if (s.tandemOf p).isSome then some (n / 4) else some d

/-- The partition of a request, with an admit die for the port. -/
def State.selectPart (s : State) (n : Nat) (key : BitVec 16) (x : Option Session) : Option PartId :=
  let p := match s.paramN 56 n 0 with
    | 0 => part? (s.paramN 57 n 0)
    | 1 => s.steered n (key.toNat % 256)
    | _ => match x with
      | some y => y.part
      | none => s.steered n (key.toNat % 256)
  p.filter fun p => (s.admitDie n p).isSome

/-! ### OPEN, CLOSE (R336) -/

def State.sendOpened (s : State) (n i : Nat) (m : Lpt) (x : Session) : State :=
  s.sendLpt n 4 0 2 false (sidOf x.gen i) m.seq m.sid m.peer []

def execOpen (n : PortId) (s : State) : Host.Outcome State Fault Refusal :=
  .next <| s.takeLpt n 1 fun s m =>
    let same := (s.port n).sessions.find? fun e => e.2.isOpen && decide (e.1 / 16384 = s.tableBase n m.peer / 16384) && e.2.peer.matches m.peer && decide (e.2.nonce = m.sid)
    match same with
    | some e => (s.updSession n e.1 fun x => { x with lastTick := s.tick }).sendOpened n e.1 m e.2
    | none =>
      let session := decide (s.paramN 56 n 0 = 2)
      let p := s.selectPart n m.steer none
      if !s.admits then s.sendRefused n m 3
      else if session && p.isNone then s.sendRefused n m 4
      else match (List.range (s.paramN 49 n 16384)).find? fun i => !(s.session n (s.tableBase n m.peer + i)).isOpen with
        | none => s.sendRefused n m 7
        | some j =>
          let i := s.tableBase n m.peer + j
          let x : Session :=
            { (s.session n i) with
              isOpen := true, peer := m.peer, nonce := m.sid, part := if session then p else none, base := m.seq, win := [],
              lastTick := s.tick, ackDue := false }
          (s.setSession n i x).sendOpened n i m x

def execLptSessionIdle (n : PortId) (i : Nat) (s : State) : Host.Outcome State Fault Refusal :=
  .next (if (s.session n i).isOpen then s.setSession n i (s.session n i).freed else s)

/-! ### The response cache (R339, R343) -/

/-- A response leaves the cache: its packet is RETIRED. -/
def State.uncache (s : State) (n : Nat) (e : Cached) : State :=
  let s1 := s.retirePacket (n / 4) e.part (4 + n % 4) e.ptr
  s1.updPort n fun z => { z with cached := z.cached.erase e }

/-- A client's ACK and SACK release the responses that they cover; an ACK beyond E is read as E. -/
def State.clientAck (s : State) (n : Nat) (m : Lpt) (x : Session) : State :=
  let ack := if (m.ack - x.base).toNat < 2 ^ 31 then x.base else m.ack
  let covers (q : BitVec 32) : Bool :=
    let k := (q - ack).toNat
    decide (2 ^ 31 ≤ k) || (m.flags.getLsbD 1 && decide (1 ≤ k) && decide (k ≤ 32) && m.sack.getLsbD (32 - k))
  ((s.port n).cached.filter fun e => e.departed && decide (e.sid = m.sid) && covers e.seq).foldl (fun y e => y.uncache n e) s

def execAck (n : PortId) (s : State) : Host.Outcome State Fault Refusal :=
  .next <| s.takeLpt n 6 fun s m =>
    match s.msgSession n m with
    | none =>
      (s.updPort n fun z => { z with cnt := { z.cnt with noSession := z.cnt.noSession + 1 } }).sendRefused n m 6
    | some x => (s.updSession n (s.msgKey n m) fun x => { x with lastTick := s.tick }).clientAck n m x

/-- A client's CLOSE, whose ACK and SACK count as those of any message. -/
def execClose (n : PortId) (s : State) : Host.Outcome State Fault Refusal :=
  .next <| s.takeLpt n 8 fun s m =>
    match s.msgSession n m with
    | none => s.sendLpt n 4 0 9 false m.sid m.seq m.tag m.peer []
    | some x =>
      ((s.clientAck n m x).sendLpt n 4 0 9 false m.sid m.seq m.tag m.peer []).setSession n (s.msgKey n m) x.freed

/-- A CACHED response waits to be sent again, by its timer or at a retransmitted REQUEST. -/
def State.resend (s : State) (n : Nat) (e : Cached) (timed : Bool) : State :=
  s.updPort n fun z => { z with
    cnt := { z.cnt with resent := z.cnt.resent + 1 },
    cached := z.cached.map fun x => if x = e then { x with sends := x.sends + bit timed, due := x.due + 1 } else x }

def State.cachedFor (s : State) (n : Nat) (sid seq : BitVec 32) : Option Cached :=
  (s.port n).cached.find? fun e => e.departed && decide (e.sid = sid) && decide (e.seq = seq)

/-- The backoff interval has passed: at most LPT_RESEND_MAX resends. -/
def execLptResend (n : PortId) (sid seq : BitVec 32) (s : State) : Host.Outcome State Fault Refusal :=
  .next <| match s.cachedFor n sid seq with
  | none => s
  | some e => if s.paramN 53 n 0 = 0 ∨ s.paramN 54 n 2 ≤ e.sends ∨ 0 < e.due ∨ s.mute n then s else s.resend n e true

def execLptHoldExpiry (n : PortId) (sid seq : BitVec 32) (s : State) : Host.Outcome State Fault Refusal :=
  .next <| match s.cachedFor n sid seq with
  | none => s
  | some e => s.uncache n e

def execLptAckDelay (n : PortId) (i : Nat) (s : State) : Host.Outcome State Fault Refusal :=
  .next <|
    let x := s.session n i
    if !x.isOpen || !x.ackDue || decide (s.paramN 52 n 20 = 0) then s
    else
      let (s1, a) := s.fresh
      s1.sendAck n (sidOf x.gen i) (BitVec.ofNat 32 a) (BitVec.ofNat 32 (a / 16)) x.peer

/-! ### Admission (R108 to R110) -/

/-- Landing template t of port n (R345). -/
def State.template (s : State) (n t : Nat) : List TRule := (s.planPort n).templates.getD t []

/-- The characters in which octets land in a queue: one octet a character under the queue's template, or dense (R40, R41). -/
def State.landed (s : State) (n : Nat) (q : Queue) (o : List Octet) : List Chr :=
  if q.dense then (denseWords o.length o).flatMap Word.chars
  else landChars (if q.tmpl = 15 then [] else s.template n q.tmpl) o

/-- Places the landed frame of a transaction in the admit queue of die d with a TYPE, at the place reserved from its header or else
at WPTR: the packet's pointer. -/
def State.landPacket (s : State) (d : Nat) (v : Slot) (type : Nat) : Option (State × Nat) :=
  if !(s.queue d v.part 0).en then none
  else
    let x := lengthWord type 0 v.octets.length
    match v.place with
    | some ptr => some (s.fillPacket d v.part 0 ptr x (wordsOfChars v.chars), ptr)
    | none => s.putPacket d v.part 0 x (wordsOfChars v.chars)

/-- A packet that no slot holds: DISCARDED, and the head moved on (R354). -/
def State.discardPacket (s : State) (d p q ptr : Nat) : State := (s.retype d p q ptr 2).skipHead d p q

/-- Free slot of a die. -/
def State.freeSlotOf (s : State) (d : Nat) : Option Nat := (List.range 512).find? fun n => decide ((s.slot d n).st = .free)

/-- The conditions of R110: the reason of R342, or none. -/
def State.admitRefusal (s : State) (d p len : Nat) : Option Nat :=
  if 2048 < len then some 2
  else if (s.freeSlotOf d).isNone ∨ s.paramN 80 p 512 ≤ (s.slotsOf d p).length then some 1
  else none

/-- A landed transaction takes a slot of die d. -/
def State.takeFreeSlot (s : State) (d : Nat) (v : Slot) (ptr : Nat) : State × Nat :=
  let n := (s.freeSlotOf d).getD 0
  (s.setSlot d n { v with st := .queued, place := some ptr }, n)

/-- The body of a request, from which the echo ranges of a stand-in are taken (R344, R456). -/
def Slot.body (v : Slot) : List Octet := if v.org.host then v.octets else v.octets.drop 32

/-- Marks of the landed characters; a dense queue has none. -/
def Slot.marks (v : Slot) : List Bool := if v.dense then List.replicate v.octets.length false else v.chars.map Chr.mark

/-- The gate, the counters and the input log take up an admitted transaction (R132, R136, R140). -/
def State.enterGate (s : State) (d : DieId) (n : Nat) (v : Slot) : State :=
  let e := s.slotEpoch v
  let t : GateTxn :=
    { pos := v.pos, epoch := e, curfew := v.curfew, die := d, slot := n, org := v.org, octets := v.body, outcome := none }
  let l : LogEntry :=
    { pos := v.pos, kind := if v.org.host then 4 else 1, data := v.octets, marks := if v.org.host then [] else v.marks,
      target := ⟨0, 0, 0⟩, peer := if v.org.host then .none else v.org.peer }
  s.updPartn v.part fun q => { q with
    txns := q.txns ++ [t],
    cnt := { q.cnt with admitted := q.cnt.admitted + 1 },
    logs := Sparse.set [] q.logs e (Sparse.get [] q.logs e ++ [l]) }

/-- The message of a port frame, as its slot recorded it. -/
def Slot.lpt (v : Slot) : Lpt :=
  (parseLpt v.octets v.org.peer).getD
    { type := 3, flags := 0, sid := v.org.sid, seq := v.org.seq, ack := 0, sack := 0, deadline := 0, steer := 0, tag := v.org.tag,
      body := [], octets := v.octets, peer := v.org.peer }

/-- The number of a request of a session changes state. -/
def State.setNumber (s : State) (v : Slot) (f : Session → Session) : State :=
  match s.sidSession v.org.port v.org.sid v.org.peer with
  | some _ => s.updSession v.org.port (s.sidKey v.org.port v.org.sid v.org.peer) f
  | none => s

/-- The answer to an injection that is refused (R455). -/
def State.hostRefused (s : State) (v : Slot) (outcome : Nat) (pos : Position) : State :=
  let r : HostResp :=
    { q := v.org.port + 2, outcome := outcome, tag := v.org.tag.truncate 16, pos := pos, epoch := none, body := [] }
  s.updHost fun x => { x with resp := Sparse.set [] x.resp v.part (Sparse.get [] x.resp v.part ++ [r]) }

/-- A stamped transaction is refused (R110): counted, and answered with the reason of R342. -/
def State.refuseStamped (s : State) (v : Slot) (reason : Nat) (counted : Bool) : State :=
  let s1 := if counted then
      s.updPartn v.part fun q => { q with cnt := { q.cnt with refused := q.cnt.refused + 1 } }
    else s
  if v.org.host then s1.hostRefused v (reason + 4) v.pos
  else (s1.setNumber v fun x => x.setNum v.org.seq .none).sendRefused v.org.port v.lpt reason

/-- The transaction arrives at its admit die: its packet, R110, a slot. Its request number becomes HELD. An injection into a queue of
die d lands under the templates of the die's first port, the plan giving templates to ports only: DESIGN CHOICE, log entry 51. -/
def State.arrive (s : State) (d : DieId) (v : Slot) : State :=
  let q := s.queue d v.part 0
  let v := { v with chars := s.landed (if v.org.host then 4 * d.val else v.org.port) q v.octets, dense := q.dense }
  match s.landPacket d v 1 with
  | none => (s.dropPacket d v.part 0).refuseStamped v 1 false
  | some (s1, ptr) =>
    match s1.admitRefusal d v.part v.octets.length with
    | some reason => (s1.discardPacket d v.part 0 ptr).refuseStamped v reason true
    | none =>
      let (s2, n) := s1.takeFreeSlot d v ptr
      let s3 := s2.enterGate d n v
      if v.org.host then s3
      else s3.setNumber v fun x => { (x.hold v.org.seq) with ackDue := true }

/-- The tandem partner queues the copy in a slot of its own, or refuses it as the landing die did (R109, R110). A copy that the
landing die admitted and for which the partner has no room or no free slot is dropped: DESIGN CHOICE, log entry 50. -/
def State.arrivePartner (s : State) (d : DieId) (v : Slot) (admitted : Bool) : State :=
  let q := s.queue d v.part 0
  let v := { v with chars := s.landed (if v.org.host then 4 * d.val else v.org.port) q v.octets, dense := q.dense }
  match s.landPacket d v 1 with
  | none => s.dropPacket d v.part 0
  | some (s1, ptr) =>
    if !admitted || (s1.freeSlotOf d).isNone then s1.discardPacket d v.part 0 ptr else (s1.takeFreeSlot d v ptr).1

/-- The landing die's decision goes with a copy to the tandem partner (R357). -/
def State.copyToPartner (s : State) (d : Nat) (v : Slot) (admitted : Bool) : State :=
  let e := d / 2 * 2 + (1 - d % 2)
  if h : e < 8 then
    if (s.tandemOf v.part).isSome && s.alive e then
      s.post (.copy ⟨e, h⟩ { v with place := none } admitted (some (if v.org.host then [] else (s.port v.org.port).sessions)))
    else s
  else s

/-- Lands a stamped transaction on its admit die a, by Boardwalk where that is not the die d on which it was stamped. -/
def State.land (s : State) (d : Nat) (a : DieId) (v : Slot) : State :=
  if d = a.val then
    let held := (s.partn v.part).txns.length
    let s1 := s.arrive a v
    s1.copyToPartner a v (decide (held < (s1.partn v.part).txns.length))
  else s.post (.copy a v false none)

def execFrameCopyArrive (d : DieId) (s : State) : Host.Outcome State Fault Refusal :=
  .next <| s.receive (fun m => match m with | .copy dst _ _ _ => decide (dst = d) | _ => false) fun x m =>
    match m with
    | .copy _ v admitted sess =>
      if !x.alive d then x
      else match sess with
        | none => x.land d.val d v
        | some t =>
          let x1 := if v.org.host then x else x.updPort (4 * d.val + v.org.port % 4) fun z => { z with shadow := t }
          x1.arrivePartner d v admitted
    | _ => x

/-! ### REQUEST (R338) -/

/-- The Curfew tick (R132, R340). -/
def State.curfewTick (s : State) (p : Nat) (t : BitVec 48) (m : Option Lpt) : BitVec 48 :=
  let n := s.paramN 83 p 10000
  let hint := match m with
    | some m => if m.flags.getLsbD 0 && decide (m.deadline ≠ 0) then
        min n (ceilDiv (min m.deadline 16777215 * 1000) s.h.sd.g.tickNs) else n
    | none => n
  t + BitVec.ofNat 48 (max hint (s.paramN 84 p 100))

/-- The port stamps a frame (R77). -/
def State.stampPort (s : State) (n : Nat) : State × Position :=
  let t := (s.die (n / 4)).o.tick
  let z := s.port n
  let seq := if z.seqTick = t then z.seq else 0
  (s.updPort n fun z => { z with seq := seq + 1, seqTick := t },
    { tick := t, port := BitVec.ofNat 6 n, seq := BitVec.ofNat 18 seq })

/-- What the port decides from the header of a REQUEST (R338, R341, R342). -/
inductive ReqRow where
  | noSession
  | discard
  | resend (e : Cached)
  | ack
  | refuse (reason : Nat)
  /-- the admit queue lacks room -/
  | noRoom (p : PartId) (a : DieId)
  | land (p : PartId) (a : DieId)
  deriving DecidableEq, Repr

def State.reqRow (s : State) (n : Nat) (m : Lpt) : ReqRow :=
  match s.msgSession n m with
  | none => .noSession
  | some x =>
    let k := (m.seq - x.base).toNat
    let answered : ReqRow := match s.cachedFor n m.sid m.seq with
      | some e => .resend e
      | none => .ack
    if k < s.paramN 50 n 64 then
      match x.num m.seq with
      | .inflight => .discard
      | .held => answered
      | .none =>
        if !s.admits then .refuse 3
        else match s.selectPart n m.steer (some x) with
          | none => .refuse 4
          | some p =>
            match s.admitDie n p with
            | none => .refuse 4
            | some a =>
              if h : a < 8 then
                if (s.partn p).st = .stopped ∨ ¬ s.alive a then .refuse 3
                else
                  let q := s.queue a p 0
                  if !q.en || decide (q.spare < 1 + q.payload m.octets.length) then .noRoom p ⟨a, h⟩ else .land p ⟨a, h⟩
              else .refuse 4
    else if 2 ^ 31 ≤ k then answered
    else .refuse 5

/-- The transaction of a request, before it has a slot. -/
def State.requestSlot (s : State) (n : Nat) (m : Lpt) (p : PartId) (pos : Position) : Slot :=
  { Slot.reset with
    part := p, pos := pos, curfew := s.curfewTick p pos.tick (some m),
    org := { host := false, port := n, sid := m.sid, seq := m.seq, tag := m.tag, peer := m.peer }, octets := m.octets }

/-- Reserves the packet of n octets in an admit queue from a frame's header, on whatever die the queue lies (R351). -/
def State.reserveFrame (s : State) (a p n : Nat) : Option (State × Nat) :=
  let q := s.queue a p 0
  if q.en then s.reservePacket a p 0 (q.payload n) else none

def execRequest (n : PortId) (s : State) : Host.Outcome State Fault Refusal :=
  .next <| s.takeLpt n 3 fun s m =>
    let row := s.reqRow n m
    let s1 := match s.msgSession n m with
      | some x => (s.updSession n (s.msgKey n m) fun x => { x with lastTick := s.tick }).clientAck n m x
      | none => s
    match row with
    | .noSession =>
      (s1.updPort n fun z => { z with cnt := { z.cnt with noSession := z.cnt.noSession + 1 } }).sendRefused n m 6
    | .discard => s1
    | .resend e => s1.resend n e false
    | .ack => s1.sendAck n m.sid m.seq m.tag m.peer
    | .refuse r => s1.sendRefused n m r
    | .noRoom p a => (s1.dropPacket a p 0).sendRefused n m 1
    | .land p a => match s1.reserveFrame a p m.octets.length with
      | none => (s1.dropPacket a p 0).sendRefused n m 1
      | some (s2, ptr) =>
        let (s3, pos) := (s2.updSession n (s.msgKey n m) fun x => x.setNum m.seq .inflight).stampPort n
        let peer := match s.msgSession n m with
          | some x => x.peer
          | none => m.peer
        s3.land (n / 4) a { (s3.requestSlot n { m with peer := peer } p pos) with place := some ptr }

/-! ### Stand-ins (R133) -/

/-- Replaces l from offset a by r. -/
def overlay (l : List Octet) (a : Nat) (r : List Octet) : List Octet := l.take a ++ r ++ l.drop (a + r.length)

/-- The stand-in of partition p for a request's body; a short request gives zero octets (R415). -/
def State.standinBody (s : State) (p : Nat) (body : List Octet) : List Octet :=
  match s.h.plan.eff.bind fun pl => pl.standins.find? fun e => decide (e.1 = p) with
  | none => []
  | some e => e.2.echo.foldl (fun l x =>
      let got := (body.drop x.1).take x.2.1
      overlay l x.2.2 (got ++ List.replicate (x.2.1 - got.length) 0)) e.2.body

/-- The port that answers for ledger port n: itself, or the partner that has adopted a fenced die's port (R389). -/
def State.servingPort (s : State) (p n : Nat) : Option Nat :=
  if s.alive (n / 4) then some n
  else
    let m := (n / 4 / 2 * 2 + (1 - n / 4 % 2)) * 4 + n % 4
    if (s.tandemOf p).isSome && s.alive (m / 4) then some m else none

/-- Marks the response of a transaction as departed in every slot that holds it, and frees those that wait for it. -/
def State.markDeparted (s : State) (p : Nat) (pos : Position) : State :=
  iter 8 (fun d x => ((x.slotsOf d p).filter fun n => decide ((x.slot d n).pos = pos)).foldl
    (fun y n => (y.updSlot d n fun v => { v with departed := true }).tryFree d n) x) s

/-- The stand-in of the oldest Curfew abort of p departs. -/
def execStandinResponse (p : PartId) (s : State) : Host.Outcome State Fault Refusal :=
  .next <| match (s.partn p).standins with
  | [] => s
  | t :: ts =>
    let body := s.standinBody p t.octets
    let s1 := (s.updPartn p fun q => { q with standins := ts }).markDeparted p t.pos
    let count (x : State) : State := x.updPartn p fun q => { q with cnt := { q.cnt with standin := q.cnt.standin + 1 } }
    if t.org.host then
      let r : HostResp :=
        { q := t.org.port + 2, outcome := 3, tag := t.org.tag.truncate 16, pos := t.pos, epoch := none, body := body }
      count (s1.updHost fun x => { x with resp := Sparse.set [] x.resp p (Sparse.get [] x.resp p ++ [r]) })
    else match s1.servingPort p t.org.port with
      | none => s1
      | some n =>
        (count (s1.updPort n fun z => { z with cnt := { z.cnt with standins := z.cnt.standins + 1 } })).sendLpt n 1 0 5 false
          t.org.sid t.org.seq t.org.tag t.org.peer body

/-! ### Departure (R137, R355) -/

/-- Rewrites a packet as CACHED: TYPE, and the low 27 bits of the departure's tick in place of EPOCH (R350). -/
def State.cachePacket (s : State) (d p q ptr : Nat) (t : BitVec 48) : State :=
  let s1 := s.retype d p q ptr 4
  let r := s1.queue d p q
  s1.updDie d fun e => { e with
    qram := qSetWord e.qram (r.addr (r.move ptr 1)) (BitVec'.setPos (r.read e.qram (r.move ptr 1)) 9 27 (t.toNat % 2 ^ 27)) }

/-- Puts EPOCH back into a packet that was CACHED. -/
def State.setPacketEpoch (s : State) (d p q ptr e : Nat) : State :=
  let r := s.queue d p q
  s.updDie d fun z => { z with
    qram := qSetWord z.qram (r.addr (r.move ptr 1)) (BitVec'.setPos (r.read z.qram (r.move ptr 1)) 9 27 (e % 2 ^ 27)) }

/-- The slot of a response that has departed can be freed. -/
def State.respGone (s : State) (e : Cached) : State :=
  (s.updSlot e.die e.slot fun v => { v with departed := true }).tryFree e.die e.slot

/-- A response of the pass is to be sent; a tandem partner's is RETIRED, unless the port serves a fenced partner's requests. -/
def State.depart (s : State) (n : Nat) (e : Cached) : State :=
  let v := s.slot e.die e.slot
  if v.org.port / 4 = n / 4 ∨ ¬ s.alive (v.org.port / 4) then
    s.updPort n fun z => { z with cached := z.cached.map fun x => if x = e then { x with due := 1 } else x }
  else (s.uncache n e).respGone e

/-- The visible epoch of die d has reached the EPOCH of the packet at pointer v, by its 27 bits. -/
def State.epochReached (s : State) (d p q v : Nat) : Bool :=
  let r := s.queue d p q
  let e := (BitVec'.pos (r.read (s.die d).qram (r.move v 1)) 9 27).toNat
  decide ((s.visibleAt d p % 2 ^ 27 + 2 ^ 27 - e) % 2 ^ 27 < 2 ^ 26)

/-- The responses of p at port n that a pass sends, in queue order: PACKETs whose epoch is visible. -/
def State.departing (s : State) (n p : Nat) : List Cached :=
  (s.port n).cached.filter fun e =>
    decide (e.part.val = p) && !e.departed && decide (e.due = 0) && s.epochReached (n / 4) p (4 + n % 4) e.ptr

/-- The port sends, in queue order, every response whose epoch its die's visible epoch has reached. -/
def execDeparturePass (n : PortId) (p : PartId) (s : State) : Host.Outcome State Fault Refusal :=
  .next <|
    if 32 ≤ n.val ∨ ¬ s.alive (n.val / 4) ∨ s.mute n then s
    else (s.departing n p).foldl (fun x e => x.depart n e) s

/-- A response leaves the port: at its departure its packet becomes CACHED and its slot can be freed; a resend has RETX set. No
frame where its packet can no longer be read. -/
def State.sendResponse (s : State) (n : Nat) (e : Cached) : State × Option (List Octet) :=
  let (s0, lost) := s.packetRead (n / 4) e.part (4 + n % 4) e.ptr
  if lost then
    let s1 := s0.updPort n fun z => { z with cached := z.cached.erase e }
    (if e.departed then s1 else s1.respGone e, none)
  else
    let body := s.packetOctets (n / 4) e.part (4 + n % 4) e.ptr 4
    let t := (s.die (n / 4)).o.tick
    let sent (x : Cached) : Cached := if x = e then { x with departed := true, due := x.due - 1, tick := t } else x
    let s1 := s0.updPort n fun z => { z with cached := z.cached.map sent }
    let s2 := if e.departed then s1 else (s1.cachePacket (n / 4) e.part (4 + n % 4) e.ptr t).respGone e
    let x := s2.lptFrame n 4 (e.departed || e.retx) e.sid e.seq e.tag e.peer body
    (x.1, some x.2)

end Sys2Proof.Machine
end

