-- ==== Sys2Proof/Machine/Ports.lean ====
section
/-! DEFINITION. What a port does with each frame (R323 to R329, R364), side frames (R327, R351), the order in which frames leave
(R329, R352), and the PTP client (R330, R331). -/

namespace Sys2Proof.Machine

/-! ### Classes of received frames (R326) -/

/-- The rows of R326. -/
inductive FrameKind where
  | ptp
  | rxPtp
  | arp
  | ipErr
  | filter
  | echo (i : Ip)
  | neighbour (i : Ip)
  | lpt (i : Ip)
  | side (cls : Nat)
  deriving DecidableEq, Repr

/-- Ledger port n is the port of a source of kind 1, mirror port n that of one of kind 2. -/
def State.isPtpSource (s : State) (n : Nat) : Bool :=
  [false, true].any fun second =>
    let k := s.sourceKind second
    (decide (k = 1) && decide (s.sourcePort second = n)) || (decide (k = 2) && decide (32 + s.sourcePort second = n))

/-- PTP multicast addresses of a mapping: the default profile's and the peer delay messages'. PRESUMED, log entry 24. -/
def ptpMulticast (map : Nat) : List Nat :=
  match map with
  | 0 => [0x011B19000000, 0x0180C200000E]
  | 1 => [0x01005E000181, 0x01005E00006B]
  | _ => [0x333300000181, 0x33330000006B]

def broadcastMac : Nat := 0xFFFFFFFFFFFF

/-- The destination address is one that the port takes. -/
def State.takesMac (s : State) (n dst : Nat) : Bool :=
  decide (dst = (s.planPort n).mac) || decide (dst = broadcastMac) ||
    (s.isPtpSource n && decide (dst ∈ ptpMulticast (s.paramN 63 n 1)))

/-- The VLAN rule of R325 and R413. -/
def PlanPort.takesVid (q : PlanPort) (vid : Nat) : Bool := if vid = 0 then q.untagged else decide (vid ∈ q.vids)

/-- An ARP request for an IPv4 address of the port. -/
def State.isArp (s : State) (n : Nat) (e : Eth) : Bool :=
  decide (e.etype = 0x0806) && decide (28 ≤ e.body.length) && decide (beAt e.body 0 8 = 0x0001080006040001) &&
    decide (mapped (beAt e.body 24 4) ∈ s.portIps n)

/-- An ICMP echo request. -/
def Ip.isEcho (i : Ip) : Bool :=
  decide (8 ≤ i.body.length) && decide (beAt i.body 1 1 = 0) &&
    ((!i.v6 && decide (i.proto = 1) && decide (beAt i.body 0 1 = 8)) ||
      (i.v6 && decide (i.proto = 58) && decide (beAt i.body 0 1 = 128)))

/-- A neighbour solicitation. -/
def Ip.isSolicit (i : Ip) : Bool :=
  i.v6 && decide (i.proto = 58) && decide (24 ≤ i.body.length) && decide (beAt i.body 0 2 = 135 * 256)

/-- The first row that matches; without last, as the header shows it before the frame's last bit. -/
def State.classify (s : State) (n : Nat) (e : Eth) (last : Bool) : FrameKind :=
  let mac := (s.planPort n).mac
  let ips := s.portIps n
  let udpPtp := match e.ip with
    | some i => decide (i.proto = 17) && (decide (i.udpDst = 319) || decide (i.udpDst = 320))
    | none => false
  if decide (e.etype = 0x88F7) || udpPtp then (if s.isPtpSource n then .ptp else .rxPtp)
  else if s.isArp n e then .arp
  else match e.ip with
    | none => .side (if e.dst = mac then 3 else 4)
    | some i =>
      if i.bad ∨ (last ∧ i.short) then .ipErr
      else if i.isEcho && decide (i.dst ∈ ips) then .echo i
      else if i.isSolicit && decide (beAt i.body 8 16 ∈ ips) then .neighbour i
      else if i.proto = 17 ∧ i.badUdp last then .ipErr
      else if i.dst ∈ ips then
        (if i.proto ≠ 17 then .side 2 else if i.udpDst = s.paramN 48 n 37412 then .lpt i else .side 1)
      else if e.dst = mac then .filter
      else .side 4

/-! ### Answers (R326, R328) -/

def State.replyEth (s : State) (n : Nat) (e : Eth) (body : List Octet) : State :=
  s.queueOut n 3 0 (buildEth e.src (s.planPort n).mac e.outer e.inner e.etype body)

def State.replyIp (s : State) (n : Nat) (e : Eth) (i : Ip) (src : Nat) (body : List Octet) : State :=
  let (s1, w) := s.fresh
  let cut (a : Nat) : Nat := if i.v6 then a else a % 2 ^ 32
  s1.replyEth n e (buildIp i.v6 (cut src) (cut i.src) i.proto (s.paramN 59 n 64) w body)

def State.answerArp (s : State) (n : Nat) (e : Eth) : State :=
  s.replyEth n e (octetsBE 8 0x0001080006040002 ++ octetsBE 6 (s.planPort n).mac ++ (e.body.drop 24).take 4 ++
    (e.body.drop 8).take 10)

/-- An ICMP message with its checksum. -/
def icmp (i : Ip) (src type : Nat) (rest : List Octet) : List Octet :=
  let head := octetsBE 2 (type * 256)
  let pseudo := if i.v6 then pseudoHeader true src i.src 58 (4 + rest.length) else []
  head ++ octetsBE 2 (checksum (pseudo ++ head ++ [0, 0] ++ rest)) ++ rest

/-- An echo answer, while fewer than ECHO_RATE have been sent in this second. The seconds are counted from reset: DESIGN CHOICE, log
entry 51. -/
def State.answerEcho (s : State) (n : Nat) (e : Eth) (i : Ip) : State :=
  let z := s.port n
  let sec := s.h.sd.ran / 1000000000
  let sent := if z.echoSec = sec then z.echoSent else 0
  if s.paramN 58 n 1000 ≤ sent then s
  else (s.updPort n fun z => { z with echoSec := sec, echoSent := sent + 1 }).replyIp n e i i.dst
    (icmp i i.dst (if i.v6 then 129 else 0) (i.body.drop 4))

/-- A neighbour advertisement: solicited and override flags, the target and its link-layer address. PRESUMED (RFC 4861), log
entry 24. -/
def State.answerNeighbour (s : State) (n : Nat) (e : Eth) (i : Ip) : State :=
  let target := beAt i.body 8 16
  s.replyIp n e i target
    (icmp i target 136 (octetsBE 4 0x60000000 ++ octetsBE 16 target ++ [2, 1] ++ octetsBE 6 (s.planPort n).mac))

/-! ### Side frames (R327, R351) -/

/-- Lands octets in a side receive queue with a TYPE: dropped without room. -/
def State.landSide (s : State) (d p n type cls : Nat) (o : List Octet) : State :=
  let chars := s.landed n (s.queue d p 1) o
  match s.putPacket d p 1 (lengthWord type cls o.length) (wordsOfChars chars) with
  | none => s.dropPacket d p 1
  | some (s1, _) => s1

/-- A side frame of a ledger port; type 2 for one that fails at its last bit, which has a packet only with an IP header. -/
def State.sideFrame (s : State) (n type cls : Nat) (o : List Octet) : State :=
  let p := s.paramN 60 n 16
  let d := n / 4
  if type = 2 ∧ 3 ≤ cls then s
  else if 16 ≤ p ∨ ¬ (s.queue d p 1).en then
    if type = 2 then s else s.updPort n fun z => { z with cnt := { z.cnt with rxSide := z.cnt.rxSide + 1 } }
  else s.landSide d p n type cls o

/-! ### FRAME_RECEIVE -/

def State.countPort (s : State) (n : Nat) (f : PortCnt → PortCnt) : State := s.updPort n fun z => { z with cnt := f z.cnt }

/-- The peer of a frame. -/
def framePeer (e : Eth) (i : Ip) : Peer :=
  { self := i.dst, mac := e.src, v6 := i.v6, ip := i.src, udp := beAt i.body 0 2, outer := e.outer, inner := e.inner }

/-- A frame that fails at its last bit leaves the packet that was reserved from its header DISCARDED (R338, R351). -/
def State.failedFrame (s : State) (n : Nat) (o : List Octet) (e : Eth) : State :=
  match s.classify n e false with
  | .side cls => s.sideFrame n 2 cls o
  | .lpt i => match parseLpt i.udpBody (framePeer e i) with
    | none => s
    | some m =>
      if m.type ≠ 3 then s
      else match s.reqRow n m with
        | .land p a =>
          let q := s.queue a p 0
          match s.putPacket a p 0 (lengthWord 2 0 m.octets.length) (wordsOfChars (s.landed n q m.octets)) with
          | some (s1, _) => s1.skipHead a p 0
          | none => s
        | _ => s
  | _ => s

/-- An accepted frame, by its row. A frame that only its last bit shows to be of row 4 or 7 has had its packet reserved: DEDUCED from
R351, log entry 51. -/
def State.portFrame (s : State) (n : Nat) (o : List Octet) (e : Eth) : State :=
  match s.classify n e true with
  | .ptp => s.updPort n fun z => { z with ptpIn := z.ptpIn ++ [o] }
  | .rxPtp => s.countPort n fun c => { c with rxPtp := c.rxPtp + 1 }
  | .arp => s.answerArp n e
  | .ipErr => (s.countPort n fun c => { c with rxIperr := c.rxIperr + 1 }).failedFrame n o e
  | .filter => s.countPort n fun c => { c with rxFilter := c.rxFilter + 1 }
  | .echo i => s.answerEcho n e i
  | .neighbour i => s.answerNeighbour n e i
  | .lpt i => match parseLpt i.udpBody (framePeer e i) with
    | none => s.countPort n fun c => { c with badHdr := c.badHdr + 1 }
    | some m => s.updPort n fun z => { z with inbox := z.inbox ++ [m] }
  | .side cls => s.sideFrame n 1 cls o

/-- A frame of a ledger port. -/
def State.ledgerFrame (s : State) (n : Nat) (o : List Octet) (ok : Bool) : State :=
  let size := decide (60 ≤ o.length) && decide (o.length ≤ 9212)
  let any := parseEth o
  let eth := any.filter fun e => (s.planPort n).takesVid e.vid && s.takesMac n e.dst
  if !size || !ok then
    let s1 := s.countPort n fun c => { c with rxErr := c.rxErr + 1 }
    match size, eth with
    | true, some e => if s.h.mirror.role = 2 then s1 else s1.failedFrame n o e
    | _, _ => s1
  else if any.any fun e => decide (e.etype = 0x8808) then s.countPort n fun c => { c with rxPause := c.rxPause + 1 }
  else
    let s1 := s.countPort n fun c => { c with rxFrames := c.rxFrames + 1 }
    if s.h.mirror.role = 2 then s1
    else match eth with
      | none => s1.countPort n fun c => { c with rxFilter := c.rxFilter + 1 }
      | some e => s1.portFrame n o e

/-- Class of a side frame of a mirror port. -/
def Eth.mirrorClass (e : Eth) : Nat :=
  match e.ip with
  | some i => if i.proto = 17 then 1 else 2
  | none => if e.dst / 2 ^ 40 % 2 = 1 then 4 else 3

/-- Any other frame of a mirror port lands in its side receive queue (R364). -/
def State.mirrorSide (s : State) (n : Nat) (e : Eth) (o : List Octet) : State :=
  if (s.queue (n - 24) 0 1).en then s.landSide (n - 24) 0 n 1 e.mirrorClass o
  else s.countPort n fun c => { c with rxSide := c.rxSide + 1 }

/-- A mirror frame arrives: its sender is heard, on this port (R364, R371). -/
def State.hearMirror (s : State) (n : Nat) (f : MFrame) : State :=
  let primary := match s.h.plan.eff.bind fun pl => pl.mirror[f.src.val]? with
    | some m => 32 + m.primary
    | none => 32
  s.updMirror fun m =>
    let q := Sparse.get MPeer.reset m.peers f.src
    { m with
      inbox := m.inbox ++ [f],
      peers := Sparse.set MPeer.reset m.peers f.src { q with heard := true, secondary := q.secondary && decide (n ≠ primary) } }

/-- A frame of a mirror port (R364). All but HEART are the mirror engine's, which takes none while it is
held in reset (R459). -/
def State.mirrorFrame (s : State) (n : Nat) (o : List Octet) (ok : Bool) : State :=
  if o.length < 60 ∨ 9212 < o.length ∨ ¬ ok then s.countPort n fun c => { c with rxErr := c.rxErr + 1 }
  else match parseEth o with
    | none => s.countPort n fun c => { c with rxFilter := c.rxFilter + 1 }
    | some e =>
      if e.etype = 0x8808 then s.countPort n fun c => { c with rxPause := c.rxPause + 1 }
      else
        let s1 := s.countPort n fun c => { c with rxFrames := c.rxFrames + 1 }
        if e.etype = 0x88F7 ∧ s.isPtpSource n then s1.updPort n fun z => { z with ptpIn := z.ptpIn ++ [o] }
        else if e.etype ≠ 0x88B5 then s1.mirrorSide n e o
        else
          let dropped (x : State) : State := (x.updMirror fun m => { m with drop := m.drop + 1 }).mirrorSide n e o
          match s.parseMFrame e.body with
          | none => dropped s1
          | some f =>
            if f.term < s.h.mirror.term then dropped s1
            else if !f.body.isHeart && !s.up 113 4 then s1
            else s1.hearMirror n f

def execFrameReceive (n : PortId) (o : List Octet) (fcsOk fecOk : Bool) (s : State) : Host.Outcome State Fault Refusal :=
  .next <|
    if !(s.port n).up then s
    else if 32 ≤ n.val then s.mirrorFrame n o (fcsOk && fecOk)
    else if !s.alive (n / 4) || !s.portExists n then s
    else s.ledgerFrame n o (fcsOk && fecOk)

/-! ### FRAME_TRANSMIT (R329, R352) -/

/-- The die number under which a port's queue RAM is held. -/
def ramOf (n : Nat) : Nat := if n < 32 then n / 4 else n - 24

/-- The side send packet with this length word is sent as a frame. -/
def State.sendable (s : State) (d : Nat) (x : Word) : Bool :=
  decide (lwType x = 1) && decide (14 ≤ lwOctets x) && decide (lwOctets x ≤ 9212) &&
    (if d < 8 then decide (lwInfo x < 4) && s.portExists (4 * d + lwInfo x) else decide (lwInfo x = 0))

/-- Moves RPTR of a side send queue over what is not to be sent; QERR for all but DISCARDED packets. -/
def State.cleanSide (s : State) (d p : Nat) : Nat → State
  | 0 => s
  | fuel + 1 =>
    let r := s.queue d p 2
    let x := r.read (s.die d).qram r.rptr
    if !r.en || decide (r.kind ≠ 2) || decide (r.rptr = r.wptr) || decide (x = pendingMarker) || s.sendable d x then s
    else (s.setQueue d p 2
      { r with rptr := r.move r.rptr (1 + r.payload (lwOctets x)), qerr := r.qerr || decide (lwType x ≠ 2) }).cleanSide d p fuel

/-- The frame at the head of a side send queue for lane group g: its octets and the state without it. -/
def State.takeSide (s : State) (d p g : Nat) : Option (State × List Octet) :=
  let r := s.queue d p 2
  let x := r.read (s.die d).qram r.rptr
  if !r.en || decide (r.kind ≠ 2) || decide (r.rptr = r.wptr) || decide (x = pendingMarker) || !s.sendable d x ||
      decide (lwInfo x ≠ g) then none
  else
    let o := s.packetOctets d p 2 r.rptr 0
    let (s1, lost) := s.packetRead d p 2 r.rptr
    if lost then some (s1, []) else
    some (s1.setQueue d p 2 { r with rptr := r.move r.rptr (1 + r.payload (lwOctets x)) },
      o ++ List.replicate (60 - o.length) 0)

/-- The first of the queued frames that R329 lets leave: of the least priority number. -/
def Port.nextOut (z : Port) : Option (Nat × List Octet) :=
  ((List.range 8).find? fun c => z.out.any fun e => decide (e.1 / 16 = c)).bind fun c =>
    z.out.find? fun e => decide (e.1 / 16 = c)

/-- The response that leaves next: of the next partition in turn, the first in queue order. -/
def Port.nextResponse (z : Port) : Option Cached :=
  ((List.range 16).map fun i => (z.rr + 1 + i) % 16).findSome? fun p =>
    z.cached.find? fun e => decide (e.part.val = p) && decide (0 < e.due)

/-- A port sends its next frame; a mirror port at 25GBASE-R no side frame (R467). -/
def execFrameTransmit (n : PortId) (s : State) : Host.Outcome State Fault Refusal :=
  .next <|
    if !(s.port n).up || s.mute n || (decide (n.val < 32) && !(s.alive (n / 4) && s.portExists n)) then s
    else
      let sent (x : State) (o : List Octet) : State := (x.countPort n fun c => { c with txFrames := c.txFrames + 1 }).emit (.frame n o)
      match (s.port n).nextOut with
      | some e =>
        sent (s.updPort n fun z => { z with out := z.out.erase e }) e.2
      | none => match (s.port n).nextResponse with
        | some e => match (s.updPort n fun z => { z with rr := e.part }).sendResponse n e with
          | (s1, some o) => sent s1 o
          | (s1, none) => s1
        | none =>
          let d := ramOf n
          if decide (32 ≤ n.val) && s.h.mirror.slow.getLsbD (n - 32) then s else
          let s1 := iter 16 (fun p x => x.cleanSide d p (x.queue d p 2).used) s
          match (List.range 16).findSome? fun p => s1.takeSide d p (if n.val < 32 then n % 4 else 0) with
          | some (s2, o) => if o.isEmpty then s2 else sent s2 o
          | none => s1

/-- A port's lanes and link; no link comes up while the port's domain is held in reset (R459). -/
def execLinkStateChange (n : PortId) (lanes : BitVec 4) (fec up : Bool) (s : State) : Host.Outcome State Fault Refusal :=
  .next <|
    if (n.val < 32 ∧ ¬ (s.alive (n / 4) ∧ s.portExists n)) ∨ (up ∧ ¬ s.up (portDomain n) 4) then s
    else s.updPort n fun z => { z with lanes := lanes, fec := fec, up := up }

/-! ### PTP (R330, R331) -/

/-- The datasets in the order of IEEE 1588-2019: a is better than b. PRESUMED, log entry 24. -/
def PtpDataset.key (a : PtpDataset) : List Nat :=
  [a.priority1, a.clockClass, a.accuracy, a.variance, a.priority2, a.identity, a.stepsRemoved]
def lexLt : List Nat → List Nat → Bool
  | a :: as, b :: bs => decide (a < b) || (decide (a = b) && lexLt as bs)
  | _, _ => false

/-- The best foreign server. -/
def bestServer : List (Nat × PtpDataset) → Option (Nat × PtpDataset)
  | [] => none
  | e :: l => match bestServer l with
    | none => some e
    | some f => some (if lexLt (PtpDataset.key f.2) (PtpDataset.key e.2) then f else e)

/-- An Announce: up to 8 foreign servers are kept. -/
def PtpClient.announce (c : PtpClient) (server : Nat) (ds : PtpDataset) : PtpClient :=
  let rest := c.foreign.filter fun e => e.1 ≠ server
  let l := if rest.length < 8 then rest ++ [(server, ds)] else rest
  { c with foreign := l, server := (bestServer l).map Prod.fst }

/-- A measurement of the client on port n goes to the Sundial for each source that the port serves. -/
def State.ptpMeasure (s : State) (n : Nat) : State :=
  let c := (s.port n).ptp
  let m := c.t2 - c.t1 - c.corr - c.pathDelay
  let v : Servo := { interval := intervalNs c.interval, kp := s.paramN 65 n 3, ki := s.paramN 66 n 8 }
  let (i, y) := v.next (s.param 12 0 100) c.integral m
  let s1 := s.updPort n fun z => { z with ptp := { z.ptp with integral := i } }
  [false, true].foldl (fun x second =>
    if (x.sourceKind second = 1 ∨ x.sourceKind second = 2) ∧ x.sourceClient second = n then
      let gap := ((c.t2 - m - (x.h.sd.source second).at_).toNat) / 1000000
      x.measure second (c.t2 - m).toNat c.t2.toNat gap y
    else x) s1

def State.updPtp (s : State) (n : Nat) (f : PtpClient → PtpClient) : State := s.updPort n fun z => { z with ptp := f z.ptp }

/-- A PTP message as the client takes it (R330, R331): times in ns, correctionField in ns. -/
inductive PtpMsg where
  | announce (server : Nat) (ds : PtpDataset)
  | sync (server : Nat) (twoStep : Bool) (t1 : Int) (t2 : Int) (corr : Int) (interval : Int)
  | followUp (server : Nat) (t1 : Int) (corr : Int)
  | delayResp (server : Nat) (t3 t4 : Int) (corr : Int)
  | pdelayResp (server : Nat) (twoStep : Bool) (t1 t2 t3 t4 : Int) (corr : Int)
  | pdelayRespFollowUp (server : Nat) (t3 : Int) (corr : Int)
  deriving DecidableEq, Repr

/-! Messages as IEEE 1588-2019 lays them out. PRESUMED, log entry 24. -/

/-- A timestamp of 6 octets of seconds and 4 of ns. -/
def ptpTime (o : List Octet) (a : Nat) : Int := beAt o a 6 * 1000000000 + beAt o (a + 6) 4
def signed (bits n : Nat) : Int := (BitVec.ofNat bits n).toInt
def ptpDataset (o : List Octet) : PtpDataset :=
  { priority1 := beAt o 47 1, clockClass := beAt o 48 1, accuracy := beAt o 49 1, variance := beAt o 50 2,
    priority2 := beAt o 52 1, identity := beAt o 53 8, stepsRemoved := beAt o 61 2 }

/-- Length of a message of a type without TLVs; none for Signaling, Management and reserved types. -/
def ptpLength : Nat → Option Nat
  | 0 => some 44
  | 1 => some 44
  | 2 => some 54
  | 3 => some 54
  | 8 => some 44
  | 9 => some 54
  | 10 => some 54
  | 11 => some 64
  | _ => none

/-- TLVs in octets, at most fuel. -/
def countTlvs : Nat → List Octet → Nat
  | 0, _ => 0
  | fuel + 1, o => if o.length < 4 then 0 else 1 + countTlvs fuel (o.drop (4 + beAt o 2 2))

/-- The mapping by which a frame carries PTP (PTP_MAP), and the message. -/
def Eth.ptp (e : Eth) : Nat × List Octet :=
  match e.ip with
  | some i => (if i.v6 then 2 else 1, i.udpBody)
  | none => (0, e.body)

/-- The port identity of the client. -/
def ptpIdentity (mac : Nat) : Nat := mac / 2 ^ 24 * 2 ^ 56 + 0xFFFE * 2 ^ 40 + mac % 2 ^ 24 * 2 ^ 16 + 1

/-- What a message says to the client; none: nothing for it. rx: when it arrived; tx: when the client's last request left. -/
def PtpClient.read (c : PtpClient) (self : Nat) (o : List Octet) (rx tx : Int) : Option PtpMsg :=
  let from_ := beAt o 20 10
  let corr := signed 64 (beAt o 8 8) / 65536
  let two := beAt o 6 1 / 2 % 2 = 1
  let seq := beAt o 30 2
  let mine := beAt o 44 10 = self ∧ seq = c.reqSeq
  match beAt o 0 1 % 16 with
  | 0 => some (.sync from_ two (ptpTime o 34) rx corr (signed 8 (beAt o 33 1)))
  | 3 => if mine then
      some (.pdelayResp from_ two tx (ptpTime o 34) (ptpTime o 34) rx corr)
    else none
  | 8 => if seq = c.syncSeq then some (.followUp from_ (ptpTime o 34) corr) else none
  | 9 => if mine then some (.delayResp from_ tx (ptpTime o 34) corr) else none
  | 10 => if mine then some (.pdelayRespFollowUp from_ (ptpTime o 34) corr) else none
  | 11 => some (.announce from_ (ptpDataset o))
  | _ => none

/-- What a PTP message that the port has passed to the client does. -/
def State.ptpTake (s : State) (n : Nat) (m : PtpMsg) : State :=
  let c := (s.port n).ptp
  let peer := decide (s.paramN 62 n 0 = 1)
  match m with
  | .announce v ds => s.updPtp n fun c => c.announce v ds
  | .sync v two t1 t2 corr k =>
    if c.server ≠ some v ∨ k < -7 ∨ 1 < k then s
    else
      let s1 := s.updPtp n fun c => { c with t1 := t1, t2 := t2, corr := corr, interval := k, pend := two }
      if two then s1 else s1.ptpMeasure n
  | .followUp v t1 corr =>
    if c.server ≠ some v ∨ ¬ c.pend then s
    else (s.updPtp n fun c => { c with t1 := t1, corr := c.corr + corr, pend := false }).ptpMeasure n
  | .delayResp v t3 t4 corr =>
    if peer ∨ c.server ≠ some v ∨ c.pend then s
    else s.updPtp n fun c => { c with pathDelay := ((c.t2 - t3) + (t4 - c.t1) - c.corr - corr) / 2 }
  | .pdelayResp _ two t1 t2 t3 t4 corr =>
    if !peer then s
    else if two then s.updPtp n fun c => { c with pd := some (t1, t2, t4, corr) }
    else s.updPtp n fun c => { c with pathDelay := ((t4 - t1) - (t3 - t2) - corr) / 2, pd := none }
  | .pdelayRespFollowUp _ t3 corr =>
    match peer, c.pd with
    | true, some (t1, t2, t4, corr1) =>
      s.updPtp n fun c => { c with pathDelay := ((t4 - t1) - (t3 - t2) - corr1 - corr) / 2, pd := none }
    | _, _ => s

/-- Where the server of a message is answered: its address while it sends unicast; and the number of a Sync. -/
def State.ptpNote (s : State) (n : Nat) (e : Eth) (o : List Octet) : State :=
  let one : Peer := match e.ip with
    | some i => { framePeer e i with udp := 319 }
    | none => { self := 0, mac := e.src, v6 := false, ip := 0, udp := 0, outer := e.outer, inner := e.inner }
  if beAt o 0 1 % 16 = 0 ∧ (s.port n).ptp.server = some (beAt o 20 10) then
    s.updPtp n fun c => { c with syncSeq := beAt o 30 2, unicast := if e.dst / 2 ^ 40 % 2 = 0 then some one else none }
  else s

/-- The client takes a message: one of another mapping, version or domain is discarded; Signaling, Management and every TLV are
counted (R330). rx, tx: the port's timestamps of the message and of the client's last request, which RX_DELAY and TX_DELAY correct
(R331, R482). -/
def State.ptpFrame (s : State) (n : Nat) (e : Eth) (rx tx : Int) : State :=
  let (map, o) := e.ptp
  let count (k : Nat) (x : State) : State := x.countPort n fun c => { c with rxPtp := c.rxPtp + word k }
  if map ≠ s.paramN 63 n 1 ∨ o.length < 34 ∨ beAt o 1 1 % 16 ≠ 2 ∨ beAt o 4 1 ≠ s.paramN 61 n 0 then s
  else match ptpLength (beAt o 0 1 % 16) with
  | none => count 1 s
  | some k =>
    if o.length < k then s
    else
      let s1 := (count (countTlvs (o.length - k) ((o.take (beAt o 2 2)).drop k)) s).ptpNote n e o
      match (s1.port n).ptp.read (ptpIdentity (s1.portMac n)) o (rx - s1.delayNs 2 n) (tx + s1.delayNs 1 n) with
      | some m => s1.ptpTake n m
      | none => s1

def execPtpMessage (n : PortId) (t : PtpStamps) (s : State) : Host.Outcome State Fault Refusal :=
  .next <| match (s.port n).ptpIn with
  | [] => s
  | o :: l =>
    let s1 := s.updPort n fun z => { z with ptpIn := l }
    match parseEth o with
    | some e => s1.ptpFrame n e t.rx t.tx
    | none => s1

/-- A Delay_Req, or a Pdelay_Req under the peer mechanism, as IEEE 1588-2019 lays it out. PRESUMED, log entry 24. -/
def ptpRequest (peer : Bool) (domain mac seq : Nat) : List Octet :=
  let len := if peer then 54 else 44
  octetsBE 1 (if peer then 2 else 1) ++ octetsBE 1 2 ++ octetsBE 2 len ++ octetsBE 1 domain ++ octetsBE 1 0 ++ octetsBE 2 0 ++
    octetsBE 8 0 ++ octetsBE 4 0 ++ octetsBE 10 (ptpIdentity mac) ++ octetsBE 2 seq ++ octetsBE 1 (if peer then 5 else 1) ++ octetsBE 1 0x7F ++ List.replicate (len - 34) 0

/-- Group destination of a request under a mapping: MAC, and the IP address. -/
def ptpDest (peer : Bool) (map : Nat) : Nat × Nat :=
  let i := bit peer
  let v4 := if peer then 0xE000006B else 0xE0000181
  let v6 := if peer then 0xFF02000000000000000000000000006B else 0xFF0E0000000000000000000000000181
  ((ptpMulticast map).getD i 0, if map = 1 then mapped v4 else v6)

def execPtpDelayRequest (n : PortId) (s : State) : Host.Outcome State Fault Refusal :=
  .next <|
    if !s.isPtpSource n || s.mute n then s
    else
      let seq := ((s.port n).ptp.reqSeq + 1) % 65536
      let s1 := s.updPtp n fun c => { c with reqSeq := seq }
      let peer := decide (s.paramN 62 n 0 = 1)
      let map := s.paramN 63 n 1
      let mac := s.portMac n
      let msg := ptpRequest peer (s.paramN 61 n 0) mac seq
      let (dst, ip) := ptpDest peer map
      let dest : Peer := (s.port n).ptp.unicast.getD
        { self := 0, mac := dst, v6 := decide (map = 2), ip := ip, udp := 319, outer := 0, inner := 0 }
      if map = 0 then s1.queueOut n 2 0 (buildEth dest.mac mac dest.outer dest.inner 0x88F7 msg)
      else s1.sendUdp n 2 0 dest 319 msg

end Sys2Proof.Machine
end

