-- ==== Sys2Proof/Machine/Queues.lean ====
section
/-! DEFINITION. Queue pointers and queue conditions (R352, R356), and Boardwalk link faults (R32, R388). -/

namespace Sys2Proof.Machine

/-! ### Queues -/

def execQueueRptrWrite (d : DieId) (p : PartId) (q : Fin 8) (v : Nat) (s : State) : Host.Outcome State Fault Refusal :=
  .next (s.updQueue d p q fun r => r.writeWord 3 (word v))
def execQueueWptrWrite (d : DieId) (p : PartId) (q : Fin 8) (v : Nat) (s : State) : Host.Outcome State Fault Refusal :=
  .next (s.updQueue d p q fun r => r.writeWord 2 (word v))

/-- INT_QUEUE of every core of partition p as the conditions of its queues hold it. -/
def State.holdQueueBits (s : State) (p : Nat) : State :=
  iter 512 (fun c x =>
    let k := x.core c
    if (x.partOf c).map Fin.val = some p && k.running then
      let on := x.queueHolds c
      if BitVec'.at' k.r.sp.ipend Item.queue.position = on then x
      else x.setCore c (k.updSp fun z => { z with ipend := BitVec'.setAt z.ipend Item.queue.position on })
    else x) s

/-- The condition of a queue has arisen or ended: INT_QUEUE follows, and MSI-X is sent as it arises. -/
def execQueueCondition (d : DieId) (p : PartId) (q : Fin 8) (s : State) : Host.Outcome State Fault Refusal :=
  .next <|
    let r := s.queue d p q
    let now := r.condition (s.die d).qram
    let s1 := (s.setQueue d p q { r with cond := now }).holdQueueBits p
    if now && !r.cond && r.hen then s1.msix r.vector else s1

/-! ### Boardwalk links -/

/-- The die that a link serves; for a tandem link, the higher-numbered one (R32). -/
def BwLink.die : BwLink → Nat
  | .hub d => d
  | .tandem k => 2 * k + 1

/-- The hub decides to fence a die (R388); an earlier decision stands. -/
def State.decideFence (s : State) (d : Nat) (c : FenceCause) : State :=
  if !s.alive d then s
  else s.updDie d fun e => { e with fenceDue := match e.fenceDue with | some x => some x | none => some c }

def execBoardwalkLinkRetry (l : BwLink) (s : State) : Host.Outcome State Fault Refusal :=
  .next (if s.alive (BwLink.die l) then s.logErr 0o23 1 (BwLink.die l) false 0 0 (Config.linkName l) 0 else s)

def execBoardwalkLinkLost (l : BwLink) (s : State) : Host.Outcome State Fault Refusal :=
  .next <|
    if s.alive (BwLink.die l) then (s.logErr 0o24 2 (BwLink.die l) false 0 0 (Config.linkName l) 0).decideFence (BwLink.die l) .link
    else s

end Sys2Proof.Machine
end

