-- ==== Sys2Proof/Machine/Tandem.lean ====
section
/-! DEFINITION. Tandem pairs: digests and their comparison (R358 to R362), partition states (R363), and the fencing of a die
(R388 to R390). -/

namespace Sys2Proof.Machine

/-! ### Digests (R358, R359) -/

/-- Inserts a record in position order. -/
def insertRec (g : DigestRec) : List DigestRec → List DigestRec
  | [] => [g]
  | x :: xs => if g.pos.before x.pos then g :: x :: xs else x :: insertRec g xs

/-- Positions of the events of epoch e of p that resolve no transaction. -/
def State.planEvents (s : State) (p e : Nat) : List Position :=
  ((sortEntries (Sparse.get [] (s.partn p).logs e)).filter fun x => decide (x.kind = 5)).map LogEntry.pos

/-- The digest of epoch e of p on die d: ORDERED, UNORDERED. -/
def State.digest (s : State) (d p e : Nat) : BitVec 64 × BitVec 64 :=
  let l := ((s.die d).digests.filter fun g => decide (g.part.val = p) && decide (g.epoch = e)).foldl (fun a g => insertRec g a) []
  let bits := l.flatMap DigestRec.bits ++ (s.planEvents p e).flatMap fun x => bitsOf 72 x.bits.toNat
  (crc64 bits, Sparse.get 0 (s.die d).unordered (16 * e + p))

/-- The hub holds, or is about to receive, the digest of epoch e of p from die d. -/
def State.digestSent (s : State) (d p e : Nat) : Bool :=
  ((s.partn p).digestOf d e).isSome || s.msgs.any fun m => match m with
    | .digest src q f _ _ => decide (src.val = d) && decide (q.val = p) && decide (f = e)
    | _ => false

/-- The first epoch after e0 whose digest die d has not sent. -/
def State.nextDigest (s : State) (d p e0 : Nat) : Nat → Nat
  | 0 => epochNext e0
  | n + 1 => if s.digestSent d p (epochNext e0) then s.nextDigest d p (epochNext e0) n else epochNext e0

/-- Every transaction of p in epoch e is resolved on die d and its changes performed. -/
def State.epochDone (s : State) (d p e : Nat) : Bool :=
  (s.slotsOf d p).all fun n =>
    let v := s.slot d n
    decide (s.slotEpoch v ≠ e) || decide (v.st = .committed) || (decide (v.st = .aborted) && v.restored)

def execDigestSend (d : DieId) (p : PartId) (s : State) : Host.Outcome State Fault Refusal :=
  .next <|
    let e := s.nextDigest d p (s.partn p).visible ((s.partn p).digests.length + s.msgs.length)
    let q := s.partn p
    let follows := decide (s.h.mirror.role = 2) && decide (q.st ≠ .joining) && epochLe e q.heldTo && q.todo.all fun x => epochAfter x.1 e
    if !(if s.h.mirror.role = 2 then follows else s.h.sd.opened) || !s.alive d || !s.runs p d ||
      !tickLe (s.lastTick e) (s.dieHorizon d) || !s.epochDone d p e then s
    else
      let g := s.digest d p e
      (s.post (.digest d p e g.1 g.2)).edgePassed

/-! ### Partition states (R363) -/

/-- p stops in the current epoch. -/
def State.stopPartition (s : State) (p : Nat) : State :=
  if (s.partn p).st = .stopped then s
  else (s.updPartn p fun q => { q with st := .stopped, stEpoch := s.h.sd.g.epoch }).logErr 0o32 2 0 true p 0
    (word s.h.sd.g.epoch) 0

/-- The state to which a partition returns from a re-execution. -/
def State.runningState (s : State) (p : Nat) : PartSt :=
  if s.h.mirror.role = 2 then .following
  else match s.tandemOf p with
    | some k => if s.alive (2 * k) && s.alive (2 * k + 1) then .normal else .degraded
    | none => .normal

/-- Slots of p on die d of transactions after epoch r are given up. -/
def State.dropSlots (s : State) (p r d : Nat) : State :=
  ((s.slotsOf d p).filter fun n => epochAfter (s.slotEpoch (s.slot d n)) r).foldl
    (fun x n => (x.takeBack d n).freeSlot d n) s

/-- Partition p discards every epoch that it has not released (R376). -/
def State.discardUnreleased (s : State) (p : Nat) : State :=
  let r := (s.partn p).released
  let s1 := { s with msgs := s.msgs.filter fun m => !s.voidMsg p r m }
  let s2 := iter 8 (fun d x => ((x.dropSlots p r d).rollBack p r d).discardResponses p r d) s1
  let s3 := iter 8 (fun d x => x.updDie d fun e => { e with
    digests := e.digests.filter fun g => !(decide (g.part.val = p) && epochAfter g.epoch r) }) s2
  (s3.updPartn p fun q => { q with
    sealed := r, standins := [],
    txns := q.txns.filter fun t => !epochAfter t.epoch r,
    logs := q.logs.filter fun x => !epochAfter x.1 r,
    sealedDigests := q.sealedDigests.filter fun x => !epochAfter x.1 r }).updHost fun x =>
      { x with resp := Sparse.set [] x.resp p ((Sparse.get [] x.resp p).filter fun h =>
        match h.epoch with
        | some e => !epochAfter e r
        | none => true) }

/-- MIRROR_STATUS.ROLE changes (R439). -/
def State.setRole (s : State) (r : BitVec 2) : State :=
  if s.h.mirror.role = r then s else (s.updMirror fun m => { m with role := r }).event 2

/-- HP_STATUS.LAST changes (R428, R439). -/
def State.setLast (s : State) (n : BitVec 3) : State :=
  let s1 := s.updPlan fun x => { x with hp := { x.hp with last := n } }
  if s.h.plan.hp.last = n then s1 else s1.event 1

/-- Clusters that a staged image adds. -/
def State.stagedClusters (s : State) : BitVec 64 :=
  match s.h.plan.staged with
  | none => 0
  | some x => match x.plan.parts.find? fun e => decide (e.1 = x.part) with
    | some e => e.2.clusters &&& ~~~(s.planPart x.part).clusters
    | none => 0

/-- The staging of a partial image is undone: the clusters that it added go off (R424). -/
def State.undoStaging (s : State) : State :=
  let m := s.stagedClusters
  let s1 := iter 64 (fun cl x => if m.getLsbD cl then x.clusterOff cl else x) s
  let s2 := s1.updPwr fun p => { p with queue := p.queue.filter fun i => !(decide (i < 104) && decide (i % 13 < 8) &&
    m.getLsbD (8 * (i / 13) + i % 13)) }
  s2.updPlan fun x => { x with staged := none }

/-- A staged or committed image is withdrawn (R426). -/
def State.withdrawStaged (s : State) : State := if s.h.plan.staged.isSome then s.undoStaging.setLast 5 else s

/-- The lead becomes stale: admission closes, nothing leaves its ledger ports, epochs not released are discarded (R376). -/
def State.becomeStale (s : State) : State :=
  let s1 := (s.withdrawStaged.setRole 3).updSdRegs fun g => { g with admitOpen := false }
  let s2 := iter 16 (fun p x => x.discardUnreleased p) s1
  let s3 := iter 32 (fun n x => x.updPort n fun z => { z with out := [], cached := z.cached.map fun e => { e with due := 0 } }) s2
  s3.logErr 0o43 0 0 true 0 0 (word s3.h.mirror.term) 0

/-- Epochs that the package holds, one for each partition (R376). -/
def State.heldEpochs (s : State) : List Nat :=
  (List.range 16).map fun p => if s.h.mirror.role = 2 then (s.partn p).heldTo else (s.partn p).sealed

/-- The follower to which a lead hands over: the one with the highest acknowledged epochs, the lowest MIRROR_ID among equals
(R375). -/
def State.heir (s : State) : Option Nat :=
  let sum (i : Nat) : Nat := ((List.range 16).map fun p => Sparse.get 0 (s.partn p).acked i).sum
  ((List.range 4).filter s.h.mirror.eligible).foldl (fun a i => match a with
    | none => some i
    | some j => if sum j < sum i then some i else some j) none

/-- The package fails over to a follower, or partition p stops without one (R361, R375, R390). -/
def State.failOver (s : State) (p : Nat) : State :=
  match s.heir with
  | some i => if s.h.mirror.role = 1 then (s.sendMirror i (.take i s.heldEpochs)).becomeStale else s.stopPartition p
  | none => s.stopPartition p

/-! ### Comparison (R359 to R361) -/

/-- Records the last compared digest and, for a difference, the mismatch. -/
def State.compared (s : State) (p e : Nat) (g : BitVec 64) (differ : Bool) (again : Nat) : State :=
  let s1 := match s.tandemOf p with
    | none => s
    | some k => s.updTs k fun t =>
      let t1 := { t with digest := g.truncate 36 }
      if differ then
        { t1 with mismatches := if t.mismatches = BitVec.allOnes 12 then t.mismatches else t.mismatches + 1, epoch := word e }
      else t1
  if differ then s1.logErr 0o30 0 0 true p 0 (word e) (word again) else s1

/-- A FAULT entry of the error log attributed to die d and stamped from tick t on (R361, R393). -/
def State.faultSince (s : State) (d : Nat) (t : BitVec 48) : Bool :=
  s.h.elog.any fun e =>
    let r := e.2
    decide (BitVec'.pos r.w0 6 2 = 2) && !BitVec'.at' r.w0 11 && decide ((BitVec'.pos r.w0 8 3).toNat = d) &&
      decide ((r.w1 - t.truncate 36 : Word).toNat < 2 ^ 35)

/-- The digests of an epoch differ after a re-execution from r (R361). -/
def State.blame (s : State) (p r : Nat) : State :=
  match s.tandemOf p with
  | none => s.failOver p
  | some k =>
    let t := s.lastTick r + 1
    match s.faultSince (2 * k) t, s.faultSince (2 * k + 1) t with
    | true, false => s.decideFence (2 * k) .blamed
    | false, true => s.decideFence (2 * k + 1) .blamed
    | _, _ => s.failOver p

/-- The digests that the hub holds of epoch e, from every die that forms one; none while one is missing. -/
def State.heldDigests (s : State) (p e : Nat) : Option (List (BitVec 64 × BitVec 64)) :=
  let dies := s.digestDies p
  let l := dies.filterMap fun d => (s.partn p).digestOf d e
  if l.length = dies.length then some l else none

/-- The digests of a re-executed epoch agree with one another and with those recorded at its seal. -/
def State.rerunAgrees (s : State) (p e : Nat) (l : List (BitVec 64 × BitVec 64)) : Bool :=
  let pair := (s.tandemOf p).isSome
  (!pair || l.all fun x => decide (some x = l.head?)) &&
    (match Sparse.get none (s.partn p).sealedDigests e with
      | none => true
      | some g => decide (s.epochDigest p e = some g))

/-- Compares the re-executed epochs after e in order, n of them at most. -/
def State.compareRerun (s : State) (p e : Nat) : Nat → State
  | 0 =>
    let r := (s.partn p).released
    (s.updPartn p fun q => { q with st := s.runningState p }).logErr 0o31 0 0 true p 0 (word (epochNext r)) 0
  | n + 1 =>
    let e1 := epochNext e
    match s.heldDigests p e1 with
    | none => s
    | some l =>
      let g := ((l.headD (0, 0)).1)
      if s.rerunAgrees p e1 l then (s.compared p e1 g false 2).compareRerun p e1 n
      else (s.compared p e1 g true 2).blame p (s.partn p).released

/-- A re-execution of p would start from an epoch before the one at which its last partial image took effect (R426). -/
def State.beforePlan (s : State) (p : Nat) : Bool :=
  match (s.partn p).planEpoch with
  | some e => !epochLe e (epochNext (s.partn p).released)
  | none => false

/-- Compares the pair's digests of the epochs after e that the hub holds; at a difference p re-executes. -/
def State.comparePair (s : State) (p k e : Nat) : Nat → State
  | 0 => s
  | n + 1 =>
    let e1 := epochNext e
    match (s.partn p).digestOf (2 * k) e1, (s.partn p).digestOf (2 * k + 1) e1 with
    | some a, some b =>
      if a = b then (s.compared p e1 a.1 false 1).comparePair p k e1 n
      else
        let s1 := s.compared p e1 a.1 true 1
        if s.beforePlan p then s1.failOver p else s1.reexecute p
    | _, _ => s

/-! ### Fencing (R389, R390) -/

def FenceCause.row : FenceCause → Nat
  | .link => 1 | .tickCheck => 2 | .stall => 3 | .blamed => 4 | .supply => 5 | .host => 6

/-- Announces a port's addresses: a gratuitous ARP for each IPv4 address, an unsolicited neighbour advertisement for each IPv6
address (R377). -/
def State.announce (s : State) (n : Nat) (v4 v6 : List Nat) : State :=
  let mac := s.portMac n
  let arp (x : State) (a : Nat) : State := x.queueOut n 3 0 (buildEth broadcastMac mac 0 0 0x0806
    (octetsBE 8 0x0001080006040001 ++ octetsBE 6 mac ++ octetsBE 4 a ++ octetsBE 6 0 ++ octetsBE 4 a))
  let allNodes := 0xFF020000000000000000000000000001
  let adv (x : State) (a : Nat) : State :=
    let (x1, w) := x.fresh
    let rest := octetsBE 4 0x20000000 ++ octetsBE 16 a ++ [2, 1] ++ octetsBE 6 mac
    let c := checksum (pseudoHeader true a allNodes 58 (4 + rest.length) ++ octetsBE 2 (136 * 256) ++ [0, 0] ++ rest)
    x1.queueOut n 3 0 (buildEth 0x333300000001 mac 0 0 0x86DD
      (buildIp true a allNodes 58 (x.paramN 59 n 64) w (octetsBE 2 (136 * 256) ++ octetsBE 2 c ++ rest)))
  v6.foldl adv (v4.foldl arp s)

/-- The surviving die's port adopts the fenced port's addresses and serves its sessions from the shadow table. -/
def State.adoptPort (s : State) (m n : Nat) : State :=
  let v4 := (s.planPort m).v4
  let v6 := (s.planPort m).v6
  let s1 := s.updPort n fun z => { z with
    adopted4 := z.adopted4 ++ v4, adopted6 := z.adopted6 ++ v6,
    sessions := z.shadow.foldl (fun t e => Sparse.set Session.reset t (16384 + e.1) e.2) z.sessions,
    shadow := [] }
  s1.announce n v4 v6

/-- What becomes of partition p after the fence of die d. -/
def State.afterFence (s : State) (d p : Nat) : State :=
  let q := s.planPart p
  match s.tandemOf p with
  | some k =>
    if d / 2 ≠ k then s
    else if s.alive (2 * k) || s.alive (2 * k + 1) then
      s.updPartn p fun q => { q with st := if q.st = .stopped ∨ q.st = .following ∨ q.st = .joining then q.st else .degraded }
    else s.failOver p
  | none =>
    if q.homes.any (fun h => decide (h = d)) || q.admitDie.any (fun a => decide (a = d)) then s.failOver p else s

/-- A message for the die. -/
def Msg.toDie (d : Nat) : Msg → Bool
  | .horizon _ (.die e) _ => decide (e.val = d)
  | .release e _ _ => decide (e.val = d)
  | .claim e _ => decide (e.val = d)
  | .grant e _ _ _ _ => decide (e.val = d)
  | .frontier _ e _ _ => decide (e.val = d)
  | .claimRelease e _ _ _ => decide (e.val = d)
  | .answer e _ _ _ => decide (e.val = d)
  | .notice e _ _ _ => decide (e.val = d)
  | .copy e _ _ _ => decide (e.val = d)
  | .fetchLine _ e _ _ => decide (e.val = d)
  | .lineAnswer _ e _ _ _ _ _ _ => decide (e.val = d)
  | _ => false

/-- The die with everything lost but what the hub keeps of it. -/
def Die.fencedOff (e : Die) : Die :=
  { Die.reset with
    fenced := true, scrub := e.scrub, scrubPass := e.scrubPass, ceCount := e.ceCount, daccWrap := e.daccWrap,
    daccSkip := e.daccSkip }

/-- Responses that slots of the other dies had placed at the fenced die's ports depart from no port (R130, R389). -/
def State.dropResponses (s : State) (d : Nat) : State :=
  iter 8 (fun e x => (((x.die e).o.slots.map Prod.fst).filter fun n =>
    let v := x.slot e n
    v.resp.isSome && !v.departed && !v.org.host && decide (x.respDie e v = d)).foldl
      (fun y n => (y.updSlot e n fun v => { v with departed := true }).tryFree e n) x) s

/-- The fence of die d. -/
def State.fenceDie (s : State) (d : Nat) (c : FenceCause) : State :=
  let s1 := iter 8 (fun k x => x.clusterOff (8 * d + k)) s
  let s2 := iter 13 (fun i x => x.updPwr fun p => { p with
    domains := p.domains &&& ~~~(1#128 <<< (13 * d + i)), queue := p.queue.filter (· ≠ 13 * d + i) }) s1
  let s3 := iter 4 (fun g x => (x.updPort (4 * d + g) fun _ => Port.reset).updGate (16 + 4 * d + g) fun _ => Gate.reset)
    (iter 2 (fun row x => x.updGate (2 * d + row) fun _ => Gate.reset) s2)
  let s4 := { s3.updDie d Die.fencedOff with
    msgs := s3.msgs.filter fun m => !m.toDie d,
    accesses := s3.accesses.filter fun a => decide (coreDie a.core ≠ d) }
  let s5 := (s4.updSd fun x => { x with hzSeen := Sparse.set 0 x.hzSeen d 0, stalled := x.stalled &&& ~~~(1#8 <<< d) }).updTs (d / 2)
    fun t => if d % 2 = 0 then { t with fencedLo := true } else { t with fencedHi := true }
  let s6 := (s5.dropResponses d).logErr 0o22 2 d false 0 0 (word (FenceCause.row c)) 0
  let e := d / 2 * 2 + (1 - d % 2)
  let s7 := if s6.tandemPair (d / 2) && s6.alive e then
      iter 4 (fun g x => if x.portExists (4 * e + g) then x.adoptPort (4 * d + g) (4 * e + g) else x) s6
    else s6
  iter 16 (fun p x => x.afterFence d p) s7

def execDieFence (d : DieId) (s : State) : Host.Outcome State Fault Refusal :=
  .next <| match (s.die d).fenceDue with
  | none => s
  | some c => s.fenceDie d c

end Sys2Proof.Machine
end

