-- ==== Sys2Proof/Machine/Image.lean ====
section
/-! DEFINITION. A Hamper image as octets (R399 to R420): its header, directory and sections, the checks of steps 1 to 13 of
R427, and the values that its sections hold, clamped (R407 to R409). -/

namespace Sys2Proof.Machine

/-- n octets from a as a number, the least significant first (R399). -/
def leAt (o : List Octet) (a n : Nat) : Nat := ofOctetsLE ((o.drop a).take n)

/-- A rejection: REASON, SECTION, HDR and HP_ERROFF (R427, R428). -/
structure PlanErr where
  reason : Nat
  section_ : Nat
  hdr : Bool
  off : Option Nat
  deriving DecidableEq, Repr

/-- A failure in the header, the directory, padding or the trailer. -/
def hdrErr (reason off : Nat) : Option PlanErr := some { reason := reason, section_ := 0, hdr := true, off := some off }

/-- A section: its place in the directory, TYPE, INSTANCE, OFFSET, SCRC, and its octets (R404). -/
structure Sec where
  idx : Nat
  type : Nat
  inst : Nat
  off : Nat
  crc : Nat
  data : List Octet
  deriving DecidableEq, Repr

def secErr (reason : Nat) (x : Sec) (off : Nat) : Option PlanErr :=
  some { reason := reason, section_ := x.idx, hdr := false, off := some off }

/-- A failing octet of a section. -/
def Sec.err (x : Sec) (reason a : Nat) : Option PlanErr := secErr reason x (x.off + a)
/-- A failing section, by a field of its directory entry: SECTION names it, and HDR stays 0, R428's directory failures being those
of step 9. DEDUCED, log entry 27. -/
def Sec.dirErr (x : Sec) (reason a : Nat) : Option PlanErr := secErr reason x (64 + 16 * x.idx + a)

/-- The first failure of a list of checks. -/
def firstErr : List (Option PlanErr) → Option PlanErr
  | [] => none
  | some e :: _ => some e
  | none :: l => firstErr l

def failIf (b : Bool) (e : Option PlanErr) : Option PlanErr := if b then e else none

/-! ### Header (R403), steps 1 to 8 -/

/-- Ledger dies of the part. -/
def partDies (code : Nat) : Nat := code / 100

def imageLen (o : List Octet) : Nat := leAt o 12 4
def imageScope (o : List Octet) : Nat := leAt o 6 1
def imagePart (o : List Octet) : Nat := leAt o 7 1
def imageEpoch (o : List Octet) : Nat := leAt o 20 9
def imageGen (o : List Octet) : Nat := leAt o 32 8
def imageBaseGen (o : List Octet) : Nat := leAt o 40 8
def imageSigned (o : List Octet) : Bool := (o.getD 48 0).getLsbD 0
/-- The octets before the trailer. -/
def imageBody (o : List Octet) : Nat := if imageSigned o then imageLen o - 72 else imageLen o
def imageKeyslot (o : List Octet) : Nat := leAt o (imageBody o) 1

/-- Fuse bits of a key slot: valid and not revoked (R405). -/
def Fuses.keyOk (f : Fuses) (slot : Nat) : Bool :=
  if slot = 0 then f.valid0 && !f.revoke0 else if slot = 1 then f.valid1 && !f.revoke1 else false

/-- Steps 1 to 8 of R427. An image too short for IMAGE_LEN to be read fails step 1. -/
def checkHeader (f : Fuses) (o : List Octet) : Option PlanErr :=
  let b := imageBody o
  if o.length < 16 then some { reason := 1, section_ := 0, hdr := true, off := none }
  else if imageLen o ≠ o.length ∨ imageLen o < 72 ∨ 67108864 < imageLen o then hdrErr 1 12
  else if o.take 4 ≠ [0x48, 0x4D, 0x50, 0x52] then hdrErr 2 0
  else if leAt o 4 2 ≠ 1 then hdrErr 3 4
  else if 1 < imageScope o then hdrErr 3 6
  else if leAt o 60 4 ≠ (crc32c (o.take 60)).toNat then hdrErr 4 60
  else if leAt o 8 2 ≠ f.partCode then hdrErr 5 8
  else if leAt o 10 1 ≠ f.stepping.toNat then hdrErr 5 10
  else if f.sigRequired ∧ ¬ imageSigned o then hdrErr 6 48
  else if !imageSigned o then none
  else if !f.keyOk (imageKeyslot o) then hdrErr 7 b
  else if !ed25519 (if imageKeyslot o = 0 then f.key0 else f.key1) (o.take b) (o.drop (b + 8)) then hdrErr 8 (b + 8)
  else none

/-! ### Directory and sections, steps 9 to 12 -/

def imageSects (o : List Octet) : Nat := leAt o 16 4
/-- Octet after the directory entries, where DCRC stands. -/
def imageDirEnd (o : List Octet) : Nat := 64 + 16 * imageSects o

/-- The sections of an image, in directory order. -/
def imageSecs (o : List Octet) : List Sec :=
  (List.range (min (imageSects o) 256)).map fun i =>
    let e := 64 + 16 * i
    { idx := i, type := leAt o e 2, inst := leAt o (e + 2) 2, off := leAt o (e + 4) 4, crc := leAt o (e + 12) 4,
      data := (o.drop (leAt o (e + 4) 4)).take (leAt o (e + 8) 4) }

/-- Places of the sections: index, OFFSET, LENGTH. -/
def imagePlaces (o : List Octet) : List (Nat × Nat × Nat) :=
  (List.range (imageSects o)).map fun i => (i, leAt o (64 + 16 * i + 4) 4, leAt o (64 + 16 * i + 8) 4)

/-- The first malformed entry of the directory, given the sections before it. -/
def badPlace (lo hi : Nat) : List (Nat × Nat) → List (Nat × Nat × Nat) → Option Nat
  | _, [] => none
  | seen, (i, off, len) :: l =>
    if off % 8 ≠ 0 ∨ off < lo ∨ hi < off + len ∨ seen.any fun e => decide (off < e.1 + e.2) && decide (e.1 < off + len) then some i
    else badPlace lo hi ((off, len) :: seen) l

/-- Step 9. -/
def checkDirectory (o : List Octet) : Option PlanErr :=
  let n := imageSects o
  let e := imageDirEnd o
  if n = 0 ∨ 256 < n ∨ imageBody o < e + 4 then hdrErr 9 16
  else if leAt o e 4 ≠ (crc32c ((o.drop 64).take (16 * n))).toNat then hdrErr 9 e
  else match badPlace (e + 4) (imageBody o) [] (imagePlaces o) with
    | some i => hdrErr 9 (64 + 16 * i + 4)
    | none => none

/-- The highest INSTANCE of a TYPE (R406); none for a type that the table does not list. -/
def maxInst : Nat → Option Nat
  | 1 => some 0 | 2 => some 15 | 3 => some 0 | 4 => some 127 | 5 => some 31 | 6 => some 15 | 7 => some 63 | 8 => some 65535
  | 9 => some 0 | 10 => some 0 | 11 => some 0 | _ => none

/-- Step 11 for one section, given those before it. -/
def checkType (seen : List Sec) (x : Sec) : Option PlanErr :=
  match maxInst x.type with
  | none => x.dirErr 11 0
  | some m =>
    if m < x.inst then x.dirErr 11 2
    else failIf (seen.any fun y => decide (y.type = x.type) && decide (y.inst = x.inst)) (x.dirErr 11 0)

def checkTypes : List Sec → List Sec → Option PlanErr
  | _, [] => none
  | seen, x :: l => match checkType seen x with
    | some e => some e
    | none => checkTypes (x :: seen) l

def Sec.len (x : Sec) : Nat := x.data.length
/-- n octets of a section from a. -/
def Sec.u (x : Sec) (a n : Nat) : Nat := leAt x.data a n

/-- The LENGTH that R406 gives (step 12). -/
def Sec.lengthOk (x : Sec) : Bool :=
  match x.type with
  | 1 => decide (x.len % 16 = 0)
  | 2 => decide (x.len = 312)
  | 3 => decide (x.len % 32 = 0)
  | 4 => decide (x.len = 208)
  | 5 => decide (x.len = 2304)
  | 6 => decide (x.len = 296)
  | 7 => decide (12 ≤ x.len) && decide (x.len = 12 + 2 * x.u 8 4)
  | 8 => decide (16 ≤ x.len) && decide (x.len = 16 + 80 * x.u 8 4)
  | 9 => decide (x.len = 40)
  | 10 => decide (x.len = 64)
  | _ => decide (x.len = 16)

/-! ### Parameters (R73, R139, R331, R344, R398, R408) -/

/-- Number of units of a parameter's scope, lower limit, upper limit, default. Those that depend on another parameter or on
a strap are in `paramLow`, `paramHigh` and `paramDefault`. -/
def paramRow : Nat → Option (Nat × Int × Int × Int)
  | 1 => some (1, 0, 2, 0)
  | 2 => some (1, 0, 4, 0)
  | 3 => some (1, -2 ^ 63, 2 ^ 63 - 1, 0)
  | 4 => some (1, 0, 4, 0)
  | 5 => some (1, -2 ^ 63, 2 ^ 63 - 1, 0)
  | 6 => some (1, 20, 10000, 100)
  | 7 => some (1, 2, 10000, 20)
  | 8 => some (1, 0, 2 ^ 36 - 1, 0)
  | 9 => some (1, 10, 100000, 100)
  | 10 => some (1, 1, 255, 8)
  | 11 => some (1, 100, 1000000, 1000)
  | 12 => some (1, 1, 500, 100)
  | 13 => some (1, 0, 86400, 0)
  | 14 => some (1, 1, 3600, 60)
  | 15 => some (1, 500, 100000, 2000)
  | 16 => some (1, 1, 65535, 1)
  | 17 => some (1, 0, 3, 0)
  | 18 => some (1, 0, 1, 0)
  | 19 => some (1, 1, 1000, 10)
  | 20 => some (1, 3, 100000, 300)
  | 21 => some (1, 0, 100000, 200)
  | 22 => some (1, 1, 1000, 50)
  | 23 => some (1, 10, 10000, 50)
  | 24 => some (1, 1, 1000, 50)
  | 25 => some (1, 0, 64, 4)
  | 26 => some (1, 1, 4095, 16)
  | 32 => some (4, 0, 1, 0)
  | 40 => some (8, 0, 2, 0)
  | 41 => some (8, 16384, 16777216, 65536)
  | 48 => some (32, 1, 65535, 37412)
  | 49 => some (32, 1, 16384, 16384)
  | 50 => some (32, 1, 256, 64)
  | 51 => some (32, 1, 3600000, 60000)
  | 52 => some (32, 0, 1000, 20)
  | 53 => some (32, 0, 100000, 0)
  | 54 => some (32, 0, 7, 2)
  | 55 => some (32, 1, 10000000, 1000000)
  | 56 => some (32, 0, 2, 0)
  | 57 => some (32, 0, 15, 0)
  | 58 => some (32, 0, 100000, 1000)
  | 59 => some (32, 1, 255, 64)
  | 60 => some (32, 0, 16, 16)
  | 61 => some (34, 0, 255, 0)
  | 62 => some (34, 0, 1, 0)
  | 63 => some (34, 0, 2, 1)
  | 64 => some (34, -7, 4, 0)
  | 65 => some (34, 0, 15, 3)
  | 66 => some (34, 0, 20, 8)
  | 80 => some (16, 1, 512, 512)
  | 81 => some (16, 1, 2 ^ 36 - 1, 1)
  | 82 => some (16, 1, 16, 1)
  | 83 => some (16, 10, 16777216, 10000)
  | 84 => some (16, 10, 16777216, 100)
  | _ => none

def paramIds : List Nat := (List.range 85).filter fun i => (paramRow i).isSome

/-- Units of a parameter's scope in a part of n dies. -/
def paramUnits (n id : Nat) : List Nat :=
  match paramRow id with
  | some (4, _) => List.range (n / 2)
  | some (8, _) => List.range n
  | some (32, _) => List.range (4 * n)
  | some (34, _) => List.range (4 * n) ++ [32, 33]
  | some (k, _) => List.range k
  | none => []

/-- A PARAM entry: ID, INDEX, VALUE and its place in the section. -/
structure PEntry where
  id : Nat
  idx : Nat
  value : Int
  at_ : Nat
  deriving DecidableEq, Repr

def signed64 (v : Nat) : Int := if v < 2 ^ 63 then (v : Int) else (v : Int) - 2 ^ 64

/-- The entries of a PARAM section. -/
def Sec.entries (x : Sec) : List PEntry :=
  (List.range (x.len / 16)).map fun k =>
    { id := x.u (16 * k) 2, idx := x.u (16 * k + 2) 2, value := signed64 (x.u (16 * k + 8) 8), at_ := 16 * k }

/-! ### Reserved fields, step 13 -/

def maskAll (n : Nat) : List Nat := List.replicate n 255
def maskNone (n : Nat) : List Nat := List.replicate n 0
def maskWord : List Nat := maskAll 4 ++ 15 :: maskNone 3

/-- Octets of a template rule that its kind uses (R345, R414); a KIND above 4 is refused later. -/
def maskRule : Nat → List Nat
  | 0 => 255 :: maskNone 7
  | 1 => [255, 0, 0, 0, 255, 255, 0, 0]
  | 2 => [255, 255, 0, 0, 255, 255, 255, 255]
  | 3 => [255, 255, 0, 0, 255, 255, 255, 255]
  | 4 => [255, 0, 255, 255, 255, 255, 255, 255]
  | _ => maskAll 8

/-- For each octet of a section the bits that are not reserved (R400), in a part of n dies. Entries of a PARAM section are
checked by `checkEntries`. -/
def Sec.mask (n : Nat) (x : Sec) : List Nat :=
  let rows (k : Nat) (f : Nat → List Nat) : List Nat := (List.range k).flatMap f
  match x.type with
  | 1 => maskAll x.len
  | 2 =>
    let h := min (x.u 8 1) 8
    maskAll 9 ++ maskAll h ++ maskNone (8 - h) ++ maskNone 7 ++ rows h (fun _ => maskWord) ++ maskNone (8 * (8 - h)) ++
      maskAll 5 ++ maskNone 3 ++ maskAll 32 ++ [255, 255, 3, 0, 0, 0, 0, 0] ++
      rows 10 (fun _ => maskWord ++ 0xEF :: maskAll 3 ++ 15 :: maskNone 3) ++ maskAll 8 ++ 15 :: maskNone 7
  | 3 => rows (x.len / 32) fun _ => maskAll 4 ++ [15, 255, 0, 0] ++ maskAll 8 ++ maskNone 16
  | 4 => [255, 255, 11, 0] ++ maskAll 8 ++ maskNone 4 ++ rows 8 fun q =>
      if x.u (16 + 24 * q) 1 = 0 then maskNone 24
      else maskAll 8 ++ 3 :: maskAll 5 ++ maskNone 2 ++ maskAll 4 ++ maskNone 4
  | 5 =>
    let some_ (k m w : Nat) (f : List Nat) : List Nat := rows m fun i => if i < k then f else maskNone w
    maskAll 6 ++ [1, 255] ++ some_ (x.u 7 1) 16 2 [255, 15] ++ maskAll 2 ++ maskNone 6 ++ some_ (x.u 40 1) 4 4 (maskAll 4) ++
      some_ (x.u 41 1) 4 16 (maskAll 16) ++ List.replicate 256 0x8F ++ rows 240 fun i => maskRule (x.u (384 + 8 * i) 1)
  | 6 =>
    let b := min (x.u 0 2) 256
    [255, 255, 255, 0] ++ (rows 4 fun i => if i < x.u 2 1 then maskAll 6 ++ maskNone 2 else maskNone 8) ++ maskAll b ++
      maskNone (256 - b) ++ maskNone 4
  | 7 => [255, 255, 0, 0] ++ maskAll 8 ++ rows ((x.len - 12) / 2) fun _ => [255, 63]
  | 8 => [255, 255, 255, 0] ++ maskAll 8 ++ maskNone 4 ++ rows ((x.len - 16) / 80) fun _ => maskAll 72 ++ 0xF8 :: maskNone 7
  | 9 => (rows 9 fun _ => [15, 0, 255, 255]) ++ maskNone 4
  | 10 => rows 4 fun i =>
      if x.u (16 * i) 1 = 0 then maskNone 16 else maskAll 3 ++ 0 :: maskAll 6 ++ [0, 0] ++ maskAll 4
  | _ => octetsLE 16 (2 ^ (13 * n) - 1 + 0xFFF * 2 ^ 104) |>.map BitVec.toNat

/-- The first octet, counted from a, with a bit set that its mask reserves. -/
def firstBad : Nat → List Octet → List Nat → Option Nat
  | a, o :: os, m :: ms => if o &&& ~~~(BitVec.ofNat 8 m) ≠ 0 then some a else firstBad (a + 1) os ms
  | _, _, _ => none

/-- R408 for the entries of a PARAM section, in order, with their reserved octets. -/
def checkEntries (x : Sec) : List PEntry → List PEntry → Option PlanErr
  | _, [] => none
  | seen, e :: l =>
    match paramRow e.id with
    | none => x.err 14 e.at_
    | some (k, _) =>
      if k ≤ e.idx then x.err 14 (e.at_ + 2)
      else if seen.any fun f => decide (f.id = e.id) && decide (f.idx = e.idx) then x.err 14 e.at_
      else match firstBad (e.at_ + 4) ((x.data.drop (e.at_ + 4)).take 4) (maskNone 4) with
        | some a => x.err 13 a
        | none => checkEntries x (e :: seen) l

def checkReserved (n : Nat) (x : Sec) : Option PlanErr :=
  if x.type = 1 then checkEntries x [] x.entries
  else (firstBad 0 x.data (x.mask n)).bind (x.err 13)

/-- Octets of the header that are not reserved; a whole image has PART, EPOCH and BASE_GEN 0 (R403). -/
def headerMask (o : List Octet) : List Nat :=
  let part := if imageScope o = 0 then 0 else 255
  maskAll 7 ++ part :: maskAll 3 ++ 0 :: maskAll 8 ++ List.replicate 9 part ++ maskNone 3 ++ maskAll 8 ++ List.replicate 8 part ++
    1 :: maskNone 11 ++ maskAll 4

/-- Octets from a on that belong to no part of the image, with the parts in rising order. -/
def gaps : Nat → List (Nat × Nat) → List (Nat × Nat)
  | _, [] => []
  | a, (b, n) :: l => (a, b - a) :: gaps (max a (b + n)) l

/-- Inserts a part by its place. -/
def insertPlace (e : Nat × Nat) : List (Nat × Nat) → List (Nat × Nat)
  | [] => [e]
  | x :: l => if e.1 < x.1 then e :: x :: l else x :: insertPlace e l

/-- The padding of an image: places and lengths. -/
def imagePadding (o : List Octet) : List (Nat × Nat) :=
  let places := (imagePlaces o).foldl (fun l e => insertPlace (e.2.1, e.2.2) l) []
  gaps (imageDirEnd o + 4) (places ++ [(imageBody o, 0)])

def checkPadding (o : List Octet) : Option PlanErr :=
  let bad := (imagePadding o).filterMap fun e => firstBad e.1 ((o.drop e.1).take e.2) (maskNone e.2)
  match bad with
  | a :: _ => hdrErr 13 a
  | [] =>
    if imageSigned o then (firstBad (imageBody o + 1) ((o.drop (imageBody o + 1)).take 7) (maskNone 7)).bind (hdrErr 13)
    else none

/-- Step 13. -/
def checkFields (n : Nat) (o : List Octet) (l : List Sec) : Option PlanErr :=
  firstErr ((firstBad 0 (o.take 64) (headerMask o)).bind (hdrErr 13) :: l.map (checkReserved n) ++ [checkPadding o])

/-- Steps 1 to 13. -/
def checkFormat (f : Fuses) (o : List Octet) : Option PlanErr :=
  match checkHeader f o with
  | some e => some e
  | none => match checkDirectory o with
    | some e => some e
    | none =>
      let l := imageSecs o
      firstErr ((l.map fun x => failIf (decide (x.crc ≠ (crc32c x.data).toNat)) (x.dirErr 10 12)) ++
        [checkTypes [] l] ++ (l.map fun x => failIf (!x.lengthOk) (x.dirErr 12 8)) ++ [checkFields (partDies f.partCode) o l])

/-! ### Values and clamps, step 14 -/

def within (lo hi v : Int) : Int := max lo (min hi v)

/-- The value of a parameter that depends on no other: given by an entry, or its default. -/
def rawParam (ents : List PEntry) (dflt : Nat → Nat → Int) (id idx : Nat) : Int :=
  match ents.find? fun e => decide (e.id = id) && decide (e.idx = idx) with
  | some e => e.value
  | none => dflt id idx

/-- Limits of a parameter, given the values before it (R409). -/
def paramLimits (ents : List PEntry) (dflt : Nat → Nat → Int) (id idx : Nat) : Int × Int :=
  let row (i : Nat) : Int × Int := match paramRow i with
    | some (_, lo, hi, _) => (lo, hi)
    | none => (0, 0)
  let plain (i : Nat) : Int := within (row i).1 (row i).2 (rawParam ents dflt i idx)
  match id with
  | 20 => (3 * plain 19, 100000)
  | 84 => (10, plain 83)
  | _ => row id

/-- The effective value of a parameter. -/
def paramValue (ents : List PEntry) (dflt : Nat → Nat → Int) (id idx : Nat) : Int :=
  let l := paramLimits ents dflt id idx
  within l.1 l.2 (rawParam ents dflt id idx)

/-- Defaults of R408; PAIR_MODE's is the strap. -/
def paramDefault (tandem : Bool) (id _idx : Nat) : Int :=
  if id = 32 then (if tandem then 1 else 0)
  else match paramRow id with
    | some (_, _, _, d) => d
    | none => 0

/-- Clamped values of a PARAM section: the offsets of their VALUE fields. -/
def Sec.paramClamps (x : Sec) (dflt : Nat → Nat → Int) : List Nat :=
  (x.entries.filter fun e => decide (paramValue x.entries dflt e.id e.idx ≠ e.value)).map fun e => x.off + e.at_ + 8

/-- A quantity of n octets at a, brought within its limits. -/
def Sec.lim (x : Sec) (a n lo hi : Nat) : Nat := min (max (x.u a n) lo) hi

/-- The quantities of a section that are not single bits or parameters: place, octets, limits. -/
def Sec.limits (x : Sec) : List (Nat × Nat × Nat × Nat) :=
  match x.type with
  | 4 => (List.range 8).flatMap fun q =>
      let a := 16 + 24 * q
      if x.u a 1 = 0 then []
      else [(a + 2, 1, 6, 18), (a + 3, 1, 0, 15), (a + 12, 2, 0, 2047), (a + 16, 4, 0, 2 ^ x.lim (a + 2) 1 6 18)]
  | 3 => (List.range (x.len / 32)).map fun i => (32 * i + 5, 1, 0, 15)
  | 5 => [(7, 1, 0, 16), (40, 1, 0, 4), (41, 1, 0, 4)] ++ (List.range 240).flatMap fun i =>
      let a := 384 + 8 * i
      match x.u a 1 with
      | 0 => []
      | 1 => [(a + 4, 2, 0, 9215)]
      | _ => [(a + 4, 2, 0, 9215), (a + 6, 2, 0, 9215)]
  | 6 => [(0, 2, 0, 256), (2, 1, 0, 4)] ++ (List.range (x.lim 2 1 0 4)).map fun i =>
      (6 + 8 * i, 2, 0, x.lim 0 2 0 256 - x.u (8 + 8 * i) 2)
  | _ => []

/-- Offsets of the clamped quantities of a section. -/
def Sec.clamps (x : Sec) : List Nat :=
  (x.limits.filter fun e => decide (x.lim e.1 e.2.1 e.2.2.1 e.2.2.2 ≠ x.u e.1 e.2.1)).map fun e => x.off + e.1

/-- Bits of a POWER mask after R420 and R459, given the clusters of partitions. -/
def powerMask (m owned : Nat) : BitVec 128 :=
  let off := (List.range 64).foldl (fun (a : BitVec 128) b =>
    if owned.testBit b then a else a &&& ~~~(1#128 <<< (13 * (b / 8) + b % 8))) (BitVec.ofNat 128 m)
  off ||| (1#128 <<< 104)

def Sec.powerClamps (x : Sec) (owned : Nat) : List Nat :=
  ((List.range 128).filter fun b => (powerMask (x.u 0 16) owned).getLsbD b != (x.u 0 16).testBit b).map fun b => x.off + b / 8

/-! ### Decoding sections (R410 to R420) -/

def Sec.word36 (x : Sec) (a : Nat) : Word := BitVec.ofNat 36 (x.u a 8)
/-- Octets stored in the order of the wire. -/
def Sec.wire (x : Sec) (a n : Nat) : Nat := beAt x.data a n

def Sec.part (x : Sec) : PlanPart :=
  let h := min (x.u 8 1) 8
  { clusters := BitVec.ofNat 64 (x.u 0 8),
    homes := (List.range h).map fun k => x.u (9 + k) 1,
    vbase := (List.range h).map fun k => x.word36 (24 + 8 * k),
    ptRoot := x.u 88 8,
    admitDie := (List.range 32).map fun n => x.u (96 + n) 1,
    excEntry := BitVec.ofNat 36 (x.u 128 8),
    kx := (List.range 10).map fun i => { w0 := x.word36 (136 + 16 * i), w1 := x.word36 (144 + 16 * i) },
    hfirst := x.u 296 4, hlast := x.u 300 4, hflags := BitVec.ofNat 4 (x.u 304 1) }

def Sec.regions (x : Sec) : List Region :=
  (List.range (x.len / 32)).map fun i =>
    let a := 32 * i
    { part := x.u a 1, die := x.u (a + 1) 1, slot := x.u (a + 2) 1, kind := x.u (a + 3) 1, flags := BitVec.ofNat 4 (x.u (a + 4) 1),
      key := x.lim (a + 5) 1 0 15, first := x.u (a + 8) 4, last := x.u (a + 12) 4 }

def Sec.qarea (x : Sec) : PlanQArea :=
  { part := x.inst % 16, die := x.inst / 16, flags := x.u 2 1, first := x.u 4 4, last := x.u 8 4,
    qs := (List.range 8).map fun q =>
      let a := 16 + 24 * q
      if x.u a 1 = 0 then
        { en := 0, form := 0, size := 0, tmpl := 0, base := 0, iflags := 0, idie := 0, icluster := 0, cores := 0, vector := 0,
          thresh := 0 }
      else
        { en := x.u a 1, form := x.u (a + 1) 1, size := x.lim (a + 2) 1 6 18, tmpl := x.lim (a + 3) 1 0 15, base := x.u (a + 4) 4,
          iflags := x.u (a + 8) 1, idie := x.u (a + 9) 1, icluster := x.u (a + 10) 1, cores := x.u (a + 11) 1,
          vector := x.lim (a + 12) 2 0 2047, thresh := x.lim (a + 16) 4 0 (2 ^ x.lim (a + 2) 1 6 18) } }

def Sec.rule (x : Sec) (a : Nat) : TRule :=
  { kind := x.u a 1, value := x.u (a + 1) 1, low := x.u (a + 2) 1, high := x.u (a + 3) 1, lo := x.lim (a + 4) 2 0 9215,
    hi := x.lim (a + 6) 2 0 9215 }

def Sec.port (x : Sec) : PlanPort :=
  { mac := x.wire 0 6, untagged := x.u 6 1 % 2 = 1,
    vids := (List.range (x.lim 7 1 0 16)).map fun i => x.u (8 + 2 * i) 2 % 4096,
    v4 := (List.range (x.lim 40 1 0 4)).map fun i => x.wire (48 + 4 * i) 4,
    v6 := (List.range (x.lim 41 1 0 4)).map fun i => x.wire (64 + 16 * i) 16,
    steer := (List.range 256).map fun i => x.u (128 + i) 1,
    templates := (List.range 15).map fun t => (List.range 16).map fun r => x.rule (384 + 128 * t + 8 * r) }

def Sec.standin (x : Sec) : PlanStandin :=
  let n := x.lim 0 2 0 256
  { body := (x.data.drop 36).take n,
    echo := (List.range (x.lim 2 1 0 4)).map fun i =>
      let a := 4 + 8 * i
      (x.u a 2, min (x.u (a + 2) 2) (n - x.u (a + 4) 2), x.u (a + 4) 2) }

/-- Syllables of a list of octets (R399). -/
def syllsOf : List Octet → List Syll
  | a :: b :: l => BitVec.ofNat 14 (a.toNat + 256 * b.toNat) :: syllsOf l
  | _ => []

def Sec.code (x : Sec) : PlanCode :=
  { die := x.u 0 1, cluster := x.u 1 1, start := x.u 4 4, sylls := syllsOf (x.data.drop 12) }

/-- The 64 characters of 72 octets (R417). -/
def charsOfOctets (o : List Octet) : List Chr :=
  let v := ofOctetsBE o
  (List.range 64).map fun k => BitVec.ofNat 9 (v / 2 ^ (9 * (63 - k)))

/-- Lines of 80 octets. -/
def linesOf : Nat → List Octet → List PlanLine
  | 0, _ => []
  | n + 1, o =>
    let m := leAt o 72 1
    { chars := charsOfOctets (o.take 72), key := m / 16, capline := m.testBit 3 } :: linesOf n (o.drop 80)

def Sec.lines (x : Sec) : PlanData :=
  { inst := x.inst, target := x.u 0 1, die := x.u 1 1, cluster := x.u 2 1, line := x.u 4 4,
    lines := linesOf ((x.len - 16) / 80) (x.data.drop 16) }

def Sec.hubGate (x : Sec) : List (BitVec 4 × BitVec 16) :=
  (List.range 9).map fun i => (BitVec.ofNat 4 (x.u (4 * i) 1), BitVec.ofNat 16 (x.u (4 * i + 2) 2))

def Sec.members (x : Sec) : List PlanMember :=
  (List.range 4).map fun i =>
    let a := 16 * i
    { valid := x.u a 1 ≠ 0, primary := x.u (a + 1) 1, secondary := x.u (a + 2) 1, mac := x.wire (a + 4) 6, outer := x.u (a + 12) 2,
      inner := x.u (a + 14) 2 }

/-- The sections of one type. -/
def ofType (l : List Sec) (t : Nat) : List Sec := l.filter fun x => decide (x.type = t)
/-- The entries of all PARAM sections (there is one at most). -/
def paramEntries (l : List Sec) : List PEntry := (ofType l 1).flatMap Sec.entries

end Sys2Proof.Machine
end

