-- ==== Sys2Proof/Machine/PlanCheck.lean ====
section
/-! DEFINITION. Plans from images: the whole plan and the plan that a partial image leads to (R406, R421, R422), and the checks of
steps 14 to 17 of R427. -/

namespace Sys2Proof.Machine

/-! ### Plans -/

/-- A whole image's plan, in a part of n dies. -/
def wholePlan (n : Nat) (tandem : Bool) (gen : Nat) (l : List Sec) : Plan :=
  let ents := paramEntries l
  let owned := (ofType l 2).foldl (fun a x => a ||| x.u 0 8) 0
  { gen := gen,
    params := paramIds.flatMap fun id => (paramUnits n id).map fun k =>
      (64 * id + k, paramValue ents (paramDefault tandem) id k),
    parts := (ofType l 2).map fun x => (x.inst, x.part),
    regions := (ofType l 3).flatMap Sec.regions,
    queues := (ofType l 4).map fun x => (x.inst, x.qarea),
    ports := (ofType l 5).map fun x => (x.inst, x.port),
    standins := (ofType l 6).map fun x => (x.inst, x.standin),
    codes := (ofType l 7).map Sec.code,
    datas := (ofType l 8).map Sec.lines,
    hubGate := (ofType l 9).flatMap Sec.hubGate,
    mirror := (ofType l 10).flatMap Sec.members,
    power := ((ofType l 11).map fun x => powerMask (x.u 0 16) owned).head?,
    accounts := ents.foldl (fun a e => if e.id = 81 then a ||| (1#16 <<< e.idx) else a) 0 }

/-- Offsets of the clamped values of an image. -/
def imageClamps (dflt : Nat → Nat → Int) (l : List Sec) : List Nat :=
  let owned := (ofType l 2).foldl (fun a x => a ||| x.u 0 8) 0
  l.flatMap fun x =>
    if x.type = 1 then x.paramClamps dflt else if x.type = 11 then x.powerClamps owned else x.clamps

def Plan.param (pl : Plan) (id idx : Nat) : Int :=
  match pl.params.find? fun e => decide (e.1 = 64 * id + idx) with
  | some e => e.2
  | none => 0

def Plan.part (pl : Plan) (p : Nat) : PlanPart :=
  match pl.parts.find? fun e => decide (e.1 = p) with
  | some e => e.2
  | none => .reset

/-- Puts an entry in place of the one of its key, keeping the keys in order. -/
def putEntry {α : Type} (k : Nat) (v : α) : List (Nat × α) → List (Nat × α)
  | [] => [(k, v)]
  | e :: l => if e.1 = k then (k, v) :: l else if k < e.1 then (k, v) :: e :: l else e :: putEntry k v l

def Region.sameSlot (a b : Region) : Bool := decide (a.die = b.die) && decide (a.slot = b.slot)
def Region.locked (r : Region) : Bool := r.flags.getLsbD 3

/-- Regions of p after a partial image with this list: a locked slot keeps its rule (R321, R422). -/
def newRegions (old new : List Region) (p : Nat) : List Region :=
  let mine := old.filter fun r => decide (r.part = p)
  let kept := (mine.filter Region.locked).map fun r => match new.find? r.sameSlot with
    | some x => { r with key := x.key }
    | none => r
  old.filter (fun r => decide (r.part ≠ p)) ++ kept ++ new.filter fun r => !kept.any r.sameSlot

/-- Regions of an image that its plan adds: p held their slots before under no region. -/
def addedRegions (old : List Region) (l : List Sec) : List Region :=
  ((ofType l 3).flatMap Sec.regions).filter fun r => !old.any r.sameSlot

/-- Line n of die d, or of its tandem partner where tandem holds, lies in the region. -/
def Region.holds (r : Region) (n : Nat) : Bool := decide (r.first ≤ n) && decide (n ≤ r.last)

/-- Clusters that the plan gives p and the old one does not. -/
def addedClusters (old new : PlanPart) : BitVec 64 := new.clusters &&& ~~~old.clusters

/-- What a DATA section writes still belongs to the plan. -/
def PlanData.keeps (x : PlanData) (regions : List Region) (clusters : BitVec 64) : Bool :=
  if x.target = 0 then (List.range x.lines.length).all fun j => regions.any fun r => decide (r.die = x.die) && r.holds (x.line + j)
  else clusters.getLsbD (8 * x.die + x.cluster)

/-- The lowest INSTANCE from n that no DATA section of the list has. -/
def freeInst (l : List PlanData) (n : Nat) : Nat → Nat
  | 0 => n
  | k + 1 => if l.any fun x => decide (x.inst = n) then freeInst l (n + 1) k else n

/-- DATA sections of a partial image join those of the plan; an INSTANCE already in use gives way to a free one. -/
def joinDatas (old new : List PlanData) : List PlanData :=
  new.foldl (fun l x => if l.any fun y => decide (y.inst = x.inst) then l ++ [{ x with inst := freeInst l 0 l.length }] else l ++ [x])
    old

/-- The plan that a partial image of partition p leads to. Parameters that the image does not set stay. -/
def partialPlan (old : Plan) (p gen : Nat) (l : List Sec) : Plan :=
  let ents := paramEntries l
  let o := old.part p
  let n := match ofType l 2 with
    | x :: _ => x.part
    | [] => o
  let n := if o.hflags.getLsbD 3 then { n with hfirst := o.hfirst, hlast := o.hlast, hflags := o.hflags } else n
  let imgRegions := (ofType l 3).flatMap Sec.regions
  let regions := if (ofType l 3).isEmpty then old.regions else newRegions old.regions imgRegions p
  let parts := putEntry p n old.parts
  let clusters := parts.foldl (fun a e => a ||| e.2.clusters) 0
  let stay := old.regions.filter fun r => decide (r ∈ regions) || regions.any fun x =>
    x.sameSlot r && decide (x.first = r.first) && decide (x.last = r.last) && decide (x.kind = r.kind)
  { old with
    gen := gen,
    params := old.params.map fun e =>
      if 80 ≤ e.1 / 64 ∧ e.1 % 64 = p then (e.1, paramValue ents old.param (e.1 / 64) p) else e,
    parts := parts,
    regions := regions,
    queues := (ofType l 4).foldl (fun m x =>
      let a := x.qarea
      let a := match old.queues.find? fun e => decide (e.1 = x.inst) with
        | some e => if e.2.flags.testBit 3 then { a with flags := e.2.flags } else a
        | none => a
      putEntry x.inst a m) old.queues,
    standins := (ofType l 6).foldl (fun m x => putEntry x.inst x.standin m) old.standins,
    codes := (old.codes.filter fun c =>
        clusters.getLsbD (8 * c.die + c.cluster) && !(ofType l 7).any fun x => decide (x.inst = 8 * c.die + c.cluster)) ++
      (ofType l 7).map Sec.code,
    datas := joinDatas (old.datas.filter fun x => x.keeps stay clusters && !(x.target = 1 &&
        (addedClusters o n).getLsbD (8 * x.die + x.cluster))) ((ofType l 8).map Sec.lines),
    accounts := ents.foldl (fun a e => if e.id = 81 then a ||| (1#16 <<< e.idx) else a) old.accounts }

def State.effPlan (s : State) : Plan := s.h.plan.eff.getD .empty
/-- The state with this plan in force, to read its rules by. -/
def State.withPlan (s : State) (pl : Plan) : State := s.updPlan fun x => { x with eff := some pl }

/-- The plan of an image that has passed step 13. -/
def State.planOf (s : State) (o : List Octet) : Plan :=
  let l := imageSecs o
  if imageScope o = 0 then wholePlan (partDies s.h.fuses.partCode) s.h.pwr.straps.tandem (imageGen o) l
  else partialPlan s.effPlan (imagePart o) (imageGen o) l

/-- The offsets of its clamped values. -/
def State.clampsOf (s : State) (o : List Octet) : List Nat :=
  imageClamps (if imageScope o = 0 then paramDefault s.h.pwr.straps.tandem else s.effPlan.param) (imageSecs o)

/-! ### Errors -/

/-- A failing field of a section of this TYPE and INSTANCE, where the image has one. -/
def fieldErr (l : List Sec) (reason type inst a : Nat) : Option PlanErr :=
  match l.find? fun x => decide (x.type = type) && decide (x.inst = inst) with
  | some x => x.err reason a
  | none => some { reason := reason, section_ := 0, hdr := false, off := none }

/-- A failing field of a region's entry. -/
def regionErr (l : List Sec) (reason : Nat) (r : Region) (a : Nat) : Option PlanErr :=
  match (ofType l 3).head? with
  | some x =>
    let i := x.regions.findIdx fun y => y.sameSlot r && decide (y.first = r.first)
    if i < x.regions.length then x.err reason (32 * i + a) else fieldErr [] reason 3 0 0
  | none => fieldErr [] reason 3 0 0

/-- The VALUE of a parameter. -/
def paramErr (l : List Sec) (reason id idx : Nat) : Option PlanErr :=
  match (ofType l 1).head? with
  | some x => match x.entries.find? fun e => decide (e.id = id) && decide (e.idx = idx) with
    | some e => x.err reason (e.at_ + 8)
    | none => fieldErr [] reason 1 0 0
  | none => fieldErr [] reason 1 0 0

/-! ### Required parameters, step 14 -/

/-- A missing parameter: no field can be named; SECTION is that of PARAM, where there is one. -/
def missingErr (l : List Sec) : Option PlanErr :=
  some { reason := 15, section_ := (((ofType l 1).map Sec.idx).head?).getD 0, hdr := false, off := none }

def checkMissing (pl : Plan) (partial_ : Bool) (l : List Sec) : Option PlanErr :=
  let noGroup := !partial_ && decide (pl.param 1 0 ≠ 0) && !(paramEntries l).any fun e => decide (e.id = 16)
  let noAccounts := pl.parts.any fun e => decide (e.2.clusters ≠ 0) && !pl.accounts.getLsbD e.1
  failIf (noGroup || noAccounts) (missingErr l)

/-! ### Scope of a partial image, step 15 (R406, R422) -/

def bitsIn (a b : BitVec 64) : Bool := decide (a &&& ~~~b = 0)

/-- Step 15 for a partial image of partition p, against the plan in force. -/
def State.checkScope (s : State) (p : Nat) (l : List Sec) : Option PlanErr :=
  let old := s.effPlan
  let o := old.part p
  let others : BitVec 64 := (old.parts.filter fun e => decide (e.1 ≠ p)).foldl (fun a e => a ||| e.2.clusters) 0
  let retired (b : Nat) : Bool := (s.cluster b).retired
  let ents := paramEntries l
  let holds := decide (o.clusters ≠ 0)
  let typeErrs := l.map fun x => failIf (decide (x.type ∈ [5, 9, 10, 11])) (x.dirErr 17 0)
  let noPart := failIf (ofType l 2).isEmpty (fieldErr [] 17 2 p 0)
  let otherPart := l.map fun x =>
    failIf ((decide (x.type = 2 ∨ x.type = 6) && decide (x.inst ≠ p)) || (decide (x.type = 4) && decide (x.inst % 16 ≠ p)))
      (x.dirErr 17 2)
  let params := (ofType l 1).flatMap fun x => x.entries.flatMap fun e =>
    [failIf (decide (e.id < 80)) (x.err 17 e.at_), failIf (decide (e.idx ≠ p)) (x.err 17 (e.at_ + 2))]
  let regionPart := (ofType l 3).flatMap fun x => x.regions.zipIdx.map fun r => failIf (decide (r.1.part ≠ p)) (x.err 17 (32 * r.2))
  let parts := (ofType l 2).flatMap fun x =>
    let n := x.part
    let added := addedClusters o n
    let removed := addedClusters n o
    [failIf (!decide (added &&& others = 0) || (List.range 64).any fun b => removed.getLsbD b && !retired b) (x.err 17 0),
      failIf (holds && decide (x.u 8 1 ≠ o.homes.length)) (x.err 17 8),
      failIf (holds && decide (n.homes ≠ o.homes)) (x.err 17 9),
      failIf (holds && decide (n.vbase ≠ o.vbase)) (x.err 17 24),
      failIf (holds && decide (paramValue ents old.param 82 p ≠ old.param 82 p)) (paramErr l 17 82 p),
      failIf (holds && decide (n.ptRoot ≠ o.ptRoot)) (x.err 17 88)]
  let accounts := failIf (decide (paramValue ents old.param 81 p < old.param 81 p)) (paramErr l 17 81 p)
  let regions := (ofType l 3).flatMap fun x => x.regions.zipIdx.map fun e =>
    let r := e.1
    match old.regions.find? r.sameSlot with
    | none => none
    | some q =>
      if q.part ≠ p then x.err 17 (32 * e.2 + 2)
      else if q.locked then none
      else if r.kind ≠ q.kind then x.err 17 (32 * e.2 + 3)
      else if r.locked then x.err 17 (32 * e.2 + 4)
      else if r.first ≠ q.first then x.err 17 (32 * e.2 + 8)
      else failIf (decide (r.last ≠ q.last)) (x.err 17 (32 * e.2 + 12))
  let queues := (ofType l 4).flatMap fun x =>
    match old.queues.find? fun e => decide (e.1 = x.inst) with
    | none => []
    | some (_, q) =>
      let a := x.qarea
      [failIf (decide (a.flags ≠ q.flags) && !q.flags.testBit 3) (x.err 17 2), failIf (decide (a.first ≠ q.first)) (x.err 17 4),
        failIf (decide (a.last ≠ q.last)) (x.err 17 8)] ++ (a.qs.zip q.qs).zipIdx.flatMap fun e =>
          let n := e.1.1
          let m := e.1.2
          let b := 16 + 24 * e.2
          if m.en = 0 then []
          else [failIf (decide (n.en ≠ m.en)) (x.err 17 b), failIf (decide (n.form ≠ m.form)) (x.err 17 (b + 1)),
            failIf (decide (n.size ≠ m.size)) (x.err 17 (b + 2)), failIf (decide (n.tmpl ≠ m.tmpl)) (x.err 17 (b + 3)),
            failIf (decide (n.base ≠ m.base)) (x.err 17 (b + 4))]
  let n := match ofType l 2 with
    | x :: _ => x.part
    | [] => o
  let added := addedClusters o n
  let codes := (ofType l 7).map fun x => failIf (!added.getLsbD x.inst) (x.dirErr 17 2)
  let datas := (ofType l 8).map fun x => failIf (!x.lines.keeps (addedRegions old.regions l) added) (x.err 17 4)
  firstErr (typeErrs ++ [noPart] ++ otherPart ++ params ++ regionPart ++ parts ++ [accounts] ++ regions ++ queues ++ codes ++ datas)

/-! ### Structure, step 16 (R421). s has the plan in force that the image leads to; l are the image's sections -/

/-- Lines first to last of die d lie in one region of this kind, of partition p if one is given. -/
def State.inRegion (s : State) (p : Option Nat) (kind d first last : Nat) : Bool :=
  s.regions.any fun r => decide (r.kind = kind) && (match p with
      | some p => decide (r.part = p)
      | none => true) && r.holds first && r.holds last &&
    (decide (r.die = d) || (decide (s.tandemOf r.part = some (d / 2)) && decide (r.die / 2 = d / 2)))

/-- Dies on which a region or queue area of partition p named for die d exists (R411, R412). -/
def State.copies (s : State) (p d : Nat) : List Nat :=
  if s.tandemOf p = some (d / 2) then [d / 2 * 2, d / 2 * 2 + 1] else [d]

/-- A table at this physical address (R298). -/
def State.tableOk (s : State) (p pa : Nat) : Bool :=
  let l := pa % 2 ^ 34 / 64
  decide (pa % 4096 = 0) && decide (pa < 2 ^ 37) && s.inRegion (some p) 0 (pa / 2 ^ 34) l (l + 63)

/-- A failing INSTANCE; no field can be named where the image does not carry the section. -/
def instErr (l : List Sec) (reason type inst : Nat) : Option PlanErr :=
  match l.find? fun x => decide (x.type = type) && decide (x.inst = inst) with
  | some x => x.dirErr reason 2
  | none => fieldErr l reason type inst 0

/-- R21 and R408: nothing in the plan that results names an absent or fenced die, or a retired cluster. -/
def State.checkAbsent (s : State) (pl : Plan) (l : List Sec) : List (Option PlanErr) :=
  let n := partDies s.h.fuses.partCode
  let gone (d : Nat) : Bool := !s.alive d
  let params := (ofType l 1).flatMap fun x => x.entries.map fun e =>
    failIf (decide (e.idx ∉ paramUnits n e.id)) (x.err 16 (e.at_ + 2))
  let source (kind port : Nat) : Option PlanErr :=
    failIf (decide (s.paramN kind 0 0 = 1) && gone (s.paramN port 0 0 / 4)) (paramErr l 16 port 0)
  let parts := pl.parts.flatMap fun p =>
    let q := p.2
    let err (a : Nat) : Option PlanErr := fieldErr l 16 2 p.1 a
    failIf ((List.range 64).any fun b => q.clusters.getLsbD b && (gone (b / 8) || (s.cluster b).retired)) (err 0) ::
      q.homes.zipIdx.map (fun e => failIf (gone e.1) (err (9 + e.2))) ++
      failIf (decide (q.clusters ≠ 0) && decide (q.ptRoot < 2 ^ 37) && gone (q.ptRoot / 2 ^ 34)) (err 88) ::
      q.admitDie.zipIdx.map fun e => failIf (decide (e.1 ≠ 0xFF) && gone e.1) (err (96 + e.2))
  let regions := pl.regions.map fun r => failIf (gone r.die) (regionErr l 16 r 1)
  let queues := pl.queues.flatMap fun x =>
    failIf (gone x.2.die) (instErr l 16 4 x.1) :: x.2.qs.zipIdx.map fun e =>
      failIf (decide (e.1.en ≠ 0) && gone e.1.idie) (fieldErr l 16 4 x.1 (16 + 24 * e.2 + 9))
  let ports := pl.ports.map fun x => failIf (gone (x.1 / 4)) (instErr l 16 5 x.1)
  let codes := pl.codes.map fun x => failIf (gone x.die) (instErr l 16 7 (8 * x.die + x.cluster))
  let datas := pl.datas.map fun x => failIf (gone x.die) (fieldErr l 16 8 x.inst 1)
  params ++ [source 2 3, source 4 5] ++ parts ++ regions ++ queues ++ ports ++ codes ++ datas

/-- A tandem partition uses only dies of its pair (R25). -/
def State.checkPair (s : State) (pl : Plan) (l : List Sec) : List (Option PlanErr) :=
  let out (p d : Nat) : Bool := match s.tandemOf p with
    | none => false
    | some k => decide (d / 2 ≠ k)
  let parts := pl.parts.flatMap fun e =>
    e.2.homes.zipIdx.map (fun h => failIf (out e.1 h.1) (fieldErr l 16 2 e.1 (9 + h.2))) ++
      [failIf (out e.1 (e.2.ptRoot / 2 ^ 34)) (fieldErr l 16 2 e.1 88)]
  parts ++ pl.regions.map (fun r => failIf (out r.part r.die) (regionErr l 16 r 1)) ++
    pl.queues.map fun q => failIf (out q.2.part q.2.die) (instErr l 16 4 q.1)

/-- R25: a cluster belongs to one partition; a tandem partition keeps to its pair, the same clusters on both dies. -/
def State.checkClusters (s : State) (pl : Plan) (l : List Sec) : List (Option PlanErr) :=
  s.checkPair pl l ++ pl.parts.zipIdx.map fun e =>
    let q := e.1.2
    let before : BitVec 64 := (pl.parts.take e.2).foldl (fun a x => a ||| x.2.clusters) 0
    let pairOk := match s.tandemOf e.1.1 with
      | none => true
      | some k =>
        let lo := BitVec.extractLsb' (16 * k) 8 q.clusters
        let hi := BitVec.extractLsb' (16 * k + 8) 8 q.clusters
        decide (lo = hi) && bitsIn q.clusters (0xFFFF#64 <<< (16 * k))
    failIf (!decide (q.clusters &&& before = 0) || !pairOk) (fieldErr l 16 2 e.1.1 0)

/-- R27, R413, R414: every port that is named exists. -/
def State.checkPorts (s : State) (pl : Plan) (l : List Sec) : List (Option PlanErr) :=
  let here (n : Nat) : Bool := s.portExists n && s.alive (n / 4)
  let ports := (ofType l 5).flatMap fun x =>
    failIf (!here x.inst) (x.dirErr 16 2) :: (List.range 240).map fun i => failIf (decide (4 < x.u (384 + 8 * i) 1)) (x.err 16 (384 + 8 * i))
  let source (kind port : Nat) : Option PlanErr :=
    let k := s.paramN kind 0 0
    let n := s.param port 0 0
    let bad := if k = 1 then decide (n < 0) || !here n.toNat else decide (k = 2) && !(decide (n = 0) || decide (n = 1))
    failIf bad (paramErr l 16 port 0)
  let admits := pl.parts.flatMap fun e => e.2.admitDie.zipIdx.map fun a =>
    failIf (decide (a.1 ≠ 0xFF) && !s.portExists a.2) (fieldErr l 16 2 e.1 (96 + a.2))
  let queues := pl.queues.flatMap fun e => e.2.qs.zipIdx.map fun q =>
    failIf (decide (4 ≤ q.2) && decide (q.1.en ≠ 0) && !s.portExists (4 * e.2.die + q.2 - 4)) (fieldErr l 16 4 e.1 (16 + 24 * q.2))
  ports ++ [source 2 3, source 4 5] ++ admits ++ queues

/-- Partition p's queue q on die d is enabled; in tandem mode the lower die's section sets both dies (R412). -/
def State.planQueueOn (s : State) (pl : Plan) (d p q : Nat) : Bool :=
  pl.queues.any fun e => decide (e.2.part = p) && decide (d ∈ s.copies p e.2.die) &&
    (match e.2.qs[q]? with
      | some x => decide (x.en ≠ 0)
      | none => false)

/-- R109: admit dies. -/
def State.checkAdmit (s : State) (pl : Plan) (l : List Sec) : List (Option PlanErr) :=
  pl.parts.flatMap fun e =>
    let p := e.1
    let q := e.2
    let ok (n a : Nat) : Bool :=
      decide (a < 8) && (List.range 8).any (fun c => q.clusters.getLsbD (8 * a + c)) && s.planQueueOn pl a p 0 &&
        s.planQueueOn pl (n / 4) p (4 + n % 4) &&
        (match s.tandemOf p with
          | some k => decide (a = 2 * k) && decide (n / 8 = k)
          | none => true)
    (q.admitDie.zipIdx.map fun a => failIf (decide (a.1 ≠ 0xFF) && !ok a.2 a.1) (fieldErr l 16 2 p (96 + a.2))) ++
      [failIf (decide (q.clusters ≠ 0) && q.admitDie.all fun a => decide (a = 0xFF)) (fieldErr l 16 2 p 96)]

/-- R114: home dies and virtual bases. -/
def State.checkHomes (s : State) (pl : Plan) (l : List Sec) : List (Option PlanErr) :=
  pl.parts.flatMap fun e =>
    let p := e.1
    let q := e.2
    let h := match l.find? fun x => decide (x.type = 2) && decide (x.inst = p) with
      | some x => x.u 8 1
      | none => q.homes.length
    failIf (if q.clusters = 0 then decide (h ≠ 0) else decide (h = 0) || decide (8 < h)) (fieldErr l 16 2 p 8) ::
      (q.homes.zipIdx.map fun d =>
        failIf (!s.regions.any fun r => decide (r.part = p) && decide (r.kind = 1) && decide (d.1 ∈ s.copies p r.die))
          (fieldErr l 16 2 p (9 + d.2))) ++
      q.vbase.zipIdx.map fun v => failIf (decide (v.1.toNat % 65536 ≠ 0)) (fieldErr l 16 2 p (24 + 8 * v.2))

/-- R298: PT_ROOT, and every first-level TABLE that a DATA section writes. -/
def State.checkTables (s : State) (pl : Plan) (l : List Sec) : List (Option PlanErr) :=
  pl.parts.flatMap fun e =>
    let p := e.1
    let root := e.2.ptRoot
    if e.2.clusters = 0 then []
    else failIf (!s.tableOk p root) (fieldErr l 16 2 p 88) :: pl.datas.flatMap fun x =>
      if x.target ≠ 0 ∨ x.die ≠ root / 2 ^ 34 then []
      else
        let first := root % 2 ^ 34 / 64
        x.lines.zipIdx.map fun y =>
          let n := x.line + y.2
          let bad := (wordsOfChars y.1.chars).any fun w =>
            BitVec'.at' w 0 && decide (BitVec'.pos w 5 3 = 0) && !s.tableOk p ((BitVec'.pos w 8 28).toNat * 2 ^ 12)
          failIf (decide (first ≤ n) && decide (n ≤ first + 63) && bad) (fieldErr l 16 8 x.inst (16 + 80 * y.2))

/-- Pairs of a list, each with those before it. -/
def withBefore {α : Type} (l : List α) : List (α × List α) := l.zipIdx.map fun e => (e.1, l.take e.2)

def overlap (a b c d : Nat) : Bool := decide (a ≤ d) && decide (c ≤ b)

/-- R310: gates. -/
def State.checkGates (s : State) (pl : Plan) (l : List Sec) : List (Option PlanErr) :=
  let shared (a b : List Nat) : Bool := a.any fun d => decide (d ∈ b)
  let regions := (withBefore pl.regions).flatMap fun e =>
    let r := e.1
    let on (x : Region) : List Nat := s.copies x.part x.die
    [failIf (decide (63 < r.slot)) (regionErr l 16 r 2),
      failIf (decide (r.last < r.first) || decide (2 ^ 28 ≤ r.last)) (regionErr l 16 r 8),
      failIf (decide (2 < r.kind)) (regionErr l 16 r 3),
      failIf (decide (15 < r.part) || decide ((pl.part r.part).clusters = 0)) (regionErr l 16 r 0),
      failIf (e.2.any fun q => shared (on q) (on r) && overlap q.first q.last r.first r.last) (regionErr l 16 r 8)]
  let areas := (withBefore pl.queues).flatMap fun e =>
    let (n, a) := e.1
    [failIf (decide (a.last < a.first) || decide (65536 ≤ a.last)) (fieldErr l 16 4 n 4),
      failIf (e.2.any fun b => shared (s.copies b.2.part b.2.die) (s.copies a.part a.die) && overlap b.2.first b.2.last a.first a.last)
        (fieldErr l 16 4 n 4)]
  let hosts := (withBefore pl.parts).flatMap fun e =>
    let (p, q) := e.1
    let en (x : PlanPart) : Bool := x.hflags.getLsbD 0
    let held (x : PlanPart) : Bool := en x || x.hflags.getLsbD 3
    [failIf (decide (q.hlast < q.hfirst) || decide (2 ^ 31 ≤ q.hlast)) (fieldErr l 16 2 p 296),
      failIf (e.2.any fun b => ((en b.2 && held q) || (held b.2 && en q)) && overlap b.2.hfirst b.2.hlast q.hfirst q.hlast)
        (fieldErr l 16 2 p 296)]
  let slots := (withBefore pl.regions).map fun e =>
    failIf (e.2.any fun q => decide (q.slot = e.1.slot) && shared (s.copies q.part q.die) (s.copies e.1.part e.1.die))
      (regionErr l 16 e.1 2)
  regions ++ areas ++ hosts ++ slots

/-- Lines of a queue's buffer: 16 words a line. -/
def PlanQueue.lines (q : PlanQueue) : Nat := 2 ^ q.size / 16

/-- R346, R412: the queue-RAM layout. -/
def checkQueueRam (pl : Plan) (l : List Sec) : List (Option PlanErr) :=
  let names := (ofType l 4).flatMap fun x =>
    [failIf (decide (x.u 0 1 ≠ x.inst % 16)) (x.err 16 0), failIf (decide (x.u 1 1 ≠ x.inst / 16)) (x.err 16 1)]
  names ++ pl.queues.flatMap fun e =>
    let a := e.2
    let qs := a.qs.zipIdx.filter fun q => decide (q.1.en ≠ 0)
    failIf (decide (a.first < 64)) (fieldErr l 16 4 e.1 4) :: (withBefore qs).flatMap fun x =>
      let q := x.1.1
      let at_ := 16 + 24 * x.1.2
      let last := q.base + q.lines - 1
      [failIf (decide (1 < q.en) || decide (x.1.2 = 3)) (fieldErr l 16 4 e.1 at_),
        failIf (decide (1 < q.form)) (fieldErr l 16 4 e.1 (at_ + 1)),
        failIf (decide (7 < q.icluster)) (fieldErr l 16 4 e.1 (at_ + 10)),
        failIf (decide (q.base % q.lines ≠ 0) || decide (q.base < a.first + 4) || decide (a.last < last) ||
            x.2.any fun y => overlap y.1.base (y.1.base + y.1.lines - 1) q.base last)
          (fieldErr l 16 4 e.1 (at_ + 4))]

/-- R416, R417, R419: code, lines and members. -/
def State.checkLoads (s : State) (pl : Plan) (l : List Sec) : List (Option PlanErr) :=
  let owned : BitVec 64 := pl.parts.foldl (fun a e => a ||| e.2.clusters) 0
  let codes := (ofType l 7).flatMap fun x =>
    [failIf (decide (x.u 0 1 ≠ x.inst / 8)) (x.err 16 0), failIf (decide (x.u 1 1 ≠ x.inst % 8)) (x.err 16 1),
      failIf (decide (262144 < x.u 4 4 + x.u 8 4)) (x.err 16 4), failIf (!owned.getLsbD x.inst) (x.dirErr 16 2)]
  let datas := (withBefore (ofType l 8)).flatMap fun e =>
    let x := e.1
    let n := x.u 8 4
    let (t, d, c, a) := (x.u 0 1, x.u 1 1, x.u 2 1, x.u 4 4)
    let same (y : Sec) : Bool := decide (y.u 0 1 = t) && decide (y.u 1 1 = d) && (decide (t = 0) || decide (y.u 2 1 = c))
    [failIf (decide (1 < t)) (x.err 16 0),
      failIf (decide (t = 0) && !(List.range n).all fun j => s.inRegion none 0 d (a + j) (a + j)) (x.err 16 4),
      failIf (decide (t = 1) && (decide (7 < c) || !owned.getLsbD (8 * d + c))) (x.err 16 2),
      failIf (decide (t = 1) && decide (4096 < a + n)) (x.err 16 4),
      failIf (decide (n ≠ 0) && e.2.any fun y => same y && decide (y.u 8 4 ≠ 0) && overlap (y.u 4 4) (y.u 4 4 + y.u 8 4 - 1) a (a + n - 1))
        (x.err 16 4)]
  let members := (ofType l 10).flatMap fun x => (List.range 4).flatMap fun i =>
    [failIf (decide (1 < x.u (16 * i) 1)) (x.err 16 (16 * i)), failIf (decide (1 < x.u (16 * i + 1) 1)) (x.err 16 (16 * i + 1)),
      failIf (decide (1 < x.u (16 * i + 2) 1) && decide (x.u (16 * i + 2) 1 ≠ 0xFF)) (x.err 16 (16 * i + 2))]
  let own := (pl.param 17 0).toNat
  let self := failIf (decide (pl.param 1 0 ≠ 0) && !(match pl.mirror[own]? with
      | some m => m.valid
      | none => false)) (fieldErr l 16 10 0 (16 * own))
  codes ++ datas ++ members ++ [self]

/-- A tandem-mode partition names the higher die of its pair nowhere but in CLUSTERS. -/
def State.checkHigher (s : State) (pl : Plan) (l : List Sec) : List (Option PlanErr) :=
  let high (p d : Nat) : Bool := decide (s.tandemOf p = some (d / 2)) && decide (d % 2 = 1)
  let partOf (b : Nat) : Nat := ((pl.parts.find? fun e => e.2.clusters.getLsbD b).map Prod.fst).getD 16
  let parts := pl.parts.flatMap fun e =>
    (e.2.homes.zipIdx.map fun d => failIf (high e.1 d.1) (fieldErr l 16 2 e.1 (9 + d.2))) ++
      [failIf (decide (e.2.clusters ≠ 0) && high e.1 (e.2.ptRoot / 2 ^ 34)) (fieldErr l 16 2 e.1 88)]
  let regions := pl.regions.map fun r => failIf (high r.part r.die) (regionErr l 16 r 1)
  let queues := pl.queues.map fun e => failIf (high e.2.part e.2.die) (fieldErr l 16 4 e.1 1)
  let codes := (ofType l 7).map fun x => failIf (high (partOf x.inst) (x.inst / 8)) (x.dirErr 16 2)
  let datas := (ofType l 8).map fun x =>
    let d := x.u 1 1
    let p := if x.u 0 1 = 1 then partOf (8 * d + x.u 2 1)
      else ((pl.regions.find? fun r => r.holds (x.u 4 4) && decide (d ∈ s.copies r.part r.die)).map Region.part).getD 16
    failIf (high p d) (x.err 16 1)
  parts ++ regions ++ queues ++ codes ++ datas

/-- The primary source is not of kind 4, the secondary one only in a follower. -/
def checkSources (pl : Plan) (l : List Sec) : List (Option PlanErr) :=
  [failIf (decide (pl.param 2 0 = 4)) (paramErr l 16 2 0),
    failIf (decide (pl.param 4 0 = 4) && decide (pl.param 1 0 ≠ 2)) (paramErr l 16 4 0)]

/-- Step 16: the rules in the order of R421. -/
def State.checkStructure (s0 : State) (pl : Plan) (l : List Sec) : Option PlanErr :=
  let s := s0.withPlan pl
  firstErr (s.checkAbsent pl l ++ s.checkClusters pl l ++ s.checkPorts pl l ++ s.checkAdmit pl l ++ s.checkHomes pl l ++
    s.checkTables pl l ++ s.checkGates pl l ++ checkQueueRam pl l ++ s.checkLoads pl l ++ s.checkHigher pl l ++ checkSources pl l)

/-! ### Generation and epoch, step 17 (R423) -/

def State.checkGeneration (s : State) (o : List Octet) (epoch : Bool) : Option PlanErr :=
  let c := s.h.sd.g.epoch
  let e := imageEpoch o
  let ahead := (e + 2 ^ 72 - c) % 2 ^ 72
  if imageBaseGen o ≠ s.effPlan.gen then hdrErr 18 40
  else if imageGen o ≤ imageBaseGen o then hdrErr 18 32
  else failIf (epoch && decide (e ≠ 0) && (decide (ahead < 2) || decide (1000000 < ahead))) (hdrErr 19 20)

/-! ### The whole check (R427) -/

/-- Checks an image in the order of R427. epoch: the named epoch is judged too (a chain's images have none, R431). -/
def State.checkImage (s : State) (o : List Octet) (epoch : Bool) : Option PlanErr :=
  match checkFormat s.h.fuses o with
  | some e => some e
  | none =>
    let l := imageSecs o
    let pl := s.planOf o
    let partial_ := decide (imageScope o = 1)
    firstErr [checkMissing pl partial_ l, failIf partial_ (s.checkScope (imagePart o) l), s.checkStructure pl l,
      failIf partial_ (s.checkGeneration o epoch)]

end Sys2Proof.Machine
end

