-- ==== Sys2Proof/Machine/Domains.lean ====
section
/-! DEFINITION. Power domains and their sequencer (R457 to R459, R468), the start of a cluster (R178), and what the plan in force
loads into gates, lines, queue records and clusters (R52, R309, R348, R410 to R418). -/

namespace Sys2Proof.Machine

/-! ### Domains -/

def bit128 (i : Nat) : BitVec 128 := 1#128 <<< i
def mask128 (l : List Nat) : BitVec 128 := l.foldl (fun a i => a ||| bit128 i) 0

/-- The domains of a mask with every domain that needs one of them; four rounds reach them all. -/
def withDependents : Nat → BitVec 128 → BitVec 128
  | 0, m => m
  | n + 1, m => withDependents n (m ||| mask128 ((List.range 116).filter fun i => (needs i).any fun j => m.getLsbD j))

/-- What a row of die d loses: its memory gate, the copies of DRAM rows under way and their counts of corrected symbols. The spares
that serve remapped rows stay with the stack, whose lines R460 keeps. -/
def State.rowOff (s : State) (d row : Nat) : State :=
  (s.updGate (2 * d + row) fun _ => Gate.reset).updDie d fun e => { e with m := { e.m with
    copying := e.m.copying.filter fun x => decide (x.1 / 16 ≠ row), rowCe := e.m.rowCe.filter fun x => decide (x.1 / 16 ≠ row) } }

/-- What die d loses with its domains of mask m. -/
def State.dieOff (s : State) (m : BitVec 128) (d : Nat) : State :=
  let off (j : Nat) : Bool := m.getLsbD (13 * d + j)
  let s1 := iter 8 (fun c x =>
    if off c && x.domain (13 * d + c) then (iter 8 (fun k y => y.dropTxn (64 * d + 8 * c + k)) x).clusterOff (8 * d + c) else x) s
  let s2 := if !off 10 then s1 else { s1.updDie d fun e =>
      { e with member := false, o := .reset, digests := [], hubMsg := [], unordered := [], m := { e.m with images := [], repairs := [], dacc := [] } } with
    msgs := s1.msgs.filter fun x => !x.toDie d, accesses := s1.accesses.filter fun a => decide (coreDie a.core ≠ d) }
  let s3 := if off 10 then s2.updSd fun x =>
      { x with hzSeen := Sparse.set 0 x.hzSeen d 0, stalled := x.stalled &&& ~~~(1#8 <<< d) } else s2
  let s4 := if !off 11 then s3 else
    (iter 4 (fun g x => (x.updPort (4 * d + g) fun _ => Port.reset).updGate (16 + 4 * d + g) fun _ => Gate.reset) s3).updDie d fun e =>
      { e with qram := [], qramBad := [], qramCe := [], queues := [] }
  let s5 := iter 2 (fun row x => if off (8 + row) then x.rowOff d row else x) s4
  if off 12 then s5.updDie d fun e => { e with m := { e.m with mem := [], info := [] } } else s5

/-- What the hub blocks lose: the posting counters, the gate records, the messages of the die blocks, the queue RAMs of the mirror
ports. -/
def State.blocksOff (s : State) : State :=
  let s1 := iter 16 (fun p x => x.updPartn p fun q => { q with cnt := .reset }) s
  let s2 := iter 50 (fun g x => x.updGate g fun z => { z with status := 0, source := 0, addrHi := 0, addrLo := 0, stamp := 0 }) s1
  let s3 := iter 8 (fun d x => x.updDie d fun e => { e with hubMsg := [] }) s2
  iter 2 (fun i x => x.updDie (8 + i) fun e => { e with qram := [], qramBad := [], qramCe := [], queues := [] }) s3

/-- What the links of the hub lose with its domains of mask m: the host link, which keeps lane 0 without the lanes of 107, and the mirror
ports, of which A keeps lane 0 at 25GBASE-R without 109. -/
def State.linksOff (s : State) (m : BitVec 128) : State :=
  let s1 := if m.getLsbD 106 then s.updHost fun x => { x with linkUp := false, g := { x.g with width := 0, rate := 0 } }
    else if m.getLsbD 107 then s.updHost fun x => { x with g := { x.g with width := 0 } }
    else s
  let s2 := if m.getLsbD 108 then s1.updPort 32 fun _ => Port.reset else s1
  let s3 := if m.getLsbD 109 then s2.updMirror fun x => { x with slow := x.slow ||| 1 } else s2
  let s4 := if m.getLsbD 110 then s3.updPort 33 fun _ => Port.reset else s3
  if m.getLsbD 111 then { s4 with msgs := [] } else s4

/-- Switches off the domains of a mask, with those that need them; requests for them leave the queue (R459, R468). -/
def State.domainsOff (s : State) (m0 : BitVec 128) : State :=
  let m := withDependents 4 m0
  let s1 := iter 8 (fun d x => x.dieOff m d) s
  let s2 := if m.getLsbD 105 then s1.updHost fun x => { HostIf.reset with g := x.g, mbx := x.mbx, snap := x.snap } else s1
  let s3 := if m.getLsbD 115 then s2.blocksOff else s2
  let s4 := if m.getLsbD 112 then iter 16 (fun p x => x.updPartn p fun q => { q with txns := [], digests := [], standins := [] }) s3
    else s3
  let s5 := if m.getLsbD 113 then (iter 16 (fun p x => x.updPartn p fun q =>
      { q with logs := [], acked := [], held := [], heldLast := [], todo := [], joinEpoch := none }) s4).updMirror fun m =>
        { m with inbox := [], loading := false, chainIn := [] }
    else s4
  let s6 := s5.linksOff m
  s6.updPwr fun p => { p with domains := p.domains &&& ~~~m, queue := p.queue.filter fun i => !m.getLsbD i }

/-- Power-up requests, in the order given (R468). -/
def State.requestOn (s : State) (l : List Nat) : State :=
  s.updPwr fun p => { p with queue := p.queue ++ l.filter fun i => !p.domains.getLsbD i && decide (i ∉ p.queue) }

/-- A die takes part again once its common domain and those that it needs are on: the hub loads its tick counter, and its latest
Horizon is that of the last tick that has ended, 0 while no ticks are distributed (R83, R106, R466). -/
def State.joinDie (s : State) (d : Nat) : State :=
  let t := s.tick
  let z := if s.ticking then t - 1 else 0
  let hz : Sparse (BitVec 48) := (List.range 9).foldl (fun m i => Sparse.set 0 m i z) []
  (s.updDie d fun e => { e with member := true, o := { e.o with tick := t, hzSent := z, hzSeen := hz } }).updSd fun x =>
    { x with hzSeen := Sparse.set 0 x.hzSeen d z, stalled := x.stalled &&& ~~~(1#8 <<< d) }

/-- Domain i comes on; a unit leaves its reset once the domains that it needs are on (R459). -/
def State.domainOn (s : State) (i : Nat) : State :=
  let s1 := s.updPwr fun p => { p with domains := p.domains ||| bit128 i }
  let s2 := if i < 104 ∧ i % 13 < 8 then s1.updCluster (8 * (i / 13) + i % 13) fun x => { x with selfChecked := false } else s1
  iter 8 (fun d x => if x.up (13 * d + 10) 4 && x.alive d && !(x.die d).member then x.joinDie d else x) s2

def clusterDomain (cl : Nat) : Nat := 13 * (cl / 8) + cl % 8

/-- Domains of a present, unfenced die, retired clusters left out. -/
def State.dieDomains (s : State) (d : Nat) : List Nat :=
  if !s.alive d then [] else ((List.range 13).filter fun j => decide (8 ≤ j) || !(s.cluster (8 * d + j)).retired).map fun j => 13 * d + j

/-! ### The plan's domains (R420) -/

/-- Die d serves a cluster, region, queue area, port or admit die of the plan. -/
def State.dieUsed (s : State) (pl : Plan) (d : Nat) : Bool :=
  pl.parts.any (fun e => (List.range 8).any (fun c => e.2.clusters.getLsbD (8 * d + c)) || e.2.admitDie.any fun a => decide (a = d)) ||
    pl.regions.any (fun r => decide (d ∈ s.copies r.part r.die)) || pl.queues.any (fun e => decide (d ∈ s.copies e.2.part e.2.die)) ||
    pl.ports.any fun e => decide (e.1 / 4 = d)

/-- Domains that the plan asks for: its POWER mask, or every domain that its partitions, ports and queues use. -/
def State.planDomains (s : State) (pl : Plan) : BitVec 128 :=
  match pl.power with
  | some m => m
  | none =>
    let port (d : Nat) : Bool := pl.ports.any (fun e => decide (e.1 / 4 = d)) ||
      pl.queues.any fun e => decide (d ∈ s.copies e.2.part e.2.die)
    let die (d : Nat) : List Nat :=
      if !s.dieUsed pl d then []
      else ((List.range 8).filter fun c => pl.parts.any fun e => e.2.clusters.getLsbD (8 * d + c)) ++ [8, 9, 10, 12] ++
        (if port d then [11] else [])
    mask128 (((List.range 8).flatMap fun d => (die d).map fun j => 13 * d + j) ++ (List.range 12).map fun h => 104 + h)

/-- Those of them that can be on: their dies are present and not fenced, their clusters not retired. -/
def State.wanted (s : State) (pl : Plan) : BitVec 128 :=
  s.planDomains pl &&& mask128 ((List.range 8).flatMap s.dieDomains ++ (List.range 12).map fun h => 104 + h)

/-! ### Gates -/

def partMask (p : Nat) : BitVec 16 := if p < 16 then 1#16 <<< (15 - p) else 0
def revBits (n v : Nat) : Nat := (List.range n).foldl (fun a i => a + v / 2 ^ i % 2 * 2 ^ (n - 1 - i)) 0

def Region.rule (r : Region) : Rule :=
  { en := true, lock := r.flags.getLsbD 3, kind := BitVec.ofNat 2 r.kind, rd := r.flags.getLsbD 0, wr := r.flags.getLsbD 1,
    pst := r.flags.getLsbD 2, pmask := partMask r.part, first := r.first, last := r.last }

/-- Rules of gate g under the plan in force (R309, R410 to R412, R418). -/
def State.planRules (s : State) (g : Nat) : Sparse Rule :=
  let pl := s.effPlan
  let put (m : Sparse Rule) (n : Nat) (r : Rule) : Sparse Rule := Sparse.set Rule.reset m n r
  if g < 16 then
    (pl.regions.filter fun r => decide (g / 2 ∈ s.copies r.part r.die)).foldl (fun m r => put m r.slot r.rule) []
  else if g < 48 then
    (pl.queues.filter fun e => decide (g % 4 = 0) && decide ((g - 16) / 4 ∈ s.copies e.2.part e.2.die)).foldl (fun m e =>
      let f := e.2.flags
      put m e.2.part { en := true, lock := f.testBit 3, kind := 0, rd := f.testBit 0, wr := f.testBit 1, pst := false,
                       pmask := partMask e.2.part, first := e.2.first, last := e.2.last }) []
  else if g = 48 then
    pl.hubGate.zipIdx.foldl (fun m e =>
      let (f, mask) := e.1
      let b := hubBlocks.getD e.2 (0, 0)
      put m e.2 { en := f.getLsbD 0, lock := f.getLsbD 3, kind := 0, rd := f.getLsbD 1, wr := f.getLsbD 2, pst := false,
                  pmask := BitVec.ofNat 16 (revBits 16 mask.toNat), first := b.1 / 64, last := b.2 / 64 }) []
  else
    pl.parts.foldl (fun m e =>
      let f := e.2.hflags
      put m e.1 { en := f.getLsbD 0, lock := f.getLsbD 3, kind := 0, rd := f.getLsbD 1, wr := f.getLsbD 2, pst := false,
                  pmask := partMask e.1, first := e.2.hfirst, last := e.2.hlast }) []

/-- Every gate with the plan's rules in both banks (R432). -/
def State.loadGates (s : State) : State :=
  iter 50 (fun g x => x.updGate g fun z =>
    let r := if x.gateExists g then x.planRules g else []
    { z with bank0 := r, bank1 := r, abank := false, swapDone := true, swaps := 0 }) s

/-! ### Lines (R52, R417) -/

/-- The latest initial key of a range of lines. -/
def DieMem.setKey (m : DieMem) (r : Region) : DieMem :=
  { m with keys := (r.first, r.last, BitVec.ofNat 4 r.key) :: m.keys.filter fun k => !(decide (r.first ≤ k.1) && decide (k.2.1 ≤ r.last)) }

/-- Clears the lines of a region on a die; they take its key. -/
def State.clearRegion (s : State) (r : Region) (d : Nat) : State :=
  s.updDie d fun e => { e with m := { (e.m.setKey r) with
    mem := Sparse.clear e.m.mem (64 * r.first) (64 * (r.last + 1)), info := Sparse.clear e.m.info r.first (r.last + 1) } }

def PlanLine.info (y : PlanLine) : LineMeta := { key := some (BitVec.ofNat 4 y.key), keyed := false, capline := y.capline, poison := false }

/-- Dies on which a DATA section of ledger memory is written: both of a tandem pair. -/
def State.dataDies (s : State) (x : PlanData) : List Nat :=
  match s.regions.find? fun r => r.holds x.line && decide (r.die = x.die) with
  | some r => s.copies r.part x.die
  | none => [x.die]

def State.writeData (s : State) (x : PlanData) : State :=
  if x.target ≠ 0 then s
  else (s.dataDies x).foldl (fun y d => x.lines.zipIdx.foldl (fun z e => z.putLine d (x.line + e.2) e.1.chars e.1.info) y) s

/-! ### Queue records (R348, R412) -/

def queueKind (q : Nat) : BitVec 2 := if q < 3 then BitVec.ofNat 2 q else 3

/-- A queue record as the plan sets it, with pointers at 0. -/
def PlanQueue.record (x : PlanQueue) (q : Nat) : Queue :=
  if x.en = 0 then .reset
  else
    { Queue.reset with
      en := true, kind := queueKind q, dense := decide (x.form = 1), size := x.size, tmpl := x.tmpl, base := x.base,
      cen := x.iflags.testBit 0, hen := x.iflags.testBit 1, die := x.idie, cluster := x.icluster,
      cores := BitVec.ofNat 8 (revBits 8 x.cores), vector := x.vector, thresh := x.thresh }

/-- The queue records of every area, on each die that is on. fresh: all of them; otherwise those of queues already enabled keep
their pointers. -/
def State.loadQueues (s : State) (fresh : Bool) : State :=
  s.effPlan.queues.foldl (fun x e => (x.copies e.2.part e.2.die).foldl (fun y d =>
    if !y.alive d then y
    else e.2.qs.zipIdx.foldl (fun z q =>
      let n := PlanQueue.record q.1 q.2
      z.updQueue d e.2.part q.2 fun o =>
        if fresh || !o.en then n
        else { o with cen := n.cen, hen := n.hen, die := n.die, cluster := n.cluster, cores := n.cores, vector := n.vector,
                      thresh := n.thresh }) y) x) s

/-! ### Clusters (R178) -/

/-- Partition of cluster cl under the plan in force. -/
def State.planOwner (s : State) (cl : Nat) : Option PartId :=
  (s.effPlan.parts.find? fun e => e.2.clusters.getLsbD cl).bind fun e => part? e.1

/-- A CODE or DATA section of this die and cluster names cluster cl: the lower die stands for both of a tandem pair. -/
def State.namesCluster (s : State) (cl die cluster : Nat) : Bool :=
  decide (cluster = cl % 8) && (decide (die = cl / 8) || (match s.planOwner cl with
    | some p => decide (s.tandemOf p = some (cl / 16)) && decide (die / 2 = cl / 16)
    | none => false))

/-- Loads a cluster's code store and its scratch lines from the plan in force. -/
def State.loadCluster (s : State) (cl : Nat) : State :=
  let pl := s.effPlan
  let code := (pl.codes.filter fun x => s.namesCluster cl x.die x.cluster).foldl (fun m x => Sparse.setList 0 m x.start x.sylls) []
  let s1 := s.updCluster cl fun x => { x with code := code, codeBad := [], codeCe := [] }
  (pl.datas.filter fun x => decide (x.target = 1) && s.namesCluster cl x.die x.cluster).foldl (fun y x =>
    x.lines.zipIdx.foldl (fun z e =>
      let n := x.line + e.2
      (z.updCluster cl fun c => { c with
        scratch := Sparse.setList 0 c.scratch (64 * n) e.1.chars, scratchBad := c.scratchBad.filter (· ≠ n),
        scratchCe := c.scratchCe.filter fun x => decide (x.1 ≠ n) }).setScratchInfo cl n e.1.info)
      y) s1

/-- A core right before its START entry. -/
def State.freshCore (s : State) (q : PlanPart) : Core :=
  let caps : Sparse Cap := q.kx.zipIdx.foldl (fun m e => Sparse.set Cap.empty m (16 + e.2) e.1) []
  let p := s.h.patch
  { Core.reset with
    r := { CoreRegs.reset with k := caps, sp := { Special.reset with excEntry := q.excEntry } },
    running := true,
    matchRegs := if p.active then Sparse.setList 0 [] 0 p.matchRegs else [],
    patchRam := if p.active then Sparse.setList 0 [] 0 p.words else [] }

/-- Start of one core: set up, then the START entry, with every counter at 0. -/
def State.startCore (s : State) (c : Nat) (q : PlanPart) : State :=
  let s1 := ((s.dropTxn c).setCore c (s.freshCore q)).levelZero c .start 0 0 false
  let s2 := s1.updCore c fun k => k.updR fun r => { r with cnt := .reset }
  if s2.queueHolds c then s2.interrupt c .queue else s2

/-- Start of a cluster of a partition on a die in use; a retired one is never started. -/
def State.startCluster (s : State) (cl : Nat) : State :=
  match s.planOwner cl with
  | none => s
  | some p =>
    if !s.alive (cl / 8) || (s.cluster cl).retired then s
    else
      let s1 := (s.updCluster cl fun x => { x with part := some p, pool := [], walks := [] }).loadCluster cl
      iter 8 (fun k x => x.startCore (8 * cl + k) (x.planPart p.val)) s1

/-- The clusters of a mask are to start. -/
def State.toStart (s : State) (m : BitVec 64) : State := s.updPwr fun p => { p with starts := p.starts ||| m }

/-- Starts every waiting cluster that is on and self-checked; those that can never start leave the list. -/
def State.startReady (s : State) : State :=
  iter 64 (fun cl x =>
    if !x.h.pwr.starts.getLsbD cl then x
    else
      let clear (y : State) : State := y.updPwr fun p => { p with starts := p.starts &&& ~~~(1#64 <<< cl) }
      if !x.alive (cl / 8) || (x.cluster cl).retired || (x.planOwner cl).isNone then clear x
      else if x.up (clusterDomain cl) 4 && (x.cluster cl).selfChecked then clear (x.startCluster cl)
      else x) s

end Sys2Proof.Machine
end

