-- ==== Sys2Proof/Machine/Apply.lean ====
section
/-! DEFINITION. What the hub does with an image: the plan-status block (R428), the application of a whole image (R430, R432), the
staging of a partial one and its epoch boundary (R424, R425), bank swaps (R320, R321), the plan chain (R431), the boot steps that
wait for power (R472), and the effective image (R429). -/

namespace Sys2Proof.Machine

/-! ### Package state (R452) -/

/-- PKG_STATE. A follower, whose admission stays closed, shows OPEN once its Sundial is synchronised. -/
def State.pkgState (s : State) : Nat :=
  let g := s.h.sd.g
  let n := s.h.pwr.bootStep
  if s.h.pwr.st = .night then 6
  else if n < 3 then 0
  else if n = 3 then (if s.h.pwr.straps.bootSrc = 1 then 1 else 0)
  else if n = 4 then 2
  else if s.h.mirror.role = 3 then 5
  else if s.h.pwr.after = .apply then 3
  else if g.admitOpen || (decide (s.h.mirror.role = 2) && decide (g.st ≠ .unset) && decide (g.st ≠ .acquiring)) then 4
  else 3

/-! ### The plan-status block (R428) -/

def HpStatus.word (h : HpStatus) (plan : Bool) : BitVec 32 :=
  BitVec.ofNat 32 (bit plan * 2 ^ 31 + h.last.toNat * 2 ^ 28 + h.reason.toNat * 2 ^ 23 + h.section_.toNat * 2 ^ 15 +
    h.source.toNat * 2 ^ 13 + bit h.scope * 2 ^ 12 + h.part.toNat * 2 ^ 8 + bit h.signed * 2 ^ 7 + bit h.keyslot * 2 ^ 6 +
    bit h.hdr * 2 ^ 5)

def State.hpStatus (s : State) : BitVec 32 := s.h.plan.hp.word s.h.plan.eff.isSome
def State.hpGen (s : State) : Nat := s.effPlan.gen
def State.hpPend (s : State) : Nat := match s.h.plan.staged with
  | some x => x.epoch % 2 ^ 64
  | none => 0

def PlanSource.code : PlanSource → BitVec 2
  | .flash0 => 0 | .flash1 => 1 | .host => 2 | .lead _ => 3

/-- A load begins: HP_STATUS and HP_ERROFF are set anew, LAST reads 1. -/
def State.loadBegins (s : State) (src : BitVec 2) (o : List Octet) : State :=
  let part := decide (imageScope o = 1)
  (s.updPlan fun x => { x with hp := { x.hp with
    reason := 0, section_ := 0, hdr := false, errOff := 0xFFFFFFFF, source := src, scope := part,
    part := if part then BitVec.ofNat 4 (imagePart o) else x.hp.part, signed := false, keyslot := false } }).setLast 1

/-- An image is rejected; a signature that verified before the failure is shown. -/
def State.rejectImage (s : State) (o : List Octet) (e : PlanErr) : State :=
  let ok := imageSigned o && decide (8 < e.reason)
  (s.updPlan fun x => { x with hp := { x.hp with
    reason := BitVec.ofNat 5 e.reason, section_ := BitVec.ofNat 8 e.section_, hdr := e.hdr,
    errOff := match e.off with
      | some a => BitVec.ofNat 32 a
      | none => 0xFFFFFFFF,
    signed := ok, keyslot := ok && decide (imageKeyslot o = 1) } }).setLast 4

/-- An image is accepted: its signature and its clamps. -/
def State.acceptImage (s : State) (o : List Octet) (clamps : List Nat) : State :=
  s.updPlan fun x => { x with hp := { x.hp with
    signed := imageSigned o, keyslot := imageSigned o && decide (imageKeyslot o = 1),
    clamps := BitVec.ofNat 32 (min clamps.length 0xFFFFFFFF),
    clampOff := BitVec.ofNat 32 (clamps.foldl min 0xFFFFFFFF) } }

/-! ### Mailbox results (R444) -/

/-- The running mailbox command, if its code is this one, is about to complete with this status and these results. -/
def State.mbxResult (s : State) (code status : BitVec 8) (res : List (BitVec 32)) : State :=
  if s.h.host.mbx.done ∨ s.h.host.mbx.code ≠ code ∨ s.h.host.mbx.waiting.isSome then s else s.updHost fun x => { x with mbx := { x.mbx with waiting := some (status, res) } }

/-- Results of PLAN_LOAD: of a status other than OK none (R444, R451). -/
def State.planResult (s : State) (status : BitVec 8) : State :=
  s.mbxResult 2 status <| if status ≠ 0 then [] else [s.hpStatus, BitVec.ofNat 32 s.hpPend, s.h.plan.hp.clamps]

/-! ### Mirror state kept by the plan -/

/-- MIRROR_STATUS.SYNCED: a follower whose partitions are all FOLLOWING (R371). -/
def State.resync (s : State) : State :=
  let all := decide (s.h.mirror.role = 2) && (List.range 16).all fun p => decide ((s.partn p).st = .following)
  s.updMirror fun m => { m with synced := all }

/-- A follower asks the lead for a copy of partition p (R373). -/
def State.askJoin (s : State) (p : PartId) : State :=
  let s1 := (s.discardUnreleased p).updPartn p fun q => { q with st := .joining, joinEpoch := none, held := [], heldLast := [], todo := [] }
  match s.h.mirror.lead with
  | some l => s1.sendMirror l (.join p)
  | none => s1.sendMirror 255 (.join p)

/-- It joins every partition. -/
def State.joinAll (s : State) : State := ((List.finRange 16).foldl (fun x p => x.askJoin p) s).resync

/-! ### Application of a whole image (R430, R432) -/

/-- Every transaction ends without a response, and every ledger line and session is discarded. -/
def State.discardAll (s : State) : State :=
  let dies := iter 8 (fun d x => x.updDie d fun e =>
    { Die.reset with
      fenced := e.fenced, member := e.member, fenceDue := e.fenceDue,
      o := { DieOrder.reset with tick := e.o.tick, hzSent := e.o.hzSent, hzSeen := e.o.hzSeen },
      m := { DieMem.reset with remaps := e.m.remaps, spares := e.m.spares, copying := e.m.copying }, hubMsg := e.hubMsg, scrub := e.scrub, scrubPass := e.scrubPass,
      ceCount := e.ceCount, daccWrap := e.daccWrap, daccSkip := e.daccSkip }) s
  let clusters := iter 64 (fun cl x => x.updCluster cl fun e => { e with part := none, pool := [], walks := [] }) dies
  let parts := iter 16 (fun p x => x.updPartn p fun q => { Partition.reset with cnt := q.cnt }) clusters
  let ports := iter 34 (fun n x => x.updPort n fun z => { Port.reset with lanes := z.lanes, fec := z.fec, up := z.up, cnt := z.cnt }) parts
  { ports with
    u := { ports.u with cores := [] }, accesses := [], msgs := [],
    h := { ports.h with
      sd := { ports.h.sd with opened := false, lockReported := false, g := { ports.h.sd.g with admitOpen := false } },
      host := { ports.h.host with resp := [] } } }

/-- The Sundial and mirror parameters of the plan in force; id and role where the image does not decide them (R431). -/
def State.loadParams (s : State) : State :=
  let s1 := s.updSdRegs fun g => { g with tickNs := s.paramN 6 0 100, epochTicks := s.paramN 7 0 20, origin := s.paramN 8 0 0 }
  let s2 := if s1.h.sd.g.st = .unset then s1 else s1.setTime s1.h.sd.g.time
  let role := BitVec.ofNat 2 (s.paramN 1 0 0)
  let id : Fin 4 := ⟨s.paramN 17 0 0 % 4, Nat.mod_lt _ (by decide)⟩
  let s3 := (s2.updMirror fun m =>
    { m with id := id, dropped := 0, synced := false, diverged := false, peers := [], inbox := [], lead := none, leadLost := false,
             slow := 0, replayTick := none,
             taking := false, integral := 0 }).setRole role
  let s4 := iter 16 (fun p x => x.updPartn p fun q => { q with st := if role = 2 then .joining else .normal }) s3
  let s5 := iter 4 (fun k x => x.updTs k fun t => { t with tandem := x.tandemPair k }) s4
  s5.resync

/-- Applies a plan: everything but what waits for the sequencer (R432). images: what the plan chain now holds. -/
def State.applyPlan (s : State) (pl : Plan) (images : List (List Octet)) : State :=
  let s1 := (s.discardAll.updPlan fun x => { x with eff := some pl, staged := none, chain := images })
  let want := s1.wanted pl
  let s2 := s1.domainsOff (s1.h.pwr.domains &&& ~~~want &&& ~~~bit128 104)
  let s3 := s2.requestOn ((List.range 116).filter fun i => want.getLsbD i)
  let s4 := s3.loadGates
  let s5 := pl.regions.foldl (fun x r => (x.copies r.part r.die).foldl (fun y d => y.clearRegion r d) x) s4
  let s6 := pl.datas.foldl (fun x e => x.writeData e) s5
  let s7 := (s6.loadQueues true).loadParams
  let owned : BitVec 64 := pl.parts.foldl (fun a e => a ||| e.2.clusters) 0
  (s7.toStart owned).updPwr fun p => { p with after := .apply }

/-- Every cluster that waits to start can start, or never will. -/
def State.allReady (s : State) : Bool :=
  (List.range 64).all fun cl => !s.h.pwr.starts.getLsbD cl || !s.alive (cl / 8) || (s.cluster cl).retired ||
    (s.up (clusterDomain cl) 4 && (s.cluster cl).selfChecked)

/-- The whole image is applied: LAST reads 2, a follower joins the lead, and boot goes on with the Sundial lock. -/
def State.finishApply (s : State) : State :=
  let s1 := (s.updPwr fun p => { p with after := .nothing, bootStep := max p.bootStep 5 }).setLast 2
  let s2 := if s1.h.mirror.role = 2 then s1.joinAll else s1
  (s2.planResult 0).tryFreeRun

/-- The wake is complete: NIGHT clears, and the Sundial leaves the Night state; admission opens at an edge (R66, R466). -/
def State.finishWake (s : State) : State :=
  let s1 := (s.updPwr fun p => { p with after := .nothing, st := (p.clockTo.map Prod.fst).getD .noon, clockTo := none }).updSdRegs fun g =>
    { g with night := false }
  let fast := s1.updMirror fun m => { m with slow := m.slow &&& 2 }
  let s2 := (if fast.h.mirror.role = 2 then fast.joinAll else fast).mbxResult 0x0A 0 []
  if s2.sourceKind false = 0 then s2.enterFree else s2.relock

/-! ### Boot (R472) -/

/-- The first two boot steps go on as their domains, the host link and the self-checks allow. -/
def State.bootOn (s : State) : State :=
  let p := s.h.pwr
  if p.stuck then s
  else if p.bootStep = 1 then
    if s.domain 105 && s.domain 106 && s.domain 107 && s.h.host.linkUp then
      (s.requestOn (((List.range 8).flatMap s.dieDomains) ++ (List.range 8).map fun h => 108 + h)).updPwr fun p =>
        { p with bootStep := 2 }
    else s
  else if p.bootStep = 2 then
    let checked := (List.range 64).all fun cl => !s.alive (cl / 8) || (s.cluster cl).retired || (s.cluster cl).selfChecked
    if p.queue.isEmpty && checked then s.updPwr fun p => { p with bootStep := 3 } else s
  else s

/-- What waits for the sequencer and the self-checks goes on. -/
def State.progress (s : State) : State :=
  let s1 := s.bootOn
  let p := s1.h.pwr
  match p.after with
  | .apply => if p.queue.isEmpty && s1.allReady then s1.startReady.finishApply else s1
  | .wake => if p.queue.isEmpty && s1.allReady then (s1.loadGates.loadQueues true).startReady.finishWake else s1
  | .nothing => s1.startReady

/-! ### Partial images (R424, R425) -/

/-- Gates whose rules under the plan differ from those of their active bank. -/
def State.changedGates (s : State) (pl : Plan) : List Nat :=
  let t := s.withPlan pl
  (List.range 50).filter fun g => s.gateExists g && decide (t.planRules g ≠ (s.gate g).active)

/-- An accepted partial image is staged. -/
def State.stage (s : State) (o : List Octet) (pl : Plan) : State :=
  let c := s.h.sd.g.epoch
  let e := if imageEpoch o = 0 then (c + 2) % 2 ^ 72 else imageEpoch o
  let l := imageSecs o
  let added := addedRegions s.effPlan.regions l
  let t := s.withPlan pl
  let s1 := s.updPlan fun x => { x with
    staged := some { plan := pl, part := imagePart o, epoch := e, gen := imageGen o, committed := false, octets := o } }
  let s2 := added.foldl (fun x r => (t.copies r.part r.die).foldl (fun y d => y.clearRegion r d) x) s1
  let s3 := ((ofType l 8).map Sec.lines).foldl (fun x d =>
    if d.target ≠ 0 then x
    else (t.dataDies d).foldl (fun y n => d.lines.zipIdx.foldl (fun z k => z.putLine n (d.line + k.2) k.1.chars k.1.info) y) x) s2
  let m := s3.stagedClusters
  let want := (List.range 64).filter fun cl => m.getLsbD cl && s3.alive (cl / 8) && !(s3.cluster cl).retired
  (s3.requestOn (want.map clusterDomain)).setLast 3

/-- Staging is complete: added clusters are on and checked, and no gate that changes still finishes its last swap. -/
def State.stagingDone (s : State) (x : Staged) : Bool :=
  ((List.range 64).all fun cl => !s.stagedClusters.getLsbD cl || !s.alive (cl / 8) || (s.cluster cl).retired ||
    (s.up (clusterDomain cl) 4 && (s.cluster cl).selfChecked)) && (s.changedGates x.plan).all fun g => (s.gate g).swapDone

/-- p's Curfew responder holds no transaction of epoch e or later while p has no cluster on its admit die. -/
def State.curfewClear (s : State) (p e : Nat) : Bool :=
  (s.partn p).txns.all fun t => !(epochLe e t.epoch && t.outcome.isNone &&
    (List.range 8).all fun c => !(s.planPart p).clusters.getLsbD (8 * t.die + c))

/-- The edge that begins the last tick of E − 1: the staged image is checked again, then committed with a PLAN event, the one that is
stamped with that tick, or rejected (R78, R424). -/
def execStagingDeadline (s : State) : Host.Outcome State Fault Refusal :=
  .next <| match s.h.plan.staged with
  | none => s
  | some x =>
    let last := epochPrev x.epoch
    if x.committed || !tickLe (s.lastTick last) s.tick then s
    else
      let reject (r : Nat) : State := s.undoStaging.rejectImage x.octets { reason := r, section_ := 0, hdr := false, off := none }
      match s.checkStructure x.plan (imageSecs x.octets) with
      | some e => s.undoStaging.rejectImage x.octets e
      | none =>
        let q := s.partn x.part
        if !s.stagingDone x then reject 20
        else if ¬ (q.st = .normal ∨ q.st = .degraded) ∨ ¬ s.curfewClear x.part x.epoch then reject 21
        else
          let pos : Position := { tick := s.lastTick last, port := 35, seq := 0 }
          ((s.logEvent x.part last 5 pos ⟨0, 0, 0⟩ x.octets).updPlan fun y =>
            { y with staged := some { x with committed := true } }).setLast 6

/-- The rules that a swap makes active: a locked slot keeps the rule of the old bank (R321). -/
def Gate.afterSwap (g : Gate) (rules : Sparse Rule) : Sparse Rule :=
  g.active.foldl (fun m e => if e.2.lock then Sparse.set Rule.reset m e.1 e.2 else m) rules

/-- Swaps a gate to new rules. -/
def Gate.swap (g : Gate) (rules : Sparse Rule) : Gate :=
  let r := g.afterSwap rules
  { (if g.abank then { g with bank0 := r } else { g with bank1 := r }) with
    abank := !g.abank, swapDone := false, swaps := g.swaps + 1 }

/-- Every valid TLB entry of every core is to be walked again (R307). -/
def State.markTlbs (s : State) : State :=
  { s with u := { s.u with cores := s.u.cores.map fun e =>
    (e.1, { e.2 with tlb := e.2.tlb.map fun t => (t.1, if t.2.v then { t.2 with rf := true } else t.2) }) } }

/-- Lines of p whose region changes its key take the new one as their initial key, but for those that a key instruction has changed
(R52). -/
def State.rekey (s : State) (old : List Region) (p : Nat) : State :=
  let changed := s.regions.filter fun r => decide (r.part = p) && old.any fun q =>
    q.sameSlot r && decide (q.first = r.first) && decide (q.last = r.last) && decide (q.key ≠ r.key)
  changed.foldl (fun x r => (x.copies r.part r.die).foldl (fun y d =>
    y.updDie d fun e => { e with m := { (e.m.setKey r) with
      info := e.m.info.foldl (fun m i => Sparse.set LineMeta.reset m i.1
        (if r.holds i.1 && !i.2.keyed then { i.2 with key := none } else i.2)) [] } }) x) s

/-- A committed image takes effect: gates swap, clusters join and leave, queue records follow. -/
def State.takeEffect (s : State) (x : Staged) : State :=
  let gates := s.changedGates x.plan
  let added := s.stagedClusters
  let old := s.effPlan
  let gone := (old.part x.part).clusters &&& ~~~(x.plan.part x.part).clusters
  let s1 := s.updPlan fun y => { y with eff := some x.plan, staged := none, chain := y.chain ++ [x.octets] }
  let s2 := gates.foldl (fun y g => y.updGate g fun z => z.swap (s1.planRules g)) s1
  let s3 := if gates.any fun g => decide (g < 16) then s2.markTlbs else s2
  let s4 := iter 64 (fun cl y => if gone.getLsbD cl then (y.clusterOff cl).updCluster cl fun e => { e with part := none } else y) s3
  let s5 := (s4.loadQueues false).rekey old.regions x.part
  ((s5.updPartn x.part fun q => { q with planEpoch := some x.epoch }).toStart added).startReady.setLast 2

/-- Step 1 of R85 at the edge that begins the epoch; a follower applies the image at the boundary as it replays the logs (R320,
R370). -/
def execPlanTakeEffect (s : State) : Host.Outcome State Fault Refusal :=
  .next <| match s.h.plan.staged with
  | none => s
  | some x =>
    if !x.committed then s
    else if s.h.mirror.role = 2 then (if epochLe x.epoch (epochNext (s.partn x.part).applied) then s.takeEffect x else s)
    else if epochLe x.epoch s.h.sd.g.epoch then s.atStep 1 fun y => y.takeEffect x
    else s

/-- An access that gate g admitted under the bank that is no longer active is still to be performed or refused. -/
def State.oldAccess (s : State) (g : Nat) : Bool :=
  s.accesses.any fun a => decide (a.st = .admitted) && a.parts.any fun q =>
    !q.scratch && q.resp.isNone && (q.bank != (s.gate g).abank) && decide ((s.partVerdict a q).gate = g)

def execSwapDone (g : Fin 50) (s : State) : Host.Outcome State Fault Refusal :=
  .next (if (s.gate g).swapDone || s.oldAccess g then s else s.updGate g fun z => { z with swapDone := true })

/-! ### The plan chain (R431) -/

/-- Octets of an image in the chain. -/
def chainImage (o : List Octet) : List Octet := o ++ List.replicate ((8 - o.length % 8) % 8) 0

/-- The chain: its length in octets, and its images. -/
def State.chainOctets (s : State) : List Octet :=
  let l := s.h.plan.chain.flatMap chainImage
  octetsLE 8 (8 + l.length) ++ l

/-- The images of a chain after its count; n bounds their number. -/
def chainImages : Nat → List Octet → List (List Octet)
  | 0, _ => []
  | n + 1, o =>
    let len := imageLen o
    if o.length < 16 ∨ len = 0 then (if o.isEmpty then [] else [o])
    else o.take len :: chainImages n (o.drop (len + (8 - len % 8) % 8))

/-- Checks the images in order on plans built one upon the other; ends with the plan and the clamps of the last image (R428),
or the first failure. -/
def State.checkChain (s : State) : List Nat → List (List Octet) → Except (List Octet × PlanErr) (Plan × List Nat)
  | c, [] => .ok (s.effPlan, c)
  | _, o :: l => match s.checkImage o false with
    | some e => .error (o, e)
    | none => (s.withPlan (s.planOf o)).checkChain (s.clampsOf o) l

/-- A plan under another role and MIRROR_ID. -/
def Plan.asFollower (pl : Plan) (id : Fin 4) : Plan :=
  { pl with params := pl.params.map fun e => if e.1 = 64 then (e.1, 2) else if e.1 = 64 * 17 then (e.1, (id.val : Int)) else e }

/-- A chain read from the lead is checked and applied; the package is then a follower (R26). An image of the chain that fails
leaves nothing applied. -/
def State.applyChain (s : State) (o : List Octet) (id : Fin 4) : State :=
  let images := chainImages (o.length / 8) ((o.take (leAt o 0 8)).drop 8)
  let t := s.updPlan fun x => { x with eff := none }
  match images with
  | [] => ((s.loadBegins 3 []).rejectImage [] { reason := 1, section_ := 0, hdr := true, off := none }).planResult 4
  | first :: _ =>
    let last := images.getLastD first
    if imageScope first ≠ 0 then
      ((s.loadBegins 3 first).rejectImage first { reason := 17, section_ := 0, hdr := true, off := some 6 }).planResult 4
    else match t.checkChain [] images with
      | .error (b, e) => ((s.loadBegins 3 b).rejectImage b e).planResult 4
      | .ok (pl, clamps) =>
        (((s.loadBegins 3 last).acceptImage last clamps).applyPlan (pl.asFollower id) images).progress

/-! ### The effective image (R429) -/

def leWord (w : Word) : List Octet := octetsLE 8 w.toNat

def paramOctets (e : Nat × Int) : List Octet :=
  octetsLE 2 (e.1 / 64) ++ octetsLE 2 (e.1 % 64) ++ zeros 4 ++ octetsLE 8 (e.2 % 2 ^ 64).toNat

def PlanPart.octets (q : PlanPart) : List Octet :=
  octetsLE 8 q.clusters.toNat ++ octetsLE 1 q.homes.length ++ padTo 8 (q.homes.flatMap (octetsLE 1)) ++ zeros 7 ++
    padTo 64 (q.vbase.flatMap leWord) ++ octetsLE 8 q.ptRoot ++ padTo 32 (q.admitDie.flatMap (octetsLE 1)) ++ leWord q.excEntry ++
    padTo 160 (q.kx.flatMap fun k => leWord k.w0 ++ leWord k.w1) ++ octetsLE 4 q.hfirst ++ octetsLE 4 q.hlast ++
    octetsLE 1 q.hflags.toNat ++ zeros 7

def Region.octets (r : Region) : List Octet :=
  octetsLE 1 r.part ++ octetsLE 1 r.die ++ octetsLE 1 r.slot ++ octetsLE 1 r.kind ++ octetsLE 1 r.flags.toNat ++ octetsLE 1 r.key ++
    zeros 2 ++ octetsLE 4 r.first ++ octetsLE 4 r.last ++ zeros 16

def PlanQueue.octets (q : PlanQueue) : List Octet :=
  octetsLE 1 q.en ++ octetsLE 1 q.form ++ octetsLE 1 q.size ++ octetsLE 1 q.tmpl ++ octetsLE 4 q.base ++ octetsLE 1 q.iflags ++
    octetsLE 1 q.idie ++ octetsLE 1 q.icluster ++ octetsLE 1 q.cores ++ octetsLE 2 q.vector ++ zeros 2 ++ octetsLE 4 q.thresh ++ zeros 4

def PlanQArea.octets (a : PlanQArea) : List Octet :=
  octetsLE 1 a.part ++ octetsLE 1 a.die ++ octetsLE 1 a.flags ++ zeros 1 ++ octetsLE 4 a.first ++ octetsLE 4 a.last ++ zeros 4 ++
    padTo 192 (a.qs.flatMap PlanQueue.octets)

def TRule.octets (r : TRule) : List Octet :=
  octetsLE 1 r.kind ++ octetsLE 1 r.value ++ octetsLE 1 r.low ++ octetsLE 1 r.high ++ octetsLE 2 r.lo ++ octetsLE 2 r.hi

def PlanPort.octets (q : PlanPort) : List Octet :=
  octetsBE 6 q.mac ++ octetsLE 1 (bit q.untagged) ++ octetsLE 1 q.vids.length ++ padTo 32 (q.vids.flatMap (octetsLE 2)) ++
    octetsLE 1 q.v4.length ++ octetsLE 1 q.v6.length ++ zeros 6 ++ padTo 16 (q.v4.flatMap (octetsBE 4)) ++
    padTo 64 (q.v6.flatMap (octetsBE 16)) ++ padTo 256 (q.steer.flatMap (octetsLE 1)) ++
    padTo 1920 (q.templates.flatMap fun t => t.flatMap TRule.octets)

def PlanStandin.octets (q : PlanStandin) : List Octet :=
  octetsLE 2 q.body.length ++ octetsLE 1 q.echo.length ++ zeros 1 ++
    padTo 32 (q.echo.flatMap fun e => octetsLE 2 e.1 ++ octetsLE 2 e.2.1 ++ octetsLE 2 e.2.2 ++ zeros 2) ++ padTo 256 q.body ++ zeros 4

def PlanCode.octets (q : PlanCode) : List Octet :=
  octetsLE 1 q.die ++ octetsLE 1 q.cluster ++ zeros 2 ++ octetsLE 4 q.start ++ octetsLE 4 q.sylls.length ++
    q.sylls.flatMap fun w => octetsLE 2 w.toNat

def PlanLine.octets (y : PlanLine) : List Octet :=
  octetsBE 72 (y.chars.foldl (fun a c => a * 512 + c.toNat) 0) ++ octetsLE 1 (y.key * 16 + bit y.capline * 8) ++ zeros 7

def PlanData.octets (q : PlanData) : List Octet :=
  octetsLE 1 q.target ++ octetsLE 1 q.die ++ octetsLE 1 q.cluster ++ zeros 1 ++ octetsLE 4 q.line ++ octetsLE 4 q.lines.length ++
    zeros 4 ++ q.lines.flatMap PlanLine.octets

def PlanMember.octets (m : PlanMember) : List Octet :=
  octetsLE 1 (bit m.valid) ++ octetsLE 1 m.primary ++ octetsLE 1 m.secondary ++ zeros 1 ++ octetsBE 6 m.mac ++ zeros 2 ++
    octetsLE 2 m.outer ++ octetsLE 2 m.inner

/-- Sections of a plan by TYPE and INSTANCE. -/
def Plan.sections (pl : Plan) : List (Nat × Nat × List Octet) :=
  let one (t : Nat) (o : List Octet) : List (Nat × Nat × List Octet) := if o.isEmpty then [] else [(t, 0, o)]
  let order {α : Type} (l : List (Nat × α)) : List (Nat × α) := l.foldl (fun m e => putEntry e.1 e.2 m) []
  one 1 (pl.params.flatMap paramOctets) ++ (order pl.parts).map (fun e => (2, e.1, e.2.octets)) ++
    one 3 (pl.regions.flatMap Region.octets) ++ (order pl.queues).map (fun e => (4, e.1, e.2.octets)) ++
    (order pl.ports).map (fun e => (5, e.1, e.2.octets)) ++ (order pl.standins).map (fun e => (6, e.1, e.2.octets)) ++
    (order (pl.codes.map fun c => (8 * c.die + c.cluster, c))).map (fun e => (7, e.1, e.2.octets)) ++
    (order (pl.datas.map fun d => (d.inst, d))).map (fun e => (8, e.1, e.2.octets)) ++
    one 9 (padTo (if pl.hubGate.isEmpty then 0 else 40)
      (pl.hubGate.flatMap fun e => octetsLE 1 e.1.toNat ++ zeros 1 ++ octetsLE 2 e.2.toNat)) ++
    one 10 (pl.mirror.flatMap PlanMember.octets) ++
    (match pl.power with
      | some m => [(11, 0, octetsLE 16 m.toNat)]
      | none => [])

/-- Sections laid out from octet a: their places and the octets with the padding before each. -/
def layOut : Nat → List (Nat × Nat × List Octet) → List (Nat × Nat × Nat × List Octet) × List Octet
  | _, [] => ([], [])
  | a, (t, i, o) :: l =>
    let b := ceilDiv a 8 * 8
    let r := layOut (b + o.length) l
    ((t, i, b, o) :: r.1, zeros (b - a) ++ o ++ r.2)

/-- The effective image of the plan in force. -/
def State.effImage (s : State) : List Octet :=
  let pl := s.effPlan
  let l := pl.sections
  let e := 64 + 16 * l.length
  let (places, body) := layOut (e + 4) l
  let dir := places.flatMap fun x =>
    octetsLE 2 x.1 ++ octetsLE 2 x.2.1 ++ octetsLE 4 x.2.2.1 ++ octetsLE 4 x.2.2.2.length ++ octetsLE 4 (crc32c x.2.2.2).toNat
  let len := max 72 (e + 4 + body.length)
  let head : List Octet := [0x48, 0x4D, 0x50, 0x52] ++ octetsLE 2 1 ++ zeros 2 ++ octetsLE 2 s.h.fuses.partCode ++
    octetsLE 1 s.h.fuses.stepping.toNat ++ zeros 1 ++ octetsLE 4 len ++ octetsLE 4 l.length ++ zeros 12 ++ octetsLE 8 pl.gen ++ zeros 20
  padTo len (head ++ octetsLE 4 (crc32c head).toNat ++ dir ++ octetsLE 4 (crc32c dir).toNat ++ body)

end Sys2Proof.Machine
end

