-- ==== Sys2Proof/Machine/Mirror.lean ====
section
/-! DEFINITION. The mirror group: heartbeats (R371), input logs and acknowledgements (R367 to R370), fetches and copies (R372,
R373, R431), and the loss of a peer, demotion and takeover (R374 to R377). -/

namespace Sys2Proof.Machine

/-! ### Peers and frames -/

/-- The other valid members of the group (R419). -/
def State.peerIds (s : State) : List Nat :=
  match s.h.plan.eff with
  | none => []
  | some pl => (List.range 4).filter fun i =>
    decide (i ≠ s.h.mirror.id.val) && (match pl.mirror[i]? with | some m => m.valid | none => false)

def State.mpeer (s : State) (i : Nat) : MPeer := Sparse.get MPeer.reset s.h.mirror.peers i
def State.updMPeer (s : State) (i : Nat) (f : MPeer → MPeer) : State :=
  s.updMirror fun m => { m with peers := Sparse.set MPeer.reset m.peers i (f (Sparse.get MPeer.reset m.peers i)) }

/-- A higher TERM is adopted: a lead becomes stale, a follower waits for the new lead (R376). -/
def State.adopt (s : State) (f : MFrame) : State :=
  if f.term ≤ s.h.mirror.term then s
  else
    let s1 := (s.updMirror fun m => { m with term := f.term, lead := none, taking := false }).mbxResult 5 1 []
    if s.h.mirror.role = 1 then s1.becomeStale else s1

/-- The first frame in the list that sel picks, and the others. -/
def takeFrame (sel : MPayload → Bool) : List MFrame → Option (MFrame × List MFrame)
  | [] => none
  | f :: l => if sel f.body then some (f, l) else (takeFrame sel l).map fun x => (x.1, f :: x.2)

/-- Takes the first frame of a kind that has arrived; one of a lower TERM than the package's own by then is discarded (R376). -/
def State.takeMirror (s : State) (sel : MPayload → Bool) (f : State → MFrame → State) : State :=
  match takeFrame sel s.h.mirror.inbox with
  | none => s
  | some (x, l) =>
    let s1 := s.updMirror fun m => { m with inbox := l }
    if x.term < s1.h.mirror.term then s1.updMirror fun m => { m with drop := m.drop + 1 } else f (s1.adopt x) x

/-! ### The follower's ACK and its replay (R369, R370) -/

/-- Epochs from a to b, b included. -/
def epochsTo (a b : Nat) : List Nat := (List.range ((b + 2 ^ 72 - a % 2 ^ 72) % 2 ^ 72)).map fun i => (a + 1 + i) % 2 ^ 72

/-- HELD as the follower acknowledges it: no more than FOLLOW_LAG epochs beyond the last applied. -/
def State.ackHeld (s : State) (p : Nat) : Nat :=
  let q := s.partn p
  let lag := s.paramN 22 0 50
  if (q.heldTo + 2 ^ 72 - q.applied % 2 ^ 72) % 2 ^ 72 ≤ lag then q.heldTo else (q.applied + lag) % 2 ^ 72

/-- Sends the lead an ACK for p. -/
def State.sendFollowAck (s : State) (p : PartId) : State :=
  let q := s.partn p
  let miss := q.heldLast.flatMap fun x => (q.missing x.1).map fun n => (x.1, n)
  match s.h.mirror.lead with
  | none => s
  | some l => s.sendMirror l (.ack p (s.ackHeld p) q.applied (miss.take 747))

/-- A logged request makes its session known: the entry as the header names it, the number HELD. E moves so far that the number
lies in the window. -/
def State.followSession (s : State) (n : Nat) (m : Lpt) : State :=
  let i := sidIndex m.sid
  let x := s.session n i
  if sidGen m.sid = 0 then s
  else
    let (s1, nonce) := if x.isOpen ∧ x.gen = sidGen m.sid then (s, 0) else s.fresh
    let y : Session :=
      if x.isOpen ∧ x.gen = sidGen m.sid then x
      else { Session.reset with isOpen := true, gen := sidGen m.sid, peer := m.peer, nonce := BitVec.ofNat 32 nonce, base := m.seq }
    let k := (m.seq - y.base).toNat
    let w := s.paramN 50 n 64
    let z := if w ≤ k ∧ k < 2 ^ 31 then { y with base := m.seq - BitVec.ofNat 32 (w - 1) } else y
    let z1 := if (m.seq - z.base).toNat < 2 ^ 31 then z.hold m.seq else z
    s1.setSession n i { z1 with lastTick := s.tick }

/-- Queues a logged transaction on die d; none while there is no room. -/
def State.followSlot (s : State) (d : Nat) (v : Slot) (marks : List Bool) : Option (State × Nat × Slot) :=
  let q := s.queue d v.part 0
  let chars := if q.dense || v.org.host then s.landed (4 * d) q v.octets
    else (v.octets.zip marks).map fun x => Chr.mk x.2 x.1
  let w := { v with chars := chars, dense := q.dense }
  if (s.freeSlotOf d).isNone then none
  else (s.landPacket d w 1).map fun (r : State × Nat) => let t := r.1.takeFreeSlot d w r.2; (t.1, t.2, w)

/-- The outcome of a transaction as the log gives it. -/
def State.followOutcome (s : State) (p : PartId) (pos : Position) (o : Outcome) : State :=
  if (s.partn p).txns.any fun t => decide (t.pos = pos) && t.outcome.isNone then
    ((s.updPartn p fun q => { q with
      txns := q.txns.map fun t => if t.pos = pos then { t with outcome := some o } else t, cnt := q.cnt.decided o }).noticeAll p
        pos o).markDeparted p pos
  else s

/-- The event that the entries still to be entered hold for a transaction. -/
def Partition.eventFor (q : Partition) (pos : Position) : Option Outcome :=
  (q.todo.find? fun x => decide (x.2.kind = 2 ∨ x.2.kind = 3) && decide (x.2.target = pos)).map fun x =>
    if x.2.kind = 2 then .curfew else .memerr

/-- Die on which an injection is queued: the log does not name it, so the lowest one whose admit queue for p is enabled. -/
def State.injectDie (s : State) (p : Nat) : Option Nat := (List.range 8).find? fun d => s.alive d && (s.queue d p 0).en

/-- Enters a logged transaction on its admit die, and on the partner die in tandem mode. -/
def State.followTxn (s : State) (p : PartId) (d : Nat) (v : Slot) (marks : List Bool) : Option State :=
  if h : d < 8 then
    let e := d / 2 * 2 + (1 - d % 2)
    match s.followSlot d v marks with
    | none => none
    | some (s1, n, w) =>
      let s2 := s1.enterGate ⟨d, h⟩ n w
      let s3 := if v.org.host then s2 else s2.followSession v.org.port v.lpt
      let s4 := match (s.partn p).eventFor v.pos with
        | some o => s3.followOutcome p v.pos o
        | none => s3
      if (s.tandemOf p).isSome && s.alive e then (s4.followSlot e v marks).map Prod.fst else some s4
  else some s

/-- A PLAN entry: the image is staged as committed for the epoch after its log's. -/
def State.followPlan (s : State) (e : Nat) (o : List Octet) : State :=
  ((s.stage o (s.planOf o)).updPlan fun y =>
    { y with staged := y.staged.map fun z => { z with committed := true, epoch := epochNext e } }).setLast 6

/-- Keeps an event in the package's own log. -/
def State.keepEntry (s : State) (p e : Nat) (x : LogEntry) : State :=
  s.updPartn p fun q => { q with logs := Sparse.set [] q.logs e (Sparse.get [] q.logs e ++ [x]) }

/-- Enters one log entry; none while there is no room. -/
def State.feedOne (s : State) (p : PartId) (e : Nat) (x : LogEntry) : Option State :=
  match x.kind with
  | 1 =>
    let n := x.pos.port.toNat
    match parseLpt x.data x.peer, s.admitDie n p with
    | some m, some d => s.followTxn p d (s.requestSlot n m p x.pos) x.marks
    | _, _ => some s
  | 4 => match s.injectDie p with
    | none => some s
    | some d =>
      s.followTxn p d { Slot.reset with
        part := p, pos := x.pos, curfew := s.curfewTick p x.pos.tick none, org := { Origin.none with host := true, port := 4 * p.val },
        octets := x.data } []
  | 2 => some ((s.keepEntry p e x).followOutcome p x.target .curfew)
  | 3 => some ((s.keepEntry p e x).followOutcome p x.target .memerr)
  | 5 => some ((s.keepEntry p e x).followPlan e x.data)
  | _ => some s

/-- Entries of epoch e wait for an image that takes effect first. -/
def State.planFirst (s : State) (p : PartId) (e : Nat) : Bool :=
  match s.h.plan.staged with
  | some x => decide (x.part = p.val) && epochLe x.epoch e
  | none => false

/-- Highest of some ticks, by unwrapped value. -/
def State.lastOf (s : State) (l : List (BitVec 48)) : Option (BitVec 48) :=
  l.foldl (fun a t => match a with
    | none => some t
    | some b => if s.unwrap b < s.unwrap t then some t else some b) none

/-- A position of this tick, of a transaction or of an event, has been replayed (R71). -/
def State.noteReplayed (s : State) (t : BitVec 48) : State :=
  s.updMirror fun m => { m with replayed := s.lastOf (match m.replayed with | some u => [u, t] | none => [t]) }

/-- Enters log entries in order as far as there is room, n of them at most. -/
def State.feed (s : State) (p : PartId) : Nat → State
  | 0 => s
  | n + 1 => match (s.partn p).todo with
    | [] => s
    | (e, x) :: l =>
      if s.planFirst p e then s
      else match s.feedOne p e x with
        | none => s
        | some t => ((t.noteReplayed x.pos.tick).updPartn p fun q => { q with todo := l }).feed p n

/-- Counts epochs as applied while every transaction is resolved and every die has formed its digest, and compares the digest
with the log's trailer. -/
def State.applyHeld (s : State) (p : PartId) : Nat → State
  | 0 => s
  | n + 1 =>
    let q := s.partn p
    let e := epochNext q.applied
    if !q.complete e || q.todo.any (fun x => epochLe x.1 e) then s
    else match s.epochDigest p e, q.heldLastOf e with
      | some g, some (_, _, o, u) =>
        let s1 := s.updPartn p fun q => { q with
          applied := e, sealed := e, held := Sparse.set [] q.held e [], heldLast := Sparse.set none q.heldLast e none,
          sealedDigests := Sparse.set none q.sealedDigests e (some (o, u)) }
        let s2 := if g = (o, u) then s1
          else (s1.updMirror fun m => { m with diverged := true }).logErr 0o41 2 0 true p 0 (word e) 0
        s2.applyHeld p n
      | _, _ => s

/-- Releases epoch e of p to every participating die. -/
def State.releaseOne (s : State) (p : PartId) (e : Nat) : State :=
  let s1 := s.updPartn p fun q => { q with released := e }
  s1.members.foldl (fun x d => if h : d < 8 then x.post (.release ⟨d, h⟩ p e) else x) s1

/-- Released epochs that the lead has announced and the follower has applied become visible. -/
def State.followRelease (s : State) (p : PartId) : State :=
  match s.h.mirror.lead with
  | none => s
  | some l =>
    let q := s.partn p
    let r := (s.mpeer l).epochs.getD p 0
    let e := if epochLe r q.applied then r else q.applied
    if epochLe e q.released then s else (epochsTo q.released e).foldl (fun x e => x.releaseOne p e) s

/-- p's replay goes on. -/
def State.followOn (s : State) (p : PartId) : State :=
  if (s.partn p).st ≠ .following then s
  else
    let s1 := s.feed p (s.partn p).todo.length
    (s1.applyHeld p (s1.partn p).heldLast.length).followRelease p

/-! ### Takeover (R375 to R377) -/

/-- This package may take over: SYNCED, not DIVERGED, not DROPPED (R375). -/
def State.selfEligible (s : State) : Bool :=
  let m := s.h.mirror
  decide (m.role = 2) && m.synced && !m.diverged && !m.dropped.getLsbD m.id

/-- The Sundial turns to the plan's sources, in HOLDOVER until one qualifies (R70, R377). -/
def State.ownSources (s : State) : State :=
  let s1 := s.updSd fun x => { x with pri := .reset, sec := .reset }
  if s.h.sd.g.st = .unset then s1 else s1.enterHoldover

/-- Responses of epochs of p after r depart, with RETX set (R377). -/
def State.departLate (s : State) (p r n : Nat) : State :=
  let late (e : Cached) : Bool := decide (e.part.val = p) && epochAfter e.epoch r
  ((s.port n).cached.filter late).foldl (fun x e =>
    ((((x.retype (n / 4) p (4 + n % 4) e.ptr 1).setPacketEpoch (n / 4) p (4 + n % 4) e.ptr e.epoch).updPort n fun z =>
      { z with cached := z.cached.map fun y => if y = e then { e with departed := false, retx := true } else y }).updSlot e.die e.slot
        fun v => if v.pos.tick = 0 ∨ v.st = .free then v else { v with departed := false })) s

/-- The last epoch of p that the old lead announced as released, or that this package has released. -/
def State.announced (s : State) (p : Nat) : Nat :=
  let r := (s.partn p).released
  match s.h.mirror.oldLead with
  | none => r
  | some l =>
    let a := (s.mpeer l).epochs.getD p r
    if epochLe a r then r else a

/-- Partition p goes over from replay to service. -/
def State.leadPart (s : State) (p : PartId) : State :=
  let q := s.partn p
  let s1 := iter 32 (fun n x => x.departLate p (s.announced p) n) s
  let s2 := (epochsTo q.released q.applied).foldl (fun x e => x.releaseOne p e) s1
  s2.updPartn p fun z => { z with st := if z.st = .stopped then .stopped else s2.runningState p, acked := [], joinEpoch := none }

/-- The steps of R377 after the held epochs have been applied. -/
def State.becomeLead (s : State) : State :=
  let old := s.h.mirror.dropped
  let s1 := (s.updMirror fun m => { m with taking := false, synced := false, leadLost := false, lead := none, dropped := old }).setRole 1
  let ticks := (List.range 16).flatMap fun p => ((s.partn p).txns.map fun t => t.pos.tick) ++
    (if (s.partn p).applied = 0 then [] else [s.lastTick (s.partn p).applied])
  let ticks := (match s.h.mirror.replayed with | some t => [t] | none => []) ++ ticks
  let s2 := (s1.updMirror fun m => { m with replayTick := s.lastOf ticks }).ownSources
  let s3 := ((List.finRange 16).foldl (fun x p => x.leadPart p) s2).updMirror fun m => { m with oldLead := none }
  let s4 := iter 32 (fun n x =>
    if x.alive (n / 4) && x.portExists n then x.announce n (x.planPort n).v4 (x.planPort n).v6 else x) s3
  let s5 := if s4.h.sd.g.st = .unset then s4
    else s4.startHorizons.updSd fun x => { x with opened := true, g := { x.g with admitOpen := true } }
  (s5.logErr 0o42 0 0 true 0 0 (word s5.h.mirror.term) 0).mbxResult 5 0 [BitVec.ofNat 32 s5.h.mirror.term]

/-- Every held epoch has been applied. -/
def State.allApplied (s : State) : Bool :=
  (List.range 16).all fun p =>
    let q := s.partn p
    decide (q.st ≠ .reexec) && (decide (q.st ≠ .following) || (decide (q.heldTo = q.applied) && q.todo.isEmpty))

/-- A takeover that has begun ends. -/
def State.endTakeover (s : State) : State := if s.h.mirror.taking && s.allApplied then s.becomeLead else s

/-- A takeover begins: TERM rises, and TAKE goes to every peer (R376). The old lead is no follower. -/
def State.startTakeover (s : State) : State :=
  let m := s.h.mirror
  let gone : BitVec 4 := match m.lead with
    | some l => 1#4 <<< l.val
    | none => 0
  let s1 := s.updMirror fun m => { m with term := (m.term + 1) % 2 ^ 32, taking := true, dropped := gone, oldLead := m.lead, lead := none }
  (s1.peerIds.foldl (fun x i => x.sendMirror i (.take m.id s.heldEpochs)) s1).endTakeover

/-- After anything that lets a follower go on: replay, ACK where it says more than before, the end of a takeover. -/
def State.followed (s t : State) (p : PartId) : State :=
  let u := t.followOn p
  let same := decide (u.ackHeld p = s.ackHeld p) && decide ((u.partn p).applied = (s.partn p).applied)
  (if same || decide ((u.partn p).st ≠ .following ∧ (u.partn p).st ≠ .joining) then u else u.sendFollowAck p).endTakeover

/-! ### HEART (R371) -/

/-- ROLE of a HEART; a follower in Night shows 0 (R467). -/
def State.heartRole (s : State) : Nat :=
  if s.h.mirror.role = 2 ∧ s.h.pwr.st = .night then 0 else s.h.mirror.role.toNat

def State.leadHeard (s : State) : Bool :=
  decide (s.h.mirror.role = 2) && !s.h.mirror.leadLost && (match s.h.mirror.lead with
    | some l => (s.mpeer l).heard
    | none => false)

/-- The HEART for peer i. -/
def State.heartFor (s : State) (i : Nat) : MPayload :=
  let m := s.h.mirror
  let dropped := if m.role = 1 then m.dropped.getLsbD i else m.dropped.getLsbD m.id
  let q := s.mpeer i
  .heart s.heartRole (bit s.leadHeard + 2 * bit m.synced + 4 * bit m.diverged + 8 * bit dropped) m.heard (SdSt.code s.h.sd.g.st)
    s.h.sd.g.time.toNat q.lastT1 q.lastT4
    ((List.range 16).map fun p => if m.role = 2 then (s.partn p).applied else (s.partn p).released)

/-- A HEART goes on the peer's primary port, whichever port other frames use. -/
def execHeartSend (s : State) : Host.Outcome State Fault Refusal :=
  .next (s.peerIds.foldl (fun x i => x.sendMirrorOn (32 + (x.member i).primary) i (x.heartFor i)) s)

/-- A join that a follower no longer needs: its images go (R373, R374). -/
def State.endJoin (s : State) (p : Nat) : State :=
  iter 8 (fun d x => x.updDie d fun e => { e with m := { e.m with
    images := e.m.images.filter fun g => !(g.join && decide (g.part.val = p)) } })
    (s.updPartn p fun q => { q with joinEpoch := none })

/-- The lead drops follower i (R374). -/
def State.dropFollower (s : State) (i : Nat) : State :=
  if i ∉ s.followers then s
  else
    let s1 := s.updMirror fun m => { m with dropped := m.dropped ||| (1#4 <<< i) }
    let s2 := iter 16 (fun p x =>
      if (x.partn p).joinEpoch.isSome ∧ (x.partn p).joinTo = i then x.endJoin p else x) s1
    s2.logErr 0o40 0 0 true 0 0 (word i) 0

/-- The offset of a follower's Sundial from its lead, local minus lead, in ns. -/
def State.heartMeasure (s : State) (t1 t3 t4 : Nat) (t2 : Int) : State :=
  let m : Int := ((t2 - t1) - ((t4 : Int) - t3)) / 2
  let loc := t2.toNat
  let time := (t2 - m).toNat
  let gap := (time - s.h.sd.pri.at_) / 1000000
  let (s1, y) := s.servoTake false m
  s1.measure false time loc gap y

/-- A follower takes its lead's HEART: DROPPED, released epochs. -/
def State.leadHeart (s : State) (src : Fin 4) (flags : Nat) : State :=
  let m := s.h.mirror
  let fresh := decide (m.lead ≠ some src)
  let told := flags.testBit 3
  let mine : BitVec 4 := 1#4 <<< m.id.val
  let s1 := s.updMirror fun z => { z with
    lead := some src, leadLost := false, dropped := if told then z.dropped ||| mine else z.dropped &&& ~~~mine }
  if told && !m.dropped.getLsbD m.id then s1.joinAll
  else
    let s2 := if fresh then (List.finRange 16).foldl (fun x p =>
        if (x.partn p).st = .joining ∧ (x.partn p).joinEpoch = none then x.sendMirror src (.join p) else x) s1
      else s1
    ((List.finRange 16).foldl (fun x p => x.followed (x.followOn p) p) s2)

def MPayload.isLog : MPayload → Bool
  | .log _ _ _ _ _ _ _ _ _ => true
  | _ => false
def MPayload.isAck : MPayload → Bool
  | .ack _ _ _ _ => true
  | _ => false
def MPayload.isFetch : MPayload → Bool
  | .fetch _ _ _ _ _ => true
  | _ => false
def MPayload.isLine : MPayload → Bool
  | .line _ _ _ _ _ _ _ _ => true
  | _ => false
def MPayload.isTake : MPayload → Bool
  | .take _ _ => true
  | _ => false
def MPayload.isJoined : MPayload → Bool
  | .joined _ _ _ => true
  | _ => false

/-- A HEART, received at local posting time t2. -/
def execHeart (t2 : Int) (s : State) : Host.Outcome State Fault Refusal :=
  .next <| s.takeMirror MPayload.isHeart fun x f => match f.body with
    | .heart role flags _ _ t1 t3 t4 epochs =>
      let x1 := x.updMPeer f.src fun q => { q with
        role := role, flags := flags, leadHeard := flags.testBit 0, lastT1 := t1, lastT4 := t2.toNat % 2 ^ 72, epochs := epochs }
      if x1.h.mirror.role = 1 then (if role = 0 then x1.dropFollower f.src else x1)
      else if x1.h.mirror.role = 2 ∧ role = 1 ∧ ¬ x1.h.mirror.taking ∧
          (x1.h.mirror.lead = none ∨ x1.h.mirror.lead = some f.src) then
        (x1.heartMeasure t1 t3 t4 t2).leadHeart f.src flags
      else x1
    | _ => x

/-! ### LOG and ACK (R367 to R370) -/

/-- The entries of some complete epochs, to be entered in position order. -/
def Partition.entriesOf (q : Partition) (es : List Nat) : List (Nat × LogEntry) :=
  es.flatMap fun e => (sortEntries ((Sparse.get [] q.held e).flatMap Prod.snd)).map fun x => (e, x)

/-- A follower takes a segment that it does not hold yet. -/
def State.holdSegment (s : State) (p : PartId) (last : Bool) (seg e : Nat) (entries : List LogEntry) (total : Nat)
    (o u : BitVec 64) : State :=
  let q0 := s.partn p
  let s1 := s.updPartn p fun q =>
    let l := Sparse.get [] q.held e
    { q with
      held := if l.any fun g => decide (g.1 = seg) then q.held else Sparse.set [] q.held e (l ++ [(seg, entries)]),
      heldLast := if last then Sparse.set none q.heldLast e (some (seg, total, o, u)) else q.heldLast }
  let q1 := s1.partn p
  if q0.st = .joining then s1
  else s1.updPartn p fun q => { q with todo := q.todo ++ q1.entriesOf (epochsTo q0.heldTo q1.heldTo) }

def execLog (s : State) : Host.Outcome State Fault Refusal :=
  .next <| s.takeMirror MPayload.isLog fun x f => match f.body with
    | .log p _ last seg e entries total o u =>
      let q := x.partn p
      let takes := decide (q.st = .following ∨ q.st = .reexec ∨ (q.st = .joining ∧ q.joinEpoch.isSome))
      if x.h.mirror.role ≠ 2 ∨ ¬ takes ∨ ¬ (x.h.mirror.lead = none ∨ x.h.mirror.lead = some f.src) then x
      else if epochLe e q.heldTo then x.sendFollowAck p
      else
        let x1 := x.holdSegment p last seg e entries total o u
        let x2 := x.followed x1 p
        if last && decide (x2.ackHeld p = x.ackHeld p) then x2.sendFollowAck p else x2
    | _ => x

/-- An epoch that a follower has not acknowledged in time is sent to it again. -/
def execLogResend (p : PartId) (e : Nat) (peer : Fin 4) (s : State) : Host.Outcome State Fault Refusal :=
  .next <|
    if peer.val ∉ s.followers ++ s.joiner p ∨ epochLe e (Sparse.get 0 (s.partn p).acked peer) then s else s.shipTo p e peer fun _ => true

/-- The lead takes an ACK: the epoch acknowledged, and the segments named as missing, which it sends again. -/
def execMirrorAck (s : State) : Host.Outcome State Fault Refusal :=
  .next <| s.takeMirror MPayload.isAck fun x f => match f.body with
    | .ack p held _ miss =>
      if x.h.mirror.role ≠ 1 then x
      else
        let old := Sparse.get 0 (x.partn p).acked f.src
        let x1 := if epochLe held old then x
          else x.updPartn p fun q => { q with acked := Sparse.set 0 q.acked f.src held }
        (miss.foldl (fun y m => y.shipTo p m.1 f.src fun n => decide (n = m.2)) x1).edgePassed
    | _ => x

/-! ### Comparison of digests (R359 to R361, R370) -/

def execDigestCompare (p : PartId) (s : State) : Host.Outcome State Fault Refusal :=
  .next <|
    let s1 := (s.takeDigests p).edgePassed
    let q := s1.partn p
    let pair (x : State) (e : Nat) : State := match x.tandemOf p with
      | none => x
      | some k => if x.alive (2 * k) && x.alive (2 * k + 1) then x.comparePair p k e q.digests.length else x
    match q.st with
    | .reexec =>
      let n := (q.reexecTo + 2 ^ 72 - q.released % 2 ^ 72) % 2 ^ 72
      if n < 2 ^ 71 then s.followed (s1.compareRerun p q.released n) p else s1
    | .stopped => s1
    | .joining => s1
    | .following => s.followed (pair s1 q.applied) p
    | _ => pair s1 q.sealed

/-! ### FETCH and LINE (R372, R385, R431) -/

def metaOctet (k : BitVec 4) (capline : Bool) : Octet := BitVec.ofNat 8 (k.toNat * 16 + bit capline * 8)

/-- The 576 bits of a line as 72 octets. -/
def lineOctets (l : List Chr) : List Octet := octetsBE 72 (l.foldl (fun a c => a * 512 + c.toNat) 0)

/-- LINE k of the plan chain (R431). -/
def State.chainLine (s : State) (dst die line : Nat) (tag : BitVec 32) : State :=
  let all := s.chainOctets
  let o := (all.drop (72 * line)).take 72
  if o.isEmpty ∨ s.h.plan.eff.isNone then s.sendMirror dst (.line 255 die line 0 tag 3 0 (zeros 72))
  else s.sendMirror dst (.line 255 die line 0 tag 0 0 (padTo 72 o))

/-- The last epoch whose changes are all in the package's lines. -/
def State.appliedOf (s : State) (p : Nat) : Nat := if s.h.mirror.role = 2 then (s.partn p).applied else (s.partn p).sealed

/-- Reads a line as of epoch e, through its before-images, with its tags; none where the content is lost or poisoned. -/
def State.readAsOf (s : State) (d l e : Nat) (ecc : Ecc) : State × Option (List Chr × LineMeta) :=
  let keep (x : State) (y : List Chr × LineMeta) : State × Option (List Chr × LineMeta) :=
    (x, if y.2.poison then none else some y)
  match s.imageAfter d l e with
  | some g =>
    let (s1, h) := s.readImage d g ecc.line 5
    match h with
    | none => (s1, none)
    | some h => keep s1 (h.chars, h.info)
  | none =>
    let (s1, tags) := s.readTags d l ecc
    if tags then (s1, none)
    else
      let (s2, lost) := s1.readSymbols d l ecc 5 (rowOf l)
      if lost then (s2, none) else keep s2 (s2.lineChars d l, s2.lineInfo d l)

/-- The answer to a FETCH of a line of partition p. -/
def State.answerFetch (s : State) (dst p die line e : Nat) (tag : BitVec 32) (ecc : Ecc) : State :=
  let no (x : State) (st : Nat) : State := x.sendMirror dst (.line p die line e tag st 0 (zeros 72))
  if !s.alive die || !s.regions.any (fun r => decide (r.part = p) && decide (s.regionAt die line = some r)) then no s 3
  else if epochAfter (s.partn p).visible e then no s 1
  else
    let (s1, got) := s.readAsOf die line e ecc
    match got with
    | none => no s1 2
    | some (chars, info) => s1.sendMirror dst (.line p die line e tag 0 (metaOctet (info.key.getD (s1.initialKey die line)) info.capline) (lineOctets chars))

/-- A FETCH that can be answered: not one for an epoch that the package has not applied, nor one for a line that waits, while the
package still holds the line as of that epoch. -/
def State.fetchReady (s : State) (b : MPayload) : Bool :=
  match b with
  | .fetch p die line e _ =>
    decide (16 ≤ p) || decide (8 ≤ die) ||
      (!epochAfter e (s.appliedOf p) && (epochAfter (s.partn p).visible e || !s.outerWaits die line))
  | _ => false

/-- Answers the first FETCH of a peer that can be answered. ecc: what the read of the line meets. -/
def State.peerFetch (s : State) (ecc : Ecc) : State :=
  s.takeMirror s.fetchReady fun x f => match f.body with
    | .fetch p die line e tag =>
      if p = 255 then (if e = 0 ∧ x.h.mirror.role = 1 then x.chainLine f.src die line tag else x)
      else if 16 ≤ p ∨ 8 ≤ die then x.sendMirror f.src (.line p die line e tag 3 0 (zeros 72))
      else x.answerFetch f.src p die line e tag ecc
    | _ => x

/-! #### The partner's fetch (R385) -/

/-- A partner's fetch that waits at die d: for its line, by the access that it is. -/
def State.partnerReady (s : State) (m : Msg) : Bool :=
  match m with
  | .fetchLine _ dst line _ => !s.outerWaits dst line
  | _ => false

/-- The die's answer to its partner's fetch of a line as of epoch e: 0, its content and state; 1 STALE; 2 POISONED; 3 NOREGION. -/
def State.partnerFetch (s : State) (ecc : Ecc) : State :=
  s.receive s.partnerReady fun x m => match m with
    | .fetchLine src d line e =>
      let say (y : State) (st : Nat) (k : BitVec 4) (c : Bool) (l : List Chr) : State := y.post (.lineAnswer d src line e st k c l)
      let no (y : State) (st : Nat) : State := say y st 0 false []
      match x.regionAt d line with
      | none => no x 3
      | some g =>
        if epochAfter (x.partn g.part).visible e then no x 1
        else
          let (x1, got) := x.readAsOf d line e ecc
          match got with
          | none => no x1 2
          | some (chars, info) => say x1 0 (info.key.getD (x1.initialKey d line)) info.capline chars
    | _ => x

/-- Answers a partner die's fetch, or else a peer's. -/
def execFetch (ecc : Ecc) (s : State) : Host.Outcome State Fault Refusal :=
  .next (if s.msgs.any s.partnerReady then s.partnerFetch ecc else s.peerFetch ecc)

/-- The state of a received line, by its KEY and CAPLINE. -/
def State.takenMeta (s : State) (d l : Nat) (k : BitVec 4) (capline : Bool) : LineMeta :=
  let own := decide (k = s.initialKey d l)
  { key := if own then none else some k, keyed := !own, capline := capline, poison := false }
/-- The same from META. -/
def State.takenInfo (s : State) (d l : Nat) (o : Octet) : LineMeta := s.takenMeta d l (BitVec.ofNat 4 (o.toNat / 16)) (o.getLsbD 3)

/-- The next octets of the plan chain: another FETCH, or the whole chain (R431). -/
def State.chainTaken (s : State) (src : Nat) (line status : Nat) (tag : BitVec 32) (data : List Octet) : State :=
  let m := s.h.mirror
  if !m.loading || decide (72 * line ≠ m.chainIn.length) then s
  else if status ≠ 0 then
    (((s.updMirror fun z => { z with loading := false, chainIn := [] }).loadBegins 3 []).rejectImage []
      { reason := 1, section_ := 0, hdr := true, off := none }).planResult 4
  else
    let got := m.chainIn ++ data
    let need := leAt got 0 8
    if need ≤ got.length then (s.updMirror fun z => { z with loading := false, chainIn := [] }).applyChain got m.id
    else (s.updMirror fun z => { z with chainIn := got }).sendMirror src (.fetch 255 0 (line + 1) 0 tag)

/-- A repair's answer (R385). -/
def State.repairTaken (s : State) (src die line e status : Nat) (info : Octet) (data : List Octet) : State :=
  match (s.die die).m.repairs.find? fun r => decide (r.line = line) && decide (r.epoch = e) && !r.partner with
  | none => s
  | some r =>
    let now := (s.partn r.part).released
    match status with
    | 0 => s.repaired die line (charsOfOctets data) (s.takenInfo die line info) 2
    | 1 =>
      let tag := (s.h.mirror.fetchTag + 1) % 2 ^ 32
      let s1 := (s.updMirror fun m => { m with fetchTag := tag }).updDie die fun z => { z with m := { z.m with
        repairs := z.m.repairs.map fun q => if q = r then { r with epoch := now } else q } }
      s1.sendMirror src (.fetch r.part die line now (BitVec.ofNat 32 tag))
    | _ => s.poisonKept die line

/-- The partner's answer to a repair (R385). -/
def State.partnerTaken (s : State) (d line e status : Nat) (k : BitVec 4) (capline : Bool) (chars : List Chr) : State :=
  match (s.die d).m.repairs.find? fun r => decide (r.line = line) && decide (r.epoch = e) && r.partner with
  | none => s
  | some r => match status with
    | 0 => s.repaired d line chars (s.takenMeta d line k capline) 1
    | 1 =>
      let now := (s.partn r.part).released
      (s.updDie d fun z => { z with m := { z.m with
        repairs := z.m.repairs.map fun q => if q = r then { r with epoch := now } else q } }).askPartner d line now
    | _ => s.poisonKept d line

/-- The message is a partner's answer. -/
def Msg.isLineAnswer : Msg → Bool
  | .lineAnswer _ _ _ _ _ _ _ _ => true
  | _ => false

/-- A LINE of a peer: of the plan chain, of a copy, or in answer to a repair's FETCH. -/
def State.peerLine (s : State) : State :=
  s.takeMirror MPayload.isLine fun x f => match f.body with
    | .line p die line e tag status info data =>
      if p = 255 then x.chainTaken f.src line status tag data
      else if tag = 0 then
        let q := x.partn p
        if x.h.mirror.role = 2 ∧ q.st = .joining ∧ q.joinEpoch = some e ∧ status = 0 then
          (x.copies p die).foldl (fun y d => y.putLine d line (charsOfOctets data) (y.takenInfo d line info)) x
        else x
      else x.repairTaken f.src die line e status info data
    | _ => x

/-- A line arrives: a partner's answer, or else a peer's LINE. -/
def execLine (s : State) : Host.Outcome State Fault Refusal :=
  .next <| if s.msgs.any Msg.isLineAnswer then
      s.receive Msg.isLineAnswer fun x m => match m with
        | .lineAnswer _ d line e status k c chars => if x.alive d then x.partnerTaken d line e status k c chars else x
        | _ => x
    else s.peerLine

/-! ### JOIN (R373) -/

/-- The line as of J: its join image, or the line itself. -/
def State.joinLine (s : State) (d l : Nat) : List Chr × LineMeta :=
  match (s.die d).m.images.find? fun g => decide (g.line = l) && g.join with
  | some g => (g.chars, g.info)
  | none => (s.lineChars d l, s.lineInfo d l)

/-- Lines that epochs after J have already changed keep their content as of J as join images. -/
def State.joinStart (s : State) (p : PartId) (j d : Nat) : State :=
  let l := (s.die d).m.images.foldl (fun (a : List Image) g =>
    if g.part = p && !g.join && epochAfter g.epoch j && !a.any fun h => decide (h.line = g.line) then
      a ++ [{ g with epoch := j, owner := none, join := true }] else a) []
  s.updDie d fun e => { e with m := { e.m with images := e.m.images ++ l } }

/-- The lead answers a JOIN: J, and the logs of epochs after J that are sealed. -/
def State.startJoin (s : State) (p : PartId) (i : Nat) : State :=
  let j := (s.partn p).released
  let s1 := ((s.endJoin p).updPartn p fun q => { q with joinEpoch := some j, joinTo := i }).sendMirror i (.joined p j 0)
  let s2 := iter 8 (fun d x => x.joinStart p j d) s1
  if (List.range 8).any fun d => decide (s2.paramN 41 d 65536 < (s2.die d).m.images.length) then s2.giveUpJoin p
  else (epochsTo j (s2.partn p).sealed).foldl (fun x e => x.shipTo p e i fun _ => true) s2

/-- The stream of p's lines as of J, and its end. -/
def State.streamJoin (s : State) (p : PartId) (j : Nat) : State :=
  let i := (s.partn p).joinTo
  let line (r : Region) (x : State) (l : Nat) : State :=
    let (chars, info) := x.joinLine r.die l
    x.sendMirror i (.line p r.die l j 0 0 (metaOctet (info.key.getD (x.initialKey r.die l)) info.capline) (lineOctets chars))
  let s1 := (s.regions.filter fun r => decide (r.part = p.val)).foldl (fun x r =>
    (List.range (r.last + 1 - r.first)).foldl (fun y k => line r y (r.first + k)) x) s
  let s2 := (s1.sendMirror i (.joined p j 1)).endJoin p
  (s2.updMirror fun m => { m with dropped := m.dropped &&& ~~~(1#4 <<< i) }).logErr 0o44 0 0 true p 0 (word j) 0

/-- A JOIN frame is answered unless p is being copied to another follower; with none, a copy in progress is completed. -/
def execJoin (s : State) : Host.Outcome State Fault Refusal :=
  .next <|
    let free (b : MPayload) : Bool := match b with
      | .join p => (s.partn p).joinEpoch.isNone ||
        s.h.mirror.inbox.any fun f => decide (f.body = b) && decide ((s.partn p).joinTo = f.src.val)
      | _ => false
    if s.h.mirror.inbox.any fun f => free f.body then
      s.takeMirror free fun x f => match f.body with
        | .join p => if x.h.mirror.role = 1 then x.startJoin p f.src else x
        | _ => x
    else if s.h.mirror.role ≠ 1 then s
    else match (List.finRange 16).find? fun (p : PartId) => (s.partn p).joinEpoch.isSome with
      | none => s
      | some p => s.streamJoin p ((s.partn p).joinEpoch.getD 0)

/-- The follower takes JOINED: the copy begins at J, ends, or begins anew. -/
def State.joinedTaken (s : State) (p : PartId) (j done : Nat) : State :=
  match done with
  | 0 =>
    let s1 := s.updPartn p fun q => { q with
      joinEpoch := some j, held := [], heldLast := [], todo := [], logs := [], txns := [], sealedDigests := [], digests := [],
      applied := j, sealed := j, released := j, visible := j }
    iter 8 (fun d x => x.updDie d fun e => { e with o := { e.o with
      visible := Sparse.set 0 e.o.visible p j, holding := Sparse.set none e.o.holding p none } }) s1
  | 1 =>
    if (s.partn p).joinEpoch ≠ some j then s
    else
      let s1 := s.updPartn p fun q => { q with
        st := .following, joinEpoch := none, todo := q.entriesOf (epochsTo q.applied q.heldTo) }
      (s.followed s1 p).resync
  | _ => s.askJoin p

def execJoined (s : State) : Host.Outcome State Fault Refusal :=
  .next <| s.takeMirror MPayload.isJoined fun x f => match f.body with
    | .joined p j done =>
      if x.h.mirror.role = 2 ∧ (x.partn p).st = .joining then
        (if x.h.mirror.lead = none then x.updMirror fun m => { m with lead := some f.src } else x).joinedTaken p j done
      else x
    | _ => x

/-! ### Losing a peer (R374, R375, R394) -/

def execFollowerDropped (i : Fin 4) (s : State) : Host.Outcome State Fault Refusal := .next (s.dropFollower i)

/-- No frame from the lead for DEAD_US. -/
def execLeadLost (s : State) : Host.Outcome State Fault Refusal :=
  .next <| match s.h.mirror.lead with
  | some l => if s.h.mirror.role = 2 then (s.updMirror fun m => { m with leadLost := true }).updMPeer l fun q => { q with heard := false } else s
  | none => s

/-- A follower that this one hears still reports LEAD_HEARD. -/
def State.leadElsewhere (s : State) : Bool :=
  s.peerIds.any fun i => let q := s.mpeer i; q.heard && decide (q.role = 2) && q.leadHeard

/-- No other follower that may take over comes first: HELD epochs, summed, then the lower MIRROR_ID. held: the sums of the peers. -/
def State.firstInLine (s : State) (held : Nat → Nat) : Bool :=
  let own := s.heldEpochs.sum
  s.peerIds.all fun i =>
    let n := held i
    !s.h.mirror.eligible i || decide (n < own) || (decide (n = own) && decide (s.h.mirror.id.val < i))

/-- GUARD_US after the loss of the lead. How a follower learns the HELD epochs of the others is not in the manual: what it knows of
them is a free value: DESIGN CHOICE, log entry 20. -/
def execTakeover (s : State) : Host.Outcome State Fault Refusal :=
  .next <|
    let m := s.h.mirror
    let t := { s with free := s.free + 1 }
    if m.leadLost && !m.taking && s.selfEligible && decide (s.paramN 18 0 0 = 1) && !s.leadElsewhere &&
        s.firstInLine (Config.peerHeld s.free) then
      t.startTakeover
    else t

/-- A lead that another with a lower MIRROR_ID outranks at the same TERM becomes its follower (R376). -/
def State.yieldTo (s : State) (l : Fin 4) : State :=
  let s1 := ((s.withdrawStaged.setRole 2).updSdRegs fun g => { g with admitOpen := false }).updMirror fun m =>
    { m with lead := some l, taking := false, leadLost := false }
  ((iter 16 (fun p x => x.discardUnreleased p) s1).ownSources.joinAll).mbxResult 5 1 []

/-- A TAKE: a handover to this package, or another's takeover. -/
def execTake (s : State) : Host.Outcome State Fault Refusal :=
  .next <| s.takeMirror MPayload.isTake fun x f => match f.body with
    | .take l _ =>
      let m := x.h.mirror
      if h : l < 4 then
        if m.role = 2 then
          if l = m.id.val then (if (s.h.mirror.lead = some f.src ∨ s.h.mirror.lead = none) ∧ ¬ m.taking then x.startTakeover else x)
          else if m.taking && decide (m.id.val < l) then x
          else
            let first := match m.lead with
              | some k => decide (l < k.val)
              | none => true
            if first then (x.updMirror fun z => { z with lead := some ⟨l, h⟩, leadLost := false, taking := false }).mbxResult 5 1 []
            else x
        else if m.role = 1 ∧ f.term = m.term ∧ l < m.id.val ∧ l = f.src.val then x.yieldTo ⟨l, h⟩
        else x
      else x
    | _ => x

/-- No frame from peer i on its primary port for 3 × HEART_US (R364). -/
def execSecondaryPortSwitch (i : Fin 4) (s : State) : Host.Outcome State Fault Refusal :=
  .next (if i.val ∈ s.peerIds then s.updMPeer i fun q => { q with secondary := true } else s)

/-- No frame from peer i for DEAD_US. -/
def execPeerHeardExpiry (i : Fin 4) (s : State) : Host.Outcome State Fault Refusal :=
  .next (s.updMPeer i fun q => { q with heard := false })

/-- A mirror port without a link tries the other rate (R467). -/
def execMirrorLinkFallback (b : Bool) (s : State) : Host.Outcome State Fault Refusal :=
  .next (if (s.port (32 + bit b)).up then s else s.updMirror fun m => { m with slow := m.slow ^^^ (1#2 <<< bit b) })

end Sys2Proof.Machine
end

