-- ==== Sys2Proof/Machine/Host.lean ====
section
/-! DEFINITION. The host attachment (13): resets of the host side (R435), register writes (R439, R446, R454), windows (R445 to R448),
the space 2 view (R440), host queues (R454 to R456), MSI-X (R453), and the completion of mailbox commands (R444). -/

namespace Sys2Proof.Machine

/-! ### Functions, MSI-X -/

/-- A function exists: VF p while NumVFs exceeds p (R436). -/
def State.hasFn (s : State) : HostFn → Bool
  | .pf => true
  | .vf p => decide (p.val < s.h.host.numVfs)

/-- The number of a function in State.fnCfg. -/
def fnIndex : HostFn → Nat
  | .pf => 0
  | .vf p => 1 + p.val

/-- A function answers memory accesses: it exists and is not in D3hot (R433). -/
def State.fnAnswers (s : State) (f : HostFn) : Bool := s.hasFn f && !(s.fnCfg (fnIndex f)).d3hot

/-- A function reaches partition p's window and queues: the PF any, VF p its own (R436). -/
def State.fnReaches (s : State) (f : HostFn) (p : Nat) : Bool :=
  s.fnAnswers f && (match f with
    | .pf => true
    | .vf q => decide (q.val = p))

/-- Function and vector of an MSI-X key. -/
def msixName (key : Nat) : HostFn × Nat :=
  if key < 2048 then (.pf, key)
  else if h : (key - 2048) / 128 < 16 then (.vf ⟨(key - 2048) / 128, h⟩, key % 128) else (.pf, key)

/-- A held message is sent once neither its entry nor its function holds it back (R453). -/
def State.msixRelease (s : State) (key : Nat) : State :=
  let v := Sparse.get MsixVec.reset s.h.host.msix key
  if v.pending && !v.masked && !(s.fnCfg (msixOwner key)).silent then
    (s.updHost fun x => { x with msix := Sparse.set MsixVec.reset x.msix key { v with pending := false } }).emit
      (.msix (msixName key).1 (msixName key).2)
  else s

/-- Masks or unmasks an entry. -/
def State.setMask (s : State) (key : Nat) (masked : Bool) : State :=
  let v := Sparse.get MsixVec.reset s.h.host.msix key
  (s.updHost fun x => { x with msix := Sparse.set MsixVec.reset x.msix key { v with masked := masked } }).msixRelease key

/-- Changes the configuration of a function that exists; the messages that it held are sent in the order of their vectors. -/
def State.setFnCfg (s : State) (f : HostFn) (g : FnCfg → FnCfg) : State :=
  if !s.hasFn f then s
  else
    let s1 := s.updHost fun x => { x with fns := Sparse.set FnCfg.reset x.fns (fnIndex f) (g (Sparse.get FnCfg.reset x.fns (fnIndex f))) }
    (s1.h.host.msix.filter fun e => decide (msixOwner e.1 = (fnIndex f))).foldl (fun x e => x.msixRelease e.1) s1

def execMsiXUnmask (v : Fin 2048) (s : State) : Host.Outcome State Fault Refusal :=
  .next (s.setMask (if v / 128 < s.h.host.numVfs then 2048 + v else v) false)

/-- A write of 32 bits of an MSI-X table, entries from key base on. -/
def State.msixWrite (s : State) (base off : Nat) (v : BitVec 32) : State :=
  let key := base + off / 16
  let upd (f : MsixVec → MsixVec) : State :=
    s.updHost fun x => { x with msix := Sparse.set MsixVec.reset x.msix key (f (Sparse.get MsixVec.reset x.msix key)) }
  match off % 16 with
  | 0 => upd fun e => { e with addr := BitVec.ofNat 64 (e.addr.toNat / 2 ^ 32 * 2 ^ 32 + v.toNat) }
  | 4 => upd fun e => { e with addr := BitVec.ofNat 64 (e.addr.toNat % 2 ^ 32 + v.toNat * 2 ^ 32) }
  | 8 => upd fun e => { e with data := v }
  | 12 => s.setMask key (v.getLsbD 0)
  | _ => s

/-- Clears the MSI-X tables and the configuration of VFs that sel picks. -/
def HostIf.clearVf (x : HostIf) (sel : Nat → Bool) : HostIf :=
  { x with msix := x.msix.filter (fun e => decide (e.1 < 2048) || !sel ((e.1 - 2048) / 128)),
           fns := x.fns.filter fun e => decide (e.1 = 0) || !sel (e.1 - 1) }

/-! ### Resets of the host side (R435) -/

/-- What PERST# and a PF FLR have in common: the link retrains, the configuration space is cleared, and the mailbox reads as at
reset. A command that is under way goes on. -/
def State.hostReset (s : State) : State :=
  s.updHost fun x =>
    { (x.clearVf fun _ => true) with
      linkUp := false, busMaster := false, numVfs := 0, fns := [], cfg := .reset, mbx := .reset, g := { x.g with width := 0, rate := 0 } }

def execPerst (s : State) : Host.Outcome State Fault Refusal := .next s.hostReset

def execPfFlr (s : State) : Host.Outcome State Fault Refusal :=
  .next (s.hostReset.updHost fun x => { x with msix := [], win := [], q := [], g := .reset })

def execVfFlr (p : PartId) (s : State) : Host.Outcome State Fault Refusal :=
  .next <|
    if !s.hasFn (.vf p) then s
    else s.updHost fun x =>
      { (x.clearVf fun q => decide (q = p.val)) with
        q := iter 4 (fun i m => Sparse.set HostQueue.reset m (4 * p + i)
          { Sparse.get HostQueue.reset m (4 * p + i) with en := false, cond := false }) x.q }

/-- The link goes down, comes up or retrains. It comes up only with the controller and lane 0 out of reset, and wider than ×1 only with
lanes 1 to 15 (R458, R459), and in Night at 2.5 GT/s (R464). -/
def execHostLinkStateChange (up : Bool) (width : BitVec 4) (rate : BitVec 3) (s : State) : Host.Outcome State Fault Refusal :=
  .next <|
    if up && !s.up 106 4 then s
    else
      let w := if s.up 107 4 then width else 0
      let r := if s.h.pwr.st = .night then 1 else rate
      (s.updHost fun x =>
        { x with linkUp := up, g := { x.g with width := if up then w else 0, rate := if up then r else 0 } }).progress

/-- log2 of the size of a BAR (R436). -/
def barBits : Bool → Fin 3 → Nat
  | false, 0 => 26
  | false, 1 => 20
  | false, 2 => 36
  | true, 0 => 14
  | true, 1 => 14
  | true, 2 => 32

/-- Key of a BAR in PfCfg.bars. -/
def barKey (vf : Bool) (i : Fin 3) : Nat := (if vf then 3 else 0) + i.val

/-- A write of a 64-bit BAR: the address bits above its size are kept. -/
def PfCfg.setBar (x : PfCfg) (vf : Bool) (i : Fin 3) (v : BitVec 64) : PfCfg :=
  let n := 2 ^ barBits vf i
  { x with bars := Sparse.set 0 x.bars (barKey vf i) (BitVec.ofNat 64 (v.toNat / n * n)) }

/-- A write of the configuration space. A payload or read request code above the supported size is clamped. DESIGN CHOICE, log entry
68. -/
def execConfigurationSpaceWrite (w : CfgWrite) (s : State) : Host.Outcome State Fault Refusal :=
  .next <| match w with
  | .busMaster b => s.updHost fun x => { x with busMaster := b }
  | .numVfs n => s.updHost fun x => { (x.clearVf fun p => decide (n ≤ p)) with numVfs := min n 16 }
  | .powerState f d3 => s.setFnCfg f fun x => { x with d3hot := d3 }
  | .msixControl f en mask => s.setFnCfg f fun x => { x with msixEn := en, msixMask := mask }
  | .deviceControl mps mrrs => s.updHost fun x => { x with cfg := { x.cfg with mps := min mps.toNat 2, mrrs := min mrrs.toNat 5 } }
  | .deviceControl2 t => s.updHost fun x => { x with cfg := { x.cfg with timeout := t } }
  | .aer a => s.updHost fun x => { x with cfg := { x.cfg with aer := a } }
  | .bar vf i v => s.updHost fun x => { x with cfg := x.cfg.setBar vf i v }

/-! ### Windows (R445 to R448) -/

/-- Sets bits of HOST_ERR (R439). -/
def State.hostErr (s : State) (b : BitVec 3) : State := s.updHostRegs fun g => { g with err := g.err ||| b }

def State.win (s : State) (w : Nat) : Win := Sparse.get Win.reset s.h.host.win w

/-- A failure enters the window error record, or is counted. -/
def State.winFail (s : State) (reason w : Nat) (f : HostFn) (write : Bool) (pa : Nat) : State :=
  s.updHost fun x => { x with winErr :=
    if x.winErr.valid then { x.winErr with count := min (x.winErr.count + 1) 4095 }
    else { valid := true, reason := BitVec.ofNat 3 reason, window := BitVec.ofNat 4 w, vf := decide (f ≠ .pf), write := write,
           count := 0, addr := pa % 2 ^ 40 } }

/-- A word that cannot be returned (R447). -/
def noWord : BitVec 64 := BitVec.allOnes 64
def State.answerWord (s : State) : Option Word → State
  | some w => s.emit (.completion [w.zeroExtend 64] false)
  | none => s.emit (.completion [noWord] s.h.host.g.epPoison)

/-- Physical character address that an offset of a window presents. -/
def Win.address (x : Win) (off : Nat) : Nat := x.base.toNat * 2 ^ 24 + 4 * (off % 2 ^ 32 / 8)

/-- The partition's copy of a line that the host reads: the lower die of a tandem pair. -/
def State.hostVisitor (s : State) (p : Nat) (sys : Bool) (pa : Nat) : Visitor :=
  { part := p, die := match s.tandemOf p with | some k => 2 * k | none => pa / 2 ^ 34 % 8, sys := sys, anyPart := false }

/-- The checks of a window access up to the line: the state, and the verdict of its gate or a failure recorded. -/
def State.winCheck (s : State) (f : HostFn) (w : Nat) (pa : Nat) (write : Bool) : State × Option Verdict :=
  let x := s.win w
  if !x.en then (s.winFail 1 w f write pa, none)
  else if 3 ≤ spaceOf pa then (s.winFail 4 w f write pa, none)
  else
    let v := s.verdict (s.hostVisitor w x.sys pa) pa (if write then .wr else .rd) true
    if v.reason = 0 then (s, some v)
    else ((s.violation v 6 (hostSource w x.key.toNat 0 x.sys) pa).winFail 2 w f write pa, none)

/-- A refusal by the line's controller: key, or a capability line. -/
def State.winRefused (s : State) (f : HostFn) (w d l reason : Nat) (v : Verdict) (pa : Nat) (write : Bool) : State :=
  let x := s.win w
  (s.violation (rowRefusal d l reason v.bank v.slot) 6 (hostSource w x.key.toNat (if reason = 6 then (s.lineKey d l).toNat else 0) x.sys)
    pa).winFail 2 w f write pa

/-- The word of a line as of the hub's visible epoch (R94, R447); ecc: what the read meets. -/
def State.winLine (s : State) (f : HostFn) (w d l : Nat) (pa : Nat) (ecc : Ecc) (v : Verdict) : State × Option Word :=
  let at_ (chars : List Chr) : Option Word := some (Word.ofChars ((chars.drop (pa % 64)).take 4))
  let (s0, gone) := s.readTags d l ecc
  if gone then (s0.winFail 3 w f false pa, none)
  else if !keyMatches (s0.win w).key (s0.lineKey d l) then (s0.winRefused f w d l 6 v pa false, none)
  else match s0.imageAfter d l (s0.partn w).visible with
    | some g => match s0.readImage d g ecc.line 4 with
      | (s1, none) => (s1.winFail 3 w f false pa, none)
      | (s1, some g') => if g'.info.poison then (s1.winFail 3 w f false pa, none) else (s1, at_ g'.chars)
    | none =>
      let (s1, lost) := s0.readSymbols d l ecc 4 (rowOf l)
      if lost then (s1.winFail 3 w f false pa, none) else (s1, at_ (s1.lineChars d l))

/-- Die and line of a space 0 address as the verdict's gate names them. -/
def Verdict.line (v : Verdict) (pa : Nat) : Nat × Nat := (v.gate / 2, pa / 64 % 2 ^ 28)

/-- The window word at pa. -/
def State.winWord (s : State) (f : HostFn) (w pa : Nat) (ecc : Ecc) (v : Verdict) : State × Option Word :=
  match spaceOf pa with
  | 0 => let (d, l) := v.line pa; s.winLine f w d l pa ecc v
  | 1 => let (s1, l) := s.ramFetch (pa % 2 ^ 37 / 2 ^ 34) (pa % 2 ^ 32) 4 w 0 4; (s1, some (Word.ofChars l))
  | _ => if v.dflt then (s, some 0) else let (s1, x) := s.space2Read (pa % 2 ^ 37); (s1, some x)

/-- A space 0 access waits at its line: for one that came earlier, for a repair, or for a bank under repair (R447). -/
def State.winWaits (s : State) (v : Verdict) (pa : Nat) : Bool :=
  decide (spaceOf pa = 0) && s.outerWaits (v.line pa).1 (v.line pa).2

/-- A read of the word at an offset of window w. -/
def execWindowRead (f : HostFn) (w : PartId) (off : Nat) (e : Ecc) (s : State) : Host.Outcome State Fault Refusal :=
  .next <|
    let pa := (s.win w).address off
    if !s.fnReaches f w then s
    else match s.winCheck f w pa false with
      | (s1, none) => s1.answerWord none
      | (s1, some v) =>
        if s.winWaits v pa then s
        else let (s2, x) := s1.winWord f w pa e v; s2.answerWord x

/-- R447 refuses the write: WE 0, a ledger or accumulator line, a tandem or mirrored partition. -/
def State.winReadOnly (s : State) (w pa : Nat) (v : Verdict) : Bool :=
  !(s.win w).we || (decide (spaceOf pa = 0) &&
    (decide (((s.gate v.gate).rule v.slot).kind = 1 ∨ ((s.gate v.gate).rule v.slot).kind = 2) || (s.tandemOf w).isSome ||
      decide (s.h.mirror.role = 1 ∨ s.h.mirror.role = 2)))

/-- A store of characters to a plain line by the host; whole: all 64 (R384). -/
def State.winStore (s : State) (f : HostFn) (w pa : Nat) (l : List Chr) (ecc : Ecc) (v : Verdict) : State :=
  let (d, n) := v.line pa
  let whole := decide (l.length = 64)
  let (s0, gone) := s.readTags d n ecc
  if gone && !whole then s0.winFail 3 w f true pa
  else if !keyMatches (s0.win w).key (s0.lineKey d n) then s0.winRefused f w d n 6 v pa true
  else if (s0.lineInfo d n).capline then s0.winRefused f w d n 7 v pa true
  else
    let (s1, lost) := if whole then (s0, false) else s0.readSymbols d n ecc 4 (rowOf n)
    if lost then s1.winFail 3 w f true pa
    else
      let s2 := if h : w < 16 then s1.joinImage d n ⟨w, h⟩ else s1
      let s3 := (s2.countPlain w d n (pa % 64) (s.epochOf s.tick) l).putChars d n (pa % 64) l
      if whole then s3.setLineInfo d n { s3.lineInfo d n with poison := false } else s3

/-- A write of characters at pa through window w. -/
def State.winWrite (s : State) (f : HostFn) (w pa : Nat) (l : List Chr) (ecc : Ecc) : State :=
  match s.winCheck f w pa true with
  | (s1, none) => s1
  | (s1, some v) =>
    if s1.winReadOnly w pa v then
      (s1.violation { v with reason := 5 } 6 (hostSource w (s1.win w).key.toNat 0 (s1.win w).sys) pa).winFail 5 w f true pa
    else match spaceOf pa with
      | 0 => s1.winStore f w pa l ecc v
      | 1 => s1.ramWrite (pa % 2 ^ 37 / 2 ^ 34) (pa % 2 ^ 32) l
      | _ => if v.dflt then s1 else s1.space2Write (pa % 2 ^ 37) (Word.ofChars l)

def wordChars (v : BitVec 64) : List Chr := Word.chars (v.truncate 36)

/-- The slots of a write from an offset on, n of them at most: each aligned whole line of space 0 as one write, any other slot by itself
(R447). What a read of stored symbols meets is met by the first. -/
def State.winSlots (s : State) (f : HostFn) (w : PartId) (ecc : Ecc) : Nat → Nat → List (BitVec 8 × BitVec 64) → State
  | 0, _, _ => s
  | _, _, [] => s
  | n + 1, off, x :: rest =>
    let pa := (s.win w).address off
    let line := (x :: rest).take 16
    if decide (line.length = 16) && decide (off % 128 = 0) && line.all (fun y => decide (y.1 = 255)) && decide (spaceOf pa = 0) then
      (s.winWrite f w pa (line.flatMap fun y => wordChars y.2) ecc).winSlots f w .clean n (off + 128) (rest.drop 15)
    else
      let s1 := if x.1 = 0 then s
        else if x.1 ≠ 255 then s.winFail 6 w f true pa
        else s.winWrite f w pa (wordChars x.2) ecc
      s1.winSlots f w .clean n (off + 8) rest

/-- A write of consecutive 8-byte slots from an offset of window w. -/
def execWindowWrite (f : HostFn) (w : PartId) (off : Nat) (slots : List (BitVec 8 × BitVec 64)) (e : Ecc) (s : State) :
    Host.Outcome State Fault Refusal :=
  .next <|
    let waits := slots.zipIdx.any fun x =>
      let a := (s.win w).address (off + 8 * x.2)
      match s.winCheck f w a true with
      | (_, some v) => !s.winReadOnly w a v && s.winWaits v a
      | _ => false
    if !s.fnReaches f w || waits then s else s.winSlots f w e slots.length off slots

/-- A write of WIN_CTL (register 0) or WIN_BASE (register 1) (R438, R446). -/
def State.winRule (s : State) (f : HostFn) (w : Nat) (reg : Nat) (v : BitVec 32) : State :=
  if !s.fnReaches f w then s
  else
    let upd (g : Win → Win) : State := s.updHost fun x => { x with win := Sparse.set Win.reset x.win w (g (Sparse.get Win.reset x.win w)) }
    let key : BitVec 4 := v.extractLsb' 20 4
    match reg, f with
    | 0, .pf => upd fun x => { x with en := v.getLsbD 31, sys := v.getLsbD 30, we := v.getLsbD 29, key := key }
    | 0, .vf _ => upd fun x => if x.key = 0 then { x with key := key } else x
    | 1, _ => upd fun x => { x with base := v.truncate 16 }
    | _, _ => s

def execWindowRuleWrite (f : HostFn) (w : PartId) (reg : Fin 2) (v : BitVec 32) (s : State) : Host.Outcome State Fault Refusal :=
  .next (s.winRule f w reg v)

/-! ### The space 2 view (R440) -/

/-- An access of the PF through the view: a read, or a write of v. -/
def execSpace2ViewAccess (off size : Nat) (v : Option (BitVec 64)) (s : State) : Host.Outcome State Fault Refusal :=
  .next <|
    let c := off / 8 * 4
    let pa := 2 * 2 ^ 37 + c
    let good := (decide (size = 8) || (decide (size = 4) && v.isNone)) && decide (off % size = 0) && decide (c ≤ 3145724)
    let half (x : BitVec 64) : BitVec 64 := if size = 8 then x else if off % 8 = 0 then x &&& 0xFFFFFFFF else x >>> 32
    if !s.fnAnswers .pf then s
    else if !good then
      let s1 := s.hostErr 1
      if v.isNone then s1.emit (.completion [0] false) else s1
    else
      let r := s.verdict { part := 0, die := 0, sys := true, anyPart := true } pa (if v.isSome then .wr else .rd) true
      if r.reason ≠ 0 then
        let s1 := s.violation r 6 (hostSource 0 0 0 true) pa
        if v.isNone then s1.emit (.completion [half noWord] s.h.host.g.epPoison) else s1
      else match v with
        | some x => if r.dflt then s else s.space2Write c (x.truncate 36)
        | none =>
          let (s1, w) := if r.dflt then (s, 0) else s.space2Read c
          s1.emit (.completion [half (w.zeroExtend 64)] false)

def execHubMsgWrite (c : CoreId) (v : Word) (s : State) : Host.Outcome State Fault Refusal :=
  .next (if s.present (coreDie c) then s.hubMessage c v else s)

/-- A read of BAR0 that breaks the size rules returns zero (R439). A write that does is a register write of its own. -/
def execBar0BadAccess (s : State) : Host.Outcome State Fault Refusal :=
  .next <|
    if !s.fnAnswers .pf then s
    else (s.hostErr 1).emit (.completion [0] false)

/-! ### Host queues (R454 to R456) -/

def State.hostQueue (s : State) (q : Nat) : HostQueue := Sparse.get HostQueue.reset s.h.host.q q

def HostQueue.used (r : HostQueue) : Nat := (r.wptr + 2 ^ (r.size + 1) - r.rptr) % 2 ^ (r.size + 1)
def HostQueue.spare (r : HostQueue) : Nat := 2 ^ r.size - r.used

/-- Queues 4p and 4p + 1 are submission queues. -/
def isSubmission (q : Nat) : Bool := decide (q % 4 < 2)

/-- The condition of queue q (R456). -/
def HostQueue.condition (r : HostQueue) (q : Nat) : Bool :=
  if !r.en then false
  else if isSubmission q then decide (r.thresh ≠ 0) && decide (r.thresh ≤ r.spare)
  else decide (0 < r.used) && decide (max r.thresh 1 ≤ r.used)

/-- Stores a queue's registers; its message is sent as the condition arises. -/
def State.setHostQueue (s : State) (q : Nat) (r : HostQueue) : State :=
  let now := r.condition q
  let s1 := s.updHost fun x => { x with q := Sparse.set HostQueue.reset x.q q { r with cond := now } }
  if now && !r.cond && r.ien then s1.msix r.vector else s1

/-- A function writes the registers of queue q: the VF's while it exists (R438). -/
def State.fnWritesQueue (s : State) (f : HostFn) (q : Nat) : Bool :=
  match f with
  | .pf => !decide (q / 4 < s.h.host.numVfs)
  | .vf p => s.hasFn f && decide (q / 4 = p.val)

/-- A doorbell: WPTR of a submission queue, RPTR of a response queue, subject to R352. -/
def HostQueue.ring (r : HostQueue) (q v : Nat) : HostQueue :=
  let m := 2 ^ (r.size + 1)
  if isSubmission q then
    (if r.used + (v % m + m - r.wptr) % m ≤ 2 ^ r.size then { r with wptr := v % m } else { r with qerr := true })
  else
    (if (v % m + m - r.rptr) % m ≤ r.used then { r with rptr := v % m } else { r with qerr := true })

def execDoorbellWrite (f : HostFn) (q : Fin 64) (v : BitVec 32) (s : State) : Host.Outcome State Fault Refusal :=
  .next <|
    let r := s.hostQueue q
    if !s.fnReaches f (q / 4) || !r.en then s else s.setHostQueue q (r.ring q v.toNat)

/-- A write of Q_CTL. -/
def HostQueue.control (r : HostQueue) (v : BitVec 32) : HostQueue :=
  let en := v.getLsbD 31
  let r1 := if r.en then r
    else { r with size := min (max (v.extractLsb' 24 5).toNat 6) 20, die := (v.extractLsb' 16 3).toNat }
  let r2 := { r1 with en := en, ien := v.getLsbD 11, vector := (v.extractLsb' 0 11).toNat, thresh := min r1.thresh (2 ^ r1.size) }
  if en && !r.en then { r2 with wptr := 0, rptr := 0, stopped := false, pend := false } else r2

def State.queueControl (s : State) (f : HostFn) (q : Nat) (v : BitVec 32) : State :=
  if s.fnWritesQueue f q then s.setHostQueue q ((s.hostQueue q).control v) else s

def execQCtlWrite (f : HostFn) (q : Fin 64) (v : BitVec 32) (s : State) : Host.Outcome State Fault Refusal :=
  .next (s.queueControl f q v)

/-- A write of a 32-bit register of queue q at its offset. -/
def State.queueRegWrite (s : State) (f : HostFn) (q off : Nat) (v : BitVec 32) : State :=
  let r := s.hostQueue q
  if !s.fnWritesQueue f q then s
  else match off with
    | 0 => if r.en then s else s.setHostQueue q { r with base := BitVec.ofNat 64 (r.base.toNat / 2 ^ 32 * 2 ^ 32 + v.toNat / 4096 * 4096) }
    | 4 => if r.en then s else s.setHostQueue q { r with base := BitVec.ofNat 64 (r.base.toNat % 2 ^ 32 + v.toNat * 2 ^ 32) }
    | 8 => s.queueControl f q v
    | 12 => s.setHostQueue q { r with thresh := min (v.toNat % 2 ^ 21) (2 ^ r.size) }
    | 24 => s.setHostQueue q { r with qerr := r.qerr && !v.getLsbD 30, dmaErr := r.dmaErr && !v.getLsbD 29 }
    | _ => s

/-- A DMA of a queue has failed: it stops. -/
def HostQueue.failed (r : HostQueue) : HostQueue := { r with dmaErr := true, stopped := true }

/-- p has a cluster on a die that runs. -/
def State.canInject (s : State) (p d : Nat) : Bool := decide (d < 8) && s.alive d && s.hasCluster p d

/-- The hub takes the packet of an injection (R138, R455). -/
def State.inject (s : State) (q : Nat) (tag : BitVec 16) (octets : List Octet) : State :=
  if h : q / 4 < 16 then
    let p : PartId := ⟨q / 4, h⟩
    let d := (s.hostQueue q).die
    let org : Origin := { Origin.none with host := true, port := q, tag := tag.zeroExtend 32 }
    let v : Slot := { Slot.reset with part := p, org := org, octets := octets }
    if !s.admits || decide ((s.partn p).st = .stopped) || !s.canInject p d then s.hostRefused v 7 ⟨0, 0, 0⟩
    else if hd : d < 8 then
      let (s1, pos) := s.stamp 32
      s1.post (.copy ⟨d, hd⟩ { v with pos := pos, curfew := s.curfewTick p pos.tick none } false none)
    else s
  else s

/-- The hub's DMA takes the packet at RPTR of submission queue q: its header unit, and the octets that follow it. -/
def execHostInjection (q : Fin 64) (header : BitVec 64) (r : DmaResult) (s : State) : Host.Outcome State Fault Refusal :=
  .next <|
    let k := s.hostQueue q
    let n := (header.extractLsb' 0 16).toNat
    let type := (header.extractLsb' 56 8).toNat
    let units := 1 + ceilDiv n 8
    let bad := decide (n = 0) || decide (type ≠ 1 ∧ type ≠ 2)
    let k1 := { k with rptr := (k.rptr + units) % 2 ^ (k.size + 1), pend := false, qerr := k.qerr || bad }
    if !isSubmission q || !k.en || k.stopped || decide (k.used = 0) then s
    else if header = noWord then s.setHostQueue q { k with pend := true }
    else match r with
      | .failed => s.setHostQueue q k.failed
      | .octets l =>
        if k.used < units ∨ (¬ bad ∧ l.length < n) then s
        else if bad || decide (type = 2) then s.setHostQueue q k1
        else (s.setHostQueue q k1).inject q (header.extractLsb' 32 16) (l.take n)

/-- The octets of a response packet after its header (R455). -/
def HostResp.payload (r : HostResp) : List Octet :=
  padTo 16 (octetsBE 9 r.pos.bits.toNat) ++ r.body ++ zeros ((8 - r.body.length % 8) % 8)

def HostResp.header (r : HostResp) : Nat :=
  2 ^ 56 + r.outcome * 2 ^ 48 + r.tag.toNat * 2 ^ 32 + r.body.length

/-- Octets cut into units of 8. -/
def unitsOf : Nat → List Octet → List (List Octet)
  | 0, _ => []
  | n + 1, o => o.take 8 :: unitsOf n (o.drop 8)

/-- Memory Writes of units from a pointer of the queue on. -/
def State.writeUnits (s : State) (r : HostQueue) (v : Nat) (l : List (List Octet)) : State :=
  l.zipIdx.foldl (fun x u => x.emit (.memWrite ((r.base.toNat + 8 * ((v + u.2) % 2 ^ r.size)) % 2 ^ 64) u.1)) s

/-- What can be done with a held response: nothing yet, or it is written or discarded. -/
def State.respReady (s : State) (p : Nat) (r : HostResp) : Bool :=
  let k := s.hostQueue r.q
  (match r.epoch with | some e => epochLe e (s.partn p).visible | none => true) &&
    (!k.en || (!k.stopped && decide (r.bytes / 8 ≤ k.spare)))

/-- The hub writes the first response of p that it can, header last, or discards it for want of an enabled queue (R456). -/
def execHostResponseWrite (p : PartId) (s : State) : Host.Outcome State Fault Refusal :=
  .next <|
    let l := Sparse.get [] s.h.host.resp p
    match l.find? (s.respReady p) with
    | none => s
    | some r =>
      let k := s.hostQueue r.q
      let gone (x : State) : State :=
        (x.updHost fun z => { z with resp := Sparse.set [] z.resp p (l.erase r) }).markDeparted p r.pos
      if !k.en then gone (s.setHostQueue r.q { k with drops := k.drops + 1 })
      else if !s.hostSends then s.setHostQueue r.q k.failed
      else
        let body := unitsOf (ceilDiv r.payload.length 8) r.payload
        let s1 := (s.writeUnits k (k.wptr + 1) body).writeUnits k k.wptr [octetsLE 8 r.header]
        gone (s1.setHostQueue r.q { k with wptr := (k.wptr + 1 + body.length) % 2 ^ (k.size + 1) })

/-! ### Register writes (R437, R438) -/

/-- A write of a global register (R439). -/
def HostRegs.write (g : HostRegs) (off : Nat) (v : BitVec 32) : HostRegs :=
  match off with
  | 0x00 => { g with evtIen := v.getLsbD 1, epPoison := v.getLsbD 0 }
  | 0x08 => { g with evt := g.evt &&& ~~~(v.truncate 6) }
  | 0x0C => { g with evtEn := v.truncate 6 }
  | 0x10 => { g with evtVec := v.extractLsb' 16 11, mbxVec := v.extractLsb' 0 11, mbxIen := v.getLsbD 15 }
  | 0x14 => { g with snapPeriod := max (v.toNat % 2 ^ 24) 1000 }
  | 0x20 => { g with err := g.err &&& ~~~(v.truncate 3) }
  | 0x24 => if g.h3En then g else { g with h3Base := BitVec.ofNat 64 (g.h3Base.toNat / 2 ^ 32 * 2 ^ 32 + v.toNat / 4096 * 4096) }
  | 0x28 => if g.h3En then g else { g with h3Base := BitVec.ofNat 64 (g.h3Base.toNat % 2 ^ 32 + v.toNat * 2 ^ 32) }
  | 0x2C => { g with h3En := v.getLsbD 0 }
  | _ => g

/-- A write of 32 bits to PF BAR0. MBX_CMD has commands of its own. -/
def State.bar0Write (s : State) (off : Nat) (v : BitVec 32) : State :=
  if !s.fnAnswers .pf then s
  else if off % 4 ≠ 0 then s.hostErr 1
  else if off < 0x1000 then s.updHostRegs fun g => g.write off v
  else if 0x1020 ≤ off ∧ off < 0x1040 then
    s.updHost fun x => { x with mbx := { x.mbx with args := Sparse.set 0 x.mbx.args ((off - 0x1020) / 4) v } }
  else if 0x3000 ≤ off ∧ off < 0x3100 then s.winRule .pf ((off - 0x3000) / 16) (off % 16 / 4) v
  else if off = 0x3100 then (if v.getLsbD 31 then s.updHost fun x => { x with winErr := .reset } else s)
  else if 0x4000 ≤ off ∧ off < 0xC000 then s.msixWrite 0 (off - 0x4000) v
  else if 0x20000 ≤ off ∧ off < 0x21000 then s.queueRegWrite .pf ((off - 0x20000) / 64) (off % 64) v
  else if 0x1000000 ≤ off ∧ off < 0x1600000 then s.hostErr 1
  else s

/-- A write of 32 bits to VF p's BAR0 (R438). -/
def State.vfWrite (s : State) (p : PartId) (off : Nat) (v : BitVec 32) : State :=
  if !s.fnAnswers (.vf p) then s
  else if off % 4 ≠ 0 then s.hostErr 1
  else if off < 16 then s.winRule (.vf p) p (off / 4) v
  else if 0x100 ≤ off ∧ off < 0x200 then s.queueRegWrite (.vf p) (4 * p + (off - 0x100) / 64) (off % 64) v
  else if 0x2000 ≤ off ∧ off < 0x2800 then s.msixWrite (2048 + 128 * p) (off - 0x2000) v
  else s

def execRegisterWrite (r : RegTarget) (s : State) : Host.Outcome State Fault Refusal :=
  .next <| match r with
  | .bar0 off v => s.bar0Write off v
  | .bar0Bad => if s.fnAnswers .pf then s.hostErr 1 else s
  | .vfBar0 p off v => s.vfWrite p off v
  | .space2 off v => s.space2Write off v
  | .queue d p q w v => s.updQueue d p q fun x => x.writeWord w v

end Sys2Proof.Machine
end

