-- ==== Sys2Proof/Machine/Mailbox.lean ====
section
/-! DEFINITION. The mailbox (R444, R451, R452) and what its commands do: the patch image and its fuse operations (R476 to R481), the
loading of Hamper images (R424 to R431), the effective image (R429), takeover, fencing, retirement, restart, row repair (R386,
R387), power requests (R462 to R464) and calibration (R482, R483). -/

namespace Sys2Proof.Machine

/-! ### Fuses (R471, R480) -/

/-- Burns one field. -/
def FuseField.burn (f : FuseField) (x : Fuses) : Fuses :=
  match f with
  | .key false k => { x with key0 := k }
  | .key true k => { x with key1 := k }
  | .valid false => { x with valid0 := true }
  | .valid true => { x with valid1 := true }
  | .revoke false => { x with revoke0 := true }
  | .revoke true => { x with revoke1 := true }
  | .sigRequired => { x with sigRequired := true }
  | .svn n => { x with patchSvn := n }

/-- A field whose burn was interrupted: some of its bits are burned, w says which (R478). -/
def FuseField.burnPart (f : FuseField) (w : Nat) (x : Fuses) : Fuses :=
  match f with
  | .key false k => { x with key0 := x.key0 ||| (k &&& w) }
  | .key true k => { x with key1 := x.key1 ||| (k &&& w) }
  | .valid false => { x with valid0 := x.valid0 || w.testBit 0 }
  | .valid true => { x with valid1 := x.valid1 || w.testBit 0 }
  | .revoke false => { x with revoke0 := x.revoke0 || w.testBit 0 }
  | .revoke true => { x with revoke1 := x.revoke1 || w.testBit 0 }
  | .sigRequired => { x with sigRequired := x.sigRequired || w.testBit 0 }
  | .svn n => { x with patchSvn := x.patchSvn + w % (n - x.patchSvn + 1) }

/-! ### The patch image (R476 to R478) -/

def allZero (o : List Octet) (a n : Nat) : Bool := ((o.drop a).take n).all fun x => decide (x = 0)

def patchKeyop (o : List Octet) : Bool := (o.getD 13 0).getLsbD 0
def patchBurn (o : List Octet) : Bool := (o.getD 13 0).getLsbD 1
def patchImageSvn (o : List Octet) : Nat := leAt o 12 1
def patchMatches (o : List Octet) : Nat := leAt o 14 1
def patchWords (o : List Octet) : Nat := leAt o 16 2

/-- A MATCH entry is well formed (R477). -/
def matchEntryOk (words e : Nat) : Bool :=
  decide (e / 2 ^ 16 % 2 ^ 13 ≤ 7935) && decide (e % 256 < words) && decide (e / 2 ^ 8 % 2 ^ 8 = 0) && decide (e / 2 ^ 29 % 4 = 0)

/-- Check 7: reserved fields and ranges. -/
def patchFieldsOk (o : List Octet) : Bool :=
  let n := patchMatches o
  let w := patchWords o
  let id := leAt o 10 2
  let op := leAt o 1152 1
  decide (1 ≤ id) && decide (id ≤ 4095) && decide (patchImageSvn o ≤ 64) && decide (leAt o 13 1 < 4) && decide (n ≤ 16) && decide (w ≤ 256) &&
    allZero o 15 1 && allZero o 18 6 && allZero o 32 28 && (patchKeyop o || patchBurn o || allZero o 24 8) &&
    (List.range n).all (fun i => matchEntryOk w (leAt o (64 + 4 * i) 4)) && allZero o (64 + 4 * n) (64 - 4 * n) &&
    allZero o (128 + 4 * w) (1024 - 4 * w) &&
    (if patchKeyop o then decide (1 ≤ op) && decide (op ≤ 3) && allZero o 1154 14 else allZero o 1152 48)

/-- Check 10: the slot's state allows the key operation (R480). -/
def Fuses.keyopOk (f : Fuses) (o : List Octet) : Bool :=
  let slot := leAt o 1153 1
  let one := decide (slot = 1)
  if !patchKeyop o then true
  else if 1 < slot then false
  else match leAt o 1152 1 with
    | 1 => if one then !f.valid1 && !f.revoke1 && decide (f.key1 = 0) else !f.valid0 && !f.revoke0 && decide (f.key0 = 0)
    | 2 => if one then f.valid1 else f.valid0
    | _ => true

/-- Fields that the patch burns, in their order (R480). -/
def Fuses.patchFields (f : Fuses) (o : List Octet) : List FuseField :=
  let one := decide (leAt o 1153 1 = 1)
  (if !patchKeyop o then []
    else match leAt o 1152 1 with
      | 1 => [.key one (leAt o 1168 32), .valid one]
      | 2 => if (if one then f.revoke1 else f.revoke0) then [] else [.revoke one]
      | _ => if f.sigRequired then [] else [.sigRequired]) ++
    (if patchBurn o && decide (f.patchSvn < patchImageSvn o) then [.svn (patchImageSvn o)] else [])

/-- The reason of the first failing check, 0 when all pass (R478). vpgm: VPGM lies within its range. -/
def Fuses.checkPatch (f : Fuses) (o : List Octet) (vpgm : Bool) : Nat :=
  let part := leAt o 6 2
  if o.length ≠ 1268 then 1
  else if o.take 4 ≠ [0x50, 0x54, 0x43, 0x48] then 2
  else if leAt o 4 2 ≠ 1 then 3
  else if leAt o 60 4 ≠ (crc32c (o.take 60)).toNat ∨ leAt o 1200 4 ≠ (crc32c ((o.drop 64).take 1136)).toNat then 4
  else if (part ≠ 0 ∧ part ≠ f.partCode) ∨ leAt o 8 1 ≠ f.stepping.toNat ∨ leAt o 9 1 ≠ f.romRev.toNat then 5
  else if !ed25519 Config.patchKey (o.take 1204) (o.drop 1204) then 6
  else if !patchFieldsOk o then 7
  else if patchImageSvn o < f.patchSvn then 8
  else if (patchKeyop o || patchBurn o) && decide (leAt o 24 8 ≠ f.serial.toNat) then 9
  else if !f.keyopOk o then 10
  else if !(f.patchFields o).isEmpty && !vpgm then 11
  else 0

/-- A MATCH entry as its register shows it (R440): enable in position 13, ROM address in 14:26, patch word in 27:34. -/
def matchOfEntry (e : Nat) : Word := word (e / 2 ^ 31 % 2 * 2 ^ 22 + e / 2 ^ 16 % 2 ^ 13 * 2 ^ 9 + e % 256 * 2)

/-- The patch of an accepted image. The reason of an earlier rejection stays shown. -/
def Patch.ofImage (old : Patch) (o : List Octet) (source : BitVec 2) : Patch :=
  { active := true, id := BitVec.ofNat 12 (leAt o 10 2), svn := BitVec.ofNat 8 (patchImageSvn o), reject := old.reject, source := source,
    matchRegs := (List.range (patchMatches o)).map fun i => matchOfEntry (leAt o (64 + 4 * i) 4),
    words := (List.range (patchWords o)).map fun i => BitVec.ofNat 32 (leAt o (128 + 4 * i) 4) }

/-- PATCH_VERSION (R481). -/
def State.patchVersion (s : State) : BitVec 32 :=
  let p := s.h.patch
  let f := s.h.fuses
  BitVec.ofNat 32 (f.romRev.toNat * 2 ^ 28 + p.id.toNat * 2 ^ 16 + (if p.active then p.svn.toNat else f.patchSvn) * 2 ^ 8 +
    p.reject.toNat * 2 ^ 4 + p.source.toNat * 4 + bit p.active)

def State.fromHost (s : State) : Bool := decide (s.h.pwr.straps.bootSrc = 1)

/-- Boot step 3 ends. -/
def State.patchDone (s : State) : State := (s.updPwr fun p => { p with bootStep := 4 }).mbxResult 1 0 [s.patchVersion]

/-- A patch is rejected: boot goes on with the ROM alone, or waits for the host (R479). -/
def State.patchRejected (s : State) (reason : Nat) : State :=
  let s1 : State := { s with h := { s.h with patch := { s.h.patch with reject := BitVec.ofNat 4 reason } } }
  if s.fromHost then s1.mbxResult 1 4 [0, BitVec.ofNat 32 reason]
  else s1.updPwr fun p => { p with bootStep := 4 }

/-- The fields of a patch that is burning are burned, and the patch is in use. -/
def State.burned (s : State) : State :=
  match s.h.burning with
  | none => s
  | some b => State.patchDone
    { s with h := { s.h with fuses := b.fields.foldl (fun x f => f.burn x) s.h.fuses, patch := b.patch, burning := none } }

/-- A burn that no command waits for, of a patch from flash or of one whose command a host reset has taken from the mailbox (R435), is
over by the time anything else asks for the hub. -/
def State.settled (s : State) : State := if s.fromHost && !s.h.host.mbx.done then s else s.burned

/-- A patch image is checked; its fuse fields start to burn, or it is in use at once. -/
def State.takePatch (s : State) (o : List Octet) (vpgm : Bool) (source : BitVec 2) : State :=
  let f := s.h.fuses
  let patch := Patch.ofImage s.h.patch o source
  let r := f.checkPatch o vpgm
  if r ≠ 0 then s.patchRejected r
  else if (f.patchFields o).isEmpty then State.patchDone { s with h := { s.h with patch := patch } }
  else { s with h := { s.h with burning := some { fields := f.patchFields o, patch := patch } } }

/-- VPGM leaves its range during a burn: which field that meets, and which of its bits are burned, are free values (R478, R480). -/
def execVpgmOutOfRange (s : State) : Host.Outcome State Fault Refusal :=
  .next <| match s.h.burning with
  | none => s
  | some b =>
    let n := (Config.freeWord s.free).toNat % b.fields.length
    let w := (List.range 8).foldl (fun a i => a * 2 ^ 32 + (Config.freeWord (s.free + 1 + i)).toNat % 2 ^ 32) 0
    let whole := (b.fields.take n).foldl (fun x f => f.burn x) s.h.fuses
    let fuses := match b.fields[n]? with
      | some f => f.burnPart w whole
      | none => whole
    State.patchRejected { s with free := s.free + 9, h := { s.h with fuses := fuses, burning := none } } 11

/-! ### Issue and completion (R444, R452) -/

/-- ARGi of the running command. -/
def State.arg (s : State) (i : Nat) : Nat := (Sparse.get 0 s.h.host.mbx.args i).toNat

/-- A write of MBX_CMD. In EARLY it is ignored, as after a hub fault (R485); while a command runs it sets MBX_OVR. Otherwise the
command begins, and completes with WRONG_STATE where PKG_STATE is none of those that allow it. -/
def State.command (s : State) (tag code : BitVec 8) (legal : List Nat) (f : State → State) : State :=
  let s1 := s.settled
  if s1.h.pwr.hubDead || decide (s1.pkgState = 0) then s1
  else if !s1.h.host.mbx.done then s1.hostErr 2
  else
    let s2 := s1.updHost fun x => { x with mbx := { x.mbx with done := false, tag := tag, code := code, status := 0, res := [], waiting := none } }
    if decide (s2.pkgState ∈ legal) then f s2 else s2.mbxResult code 1 []

def execMbxCmdWhileBusy (_v : BitVec 32) (s : State) : Host.Outcome State Fault Refusal :=
  .next (if !s.h.pwr.hubDead && !s.h.host.mbx.done then s.hostErr 2 else s)

/-- DONE, STATUS and the results appear, and the host is told. The burn of a host's patch ends before. -/
def execMbxComplete (s : State) : Host.Outcome State Fault Refusal :=
  let s0 := if s.fromHost then s.burned else s
  .next <| match s0.h.host.mbx.done, s0.h.host.mbx.waiting with
  | false, some (status, res) =>
    let s1 := (s0.updHost fun x => { x with mbx := { x.mbx with
      done := true, status := status, waiting := none,
      res := (res.take 8).zipIdx.foldl (fun m e => Sparse.set 0 m e.2 e.1) [] } }).event 4
    if s0.h.host.g.mbxIen then s1.msix s0.h.host.g.mbxVec.toNat else s1
  | _, _ => s0

def execMailboxNop (tag : BitVec 8) (s : State) : Host.Outcome State Fault Refusal :=
  .next (s.command tag 0 [1, 2, 3, 4, 5, 6] fun x => x.mbxResult 0 0 [])

/-- An unlisted CODE; a listed one is no case of this command. -/
def execUnknownMailboxCode (tag code : BitVec 8) (s : State) : Host.Outcome State Fault Refusal :=
  .next (if code.toNat ≤ 11 then s else s.command tag code [1, 2, 3, 4, 5, 6] fun x => x.mbxResult code 3 [])

/-! ### PATCH_LOAD -/

/-- The patch of boot step 3: from flash, or by the host's command (R479). r: the patch area, or what the DMA read returned. -/
def execPatchLoad (tag : BitVec 8) (r : DmaResult) (vpgm : Bool) (s : State) : Host.Outcome State Fault Refusal :=
  .next <|
    if s.fromHost || decide (3 < s.h.pwr.bootStep) then s.command tag 1 [1] fun x =>
      if x.arg 2 = 0 then x.patchDone
      else match r with
        | .failed => x.mbxResult 1 6 []
        | .octets o => x.takePatch (o.take (x.arg 2)) vpgm 2
    else if s.h.pwr.bootStep ≠ 3 ∨ s.h.burning.isSome then s
    else match r with
      | .failed => s.patchDone
      | .octets o =>
        if o.take 4 ≠ [0x50, 0x54, 0x43, 0x48] then s.patchDone else s.takePatch (o.take 1268) vpgm 1

/-! ### PLAN_LOAD (R424 to R431) -/

/-- An image is checked, then applied, staged or rejected. -/
def State.loadImage (s : State) (src : BitVec 2) (o : List Octet) : State :=
  let s1 := s.loadBegins src o
  match s1.checkImage o true with
  | some e => (s1.rejectImage o e).planResult 4
  | none =>
    let s2 := s1.acceptImage o (s1.clampsOf o)
    if imageScope o = 1 then (s2.stage o (s1.planOf o)).planResult 0
    else (s2.applyPlan (s1.planOf o) [o]).progress

/-- A whole image is taken after admission has opened only from a stale package, or while every partition is STOPPED or holds no
cluster (R430). -/
def State.wholeAllowed (s : State) : Bool :=
  decide (s.pkgState ≠ 4) || (List.range 16).all fun p =>
    decide ((s.partn p).st = .stopped) || decide ((s.planPart p).clusters = 0)

/-- Asks the lead for the first octets of its plan chain (R431). -/
def State.askChain (s : State) (id : Fin 4) : State :=
  (s.updMirror fun m => { m with id := id, loading := true, chainIn := [] }).sendMirror 255 (.fetch 255 0 0 0 0)

/-- The host's PLAN_LOAD. -/
def State.hostPlanLoad (s : State) (r : DmaResult) : State :=
  let st := s.pkgState
  if s.arg 3 % 2 = 1 then
    if (st = 2 ∨ st = 5) ∧ s.h.plan.staged.isNone then s.askChain ⟨s.arg 3 / 4 % 4, Nat.mod_lt _ (by decide)⟩ else s.mbxResult 2 1 []
  else match r with
    | .failed => s.mbxResult 2 6 []
    | .octets l =>
      let o := l.take (s.arg 2)
      let partial_ := decide (64 ≤ o.length) && decide (imageScope o = 1)
      let ok := s.h.plan.staged.isNone && (if partial_ then decide (st = 4) else s.wholeAllowed)
      if ok then s.loadImage 2 o else s.mbxResult 2 1 []

/-- Octets of a flash slot; flash that does not answer holds no valid image (R473). -/
def flashImage : DmaResult → List Octet
  | .octets o => o.take (max 72 (leAt o 12 4))
  | .failed => []

/-- A load at boot step 4 from a flash slot or the lead, as BOOT_SRC says, or a PLAN_LOAD of the host (R430, R470). -/
def execPlanLoad (tag : BitVec 8) (src : PlanSource) (r : DmaResult) (s : State) : Host.Outcome State Fault Refusal :=
  let x := s.settled
  let boot (b : BitVec 2) : Bool := decide (x.h.pwr.bootStep = 4) && decide (x.h.pwr.straps.bootSrc = b)
  let hp := x.h.plan.hp
  .next <| match src with
  | .flash0 => if boot 0 && decide (hp.last = 0) then x.loadImage 0 (flashImage r) else x
  | .flash1 => if boot 0 && decide (hp.last = 4 ∧ hp.source = 0) then x.loadImage 1 (flashImage r) else x
  | .lead _ =>
    if boot 2 && decide (hp.last = 0) then
      (x.loadBegins 3 []).askChain ⟨x.h.pwr.straps.mirrorId.toNat, x.h.pwr.straps.mirrorId.isLt⟩
    else x
  | .host => x.command tag 2 [2, 4, 5] fun y => y.hostPlanLoad r

/-- A staged image is withdrawn before its staging deadline (R426). -/
def execPlanWithdraw (tag : BitVec 8) (s : State) : Host.Outcome State Fault Refusal :=
  .next <| s.command tag 3 [4] fun x =>
    let ok := match x.h.plan.staged with
      | some y => !y.committed
      | none => false
    if !ok then x.mbxResult 3 1 []
    else
      let x1 := x.withdrawStaged
      x1.mbxResult 3 0 [x1.hpStatus]

/-- The effective image goes to the host's buffer. -/
def execPlanRead (tag : BitVec 8) (s : State) : Host.Outcome State Fault Refusal :=
  .next <| s.command tag 4 [3, 4, 5, 6] fun x =>
    let o := x.effImage
    let n := BitVec.ofNat 32 o.length
    if x.arg 2 < o.length then x.mbxResult 4 5 [n]
    else (x.emit (.memWrite (x.arg 0 + x.arg 1 * 2 ^ 32) o)).mbxResult 4 0 [n]

/-! ### Takeover, fencing, clusters -/

/-- An eligible follower takes over; the command completes with the new TERM once it leads (R375). -/
def execTakeoverCommand (tag : BitVec 8) (s : State) : Host.Outcome State Fault Refusal :=
  .next <| s.command tag 5 [4] fun x =>
    if x.h.mirror.taking then x else if x.selfEligible then x.startTakeover else x.mbxResult 5 1 []

def execFence (tag : BitVec 8) (s : State) : Host.Outcome State Fault Refusal :=
  .next <| s.command tag 6 [3, 4, 5] fun x =>
    let d := x.arg 0
    if 8 ≤ d then x.mbxResult 6 2 []
    else if !x.alive d then x.mbxResult 6 1 []
    else (x.decideFence d .host).mbxResult 6 0 []

/-- A cluster of a partition that is not retired. -/
def State.commandable (s : State) (cl : Nat) : Bool := (s.planOwner cl).isSome && !(s.cluster cl).retired

def execRetire (tag : BitVec 8) (s : State) : Host.Outcome State Fault Refusal :=
  .next <| s.command tag 7 [3, 4] fun x =>
    let cl := x.arg 0
    if 64 ≤ cl then x.mbxResult 7 2 []
    else if !x.commandable cl then x.mbxResult 7 1 []
    else ((x.retire cl 2).mbxResult 7 0 []).progress

/-- The cluster's cores halt, their transactions are left to their Curfew, its domain goes off and on again, and it starts once it
has been self-checked (R178, R451, R475). -/
def execRestart (tag : BitVec 8) (s : State) : Host.Outcome State Fault Refusal :=
  .next <| s.command tag 8 [3, 4] fun x =>
    let cl := x.arg 0
    if 64 ≤ cl then x.mbxResult 8 2 []
    else if !x.commandable cl then x.mbxResult 8 1 []
    else
      let x1 := (iter 8 (fun k y => y.dropTxn (8 * cl + k)) x).clusterOff cl
      (((x1.requestOn [clusterDomain cl]).toStart (1#64 <<< cl)).mbxResult 8 0 []).progress

/-! ### DRAM rows (R386, R387) -/

/-- The repair of a remapped row begins; the command completes at once. -/
def execRowRepair (tag : BitVec 8) (s : State) : Host.Outcome State Fault Refusal :=
  .next <| s.command tag 9 [3, 4] fun x =>
    let d := x.arg 0
    if 8 ≤ d ∨ 32 ≤ x.arg 1 then x.mbxResult 9 2 []
    else match x.remap d (x.arg 1) (x.arg 2) (x.arg 3) with
      | none => x.mbxResult 9 1 []
      | some e => (x.updDie d fun z => { z with m := { z.m with
          remaps := z.m.remaps.map fun y => if y = e then (e.1, e.2.1, e.2.2.1, true) else y } }).mbxResult 9 0 []

/-- A row's entries in the tables of remapped rows. -/
def DieMem.freeRow (m : DieMem) (x : Nat × Nat × Nat) : DieMem :=
  { m with remaps := m.remaps.filter fun y => decide ((y.1, y.2.1, y.2.2.1) ≠ x),
           spares := m.spares.filter fun y => decide ((y.1, y.2.1, y.2.2.1) ≠ x) }

/-- A spare in another bank takes the row. -/
def DieMem.takeSpare (m : DieMem) (d pc bank row : Nat) : DieMem :=
  { m with remaps := m.remaps ++ [(pc, bank, row, false)], spares := m.spares ++ [(pc, bank, row, spareBankFor d pc bank row)] }

/-- The repaired row is copied back: its spare is free again, and ROW_PPR is logged. -/
def execRowPprDone (d : DieId) (pc bank row : Nat) (s : State) : Host.Outcome State Fault Refusal :=
  .next <| match s.remap d pc bank row with
  | some (_, _, _, true) =>
    (s.updDie d fun z => { z with m := z.m.freeRow (pc, bank, row) }).logErr
      0o07 0 d false 0 (pc / 16) (Config.dramRow bank row) 0
  | _ => s

/-- The copy of a failing row to a spare ends, and later accesses go there; without a free spare the row stays in use. -/
def execSpareRowCopyDone (d : DieId) (pc bank row : Nat) (s : State) : Host.Outcome State Fault Refusal :=
  .next <|
    if decide ((pc, bank, row) ∉ (s.die d).m.copying) then s
    else
      let left := s.sparesLeft d pc
      let s1 := s.updDie d fun z =>
        let m := { z.m with copying := z.m.copying.filter fun x => decide (x ≠ (pc, bank, row)) }
        { z with m := if left = 0 then m else m.takeSpare d pc bank row }
      s1.logErr 0o06 1 d false 0 (pc / 16) (Config.dramRow bank row) (word (left - 1))

/-! ### POWER (R462 to R464) -/

/-- Some valid peer of this package's group, when it leads, is not dropped. -/
def State.leadsPeers (s : State) : Bool :=
  decide (s.h.mirror.role = 1) && s.peerIds.any fun i => !s.h.mirror.dropped.getLsbD i

/-- R464's conditions. -/
def State.mayEnterNight (s : State) : Bool :=
  s.h.plan.staged.isNone && !s.leadsPeers && (List.range 16).all fun p => decide ((s.partn p).st ≠ .reexec ∧ (s.partn p).st ≠ .joining)

/-- Power state from which a POWER command goes: a follower, whose admission never opens, leaves Dawn with PKG_STATE OPEN. -/
def State.powerState (s : State) : PwrSt := if s.h.pwr.st = .dawn then .noon else s.h.pwr.st

/-- POWER outside Night: the clock switch or the way to Night begins. In Night the command is WAKE. -/
def execPower (tag : BitVec 8) (s : State) : Host.Outcome State Fault Refusal :=
  .next <|
    if s.h.pwr.st = .night then s
    else s.command tag 0x0A [4] fun x =>
      let from_ := x.powerState
      let e := epochNext x.h.sd.g.epoch
      match x.arg 0 with
      | 0 => if from_ = .dusk then x.updPwr fun p => { p with clockTo := some (.noon, e) } else x.mbxResult 0x0A 1 []
      | 1 => if from_ = .noon then x.updPwr fun p => { p with clockTo := some (.dusk, e) } else x.mbxResult 0x0A 1 []
      | 2 =>
        if x.mayEnterNight then x.updPwr fun p => { p with nightAt := some e } else x.mbxResult 0x0A 1 []
      | _ => x.mbxResult 0x0A 1 []

/-! ### CAL_SET (R482, R483) -/

/-- An item's user-offset range and effective range; none where the table lists no such item of this part. -/
def State.calItem (s : State) (item : Nat) : Option (Int × Int × Int × Int) :=
  let i := item % 256
  let lane := i < 40
  match item / 256 with
  | 1 => if i < 34 then some (-512, 511, 0, 4095) else none
  | 2 => if i < 34 then some (-512, 511, 0, 4095) else none
  | 3 => if i = 0 then some (-512, 511, 0, 4095) else none
  | 4 => if i = 0 then some (-1000, 1000, -20000, 20000) else none
  | 5 => if lane then some (-8, 7, 0, 63) else none
  | 6 => if lane then some (-8, 7, 0, 63) else none
  | 7 => if lane then some (-8, 7, 0, 63) else none
  | 8 => if lane then some (-4, 3, 0, 31) else none
  | 9 => if i = 8 ∨ s.present i then some (-8, 8, -40, 40) else none
  | 10 => if (8 ≤ i ∧ i ≤ 16) ∨ s.present i then some (-10, 10, -20, 20) else none
  | _ => none

def execCalSet (tag : BitVec 8) (s : State) : Host.Outcome State Fault Refusal :=
  .next <| s.command tag 0x0B [1, 2, 3, 4, 5, 6] fun x =>
    let a := x.arg 0
    let item := a % 65536
    if a / 65536 % 32768 ≠ 0 then x.mbxResult 0x0B 2 []
    else match x.calItem item with
      | none => x.mbxResult 0x0B 2 []
      | some (ulo, uhi, lo, hi) =>
        let v := clamp3 ulo uhi (BitVec.ofNat 32 (x.arg 1)).toInt
        let x1 : State := if a < 2 ^ 31 then { x with h := { x.h with calUser := Sparse.set 0 x.h.calUser item v } } else x
        x1.mbxResult 0x0B 0 [BitVec.ofInt 32 (x1.calValue item lo hi)]

end Sys2Proof.Machine
end

