-- ==== Sys2Proof/Machine/Power.lean ====
section
/-! DEFINITION. Power: PWR_OK and SYS_RST_N (R470, R472, R474, R487), the domain sequencer (R468), the ROM self-check (R475), the clock
switch (R463), Night and the wake from it (R464 to R466), and thermal and supply faults (R485). -/

namespace Sys2Proof.Machine

/-! ### Package reset and boot -/

/-- The package at the start of boot: only the fuses, the straps and what outlives a reset on the board are kept. -/
def State.booted (s : State) (x : Straps) (stuck dead : Bool) : State :=
  let s1 : State := { State.reset with
    pending := s.pending, sent := s.sent, free := s.free,
    h := { Hub.reset with
      fuses := s.h.fuses,
      pwr := { Power.reset with
        pwrOk := true, straps := x, domains := bit128 104, bootStep := 1, stuck := stuck || dead, hubDead := dead,
        thermAlert := s.h.pwr.thermAlert } } }
  if stuck || dead then s1 else (s1.requestOn [105, 106, 107]).progress

/-- The straps as sampled: each land's override, or what its pull gives, TANDEM 1 on the ZL-208 and every other 0 (R20, R470). -/
def sampleLands (x : StrapLands) (part : Nat) : Straps :=
  let two (hi lo : Option Bool) : BitVec 2 := BitVec.ofNat 2 (2 * bit (hi.getD false) + bit (lo.getD false))
  { tandem := x.tandem.getD (decide (part = 208)), bootSrc := two x.bootSrc1 x.bootSrc0, mirrorId := two x.mirrorId1 x.mirrorId0,
    testMode := x.testMode.getD false }

/-- PWR_OK rises: straps are sampled and boot begins. With a rail out of tolerance, a fuse bit without a majority or TEST_MODE the
package stays in EARLY (R470, R472, R487). -/
def execPwrOkRise (lands : StrapLands) (railsOk fusesOk : Bool) (s : State) : Host.Outcome State Fault Refusal :=
  .next (if s.h.pwr.pwrOk then s
    else
      let x := sampleLands lands s.h.fuses.partCode
      s.booted x (!railsOk || !fusesOk || x.testMode) false)

/-- PWR_OK falls: everything but the fuses is lost. -/
def execPwrOkFall (s : State) : Host.Outcome State Fault Refusal :=
  .next (if !s.h.pwr.pwrOk then s
    else { State.reset with pending := s.pending, sent := s.sent, free := s.free, h := { Hub.reset with fuses := s.h.fuses } })

/-- SYS_RST_N held low: a package reset that keeps the straps. What lasts until PWR_OK falls goes on. -/
def execSysRstN (s : State) : Host.Outcome State Fault Refusal :=
  .next (if !s.h.pwr.pwrOk then s else s.booted s.h.pwr.straps s.h.pwr.stuck s.h.pwr.hubDead)

/-- The sequencer powers up to four domains, in order of request. -/
def execDomainPowerGrant (s : State) : Host.Outcome State Fault Refusal :=
  .next (((s.h.pwr.queue.take 4).foldl (fun x i => x.domainOn i)
    (s.updPwr fun p => { p with queue := p.queue.drop 4 })).progress)

/-- The cores of a cluster that has come on check their ROM; fails: position of each core that fails. A domain's logic is held in
reset until the domains that it needs are on (R459). -/
def execRomSelfCheck (cl : ClusterId) (fails : BitVec 8) (s : State) : Host.Outcome State Fault Refusal :=
  .next <|
    if !s.up (clusterDomain cl) 4 || (s.cluster cl).selfChecked || (s.cluster cl).retired then s
    else if fails ≠ 0 then (s.retire cl 1).progress
    else (s.updCluster cl fun x => { x with selfChecked := true }).progress

/-! ### Clock switch -/

/-- At the edge that begins the epoch, after the actions of step 1 of R85 (R463). -/
def execClockSwitch (s : State) : Host.Outcome State Fault Refusal :=
  .next <| match s.h.pwr.clockTo with
  | some (t, e) =>
    if s.h.pwr.st ≠ .night ∧ epochLe e s.h.sd.g.epoch then
      s.atStep 2 fun x => (x.updPwr fun p => { p with st := t, clockTo := none }).mbxResult 0x0A 0 []
    else s
  | none => s

/-! ### Night -/

/-- A PACKET stands in a departure queue, or a response waits for the host. -/
def State.queuesHold (s : State) : Bool :=
  (List.range 8).any (fun d => (s.die d).queues.any fun e =>
    decide (e.2.kind = 3) && (e.2.packets (s.die d).qram e.2.used e.2.rptr).any fun v => decide (lwType (e.2.read (s.die d).qram v) = 1)) ||
  s.h.host.resp.any (fun e => !e.2.isEmpty) ||
  s.h.host.q.any fun e => !isSubmission e.1 && e.2.en && decide (e.2.used ≠ 0)

/-- Domains that R458 marks off in Night. -/
def nightOff : BitVec 128 :=
  mask128 (((List.range 8).flatMap fun d => (List.range 12).map fun j => 13 * d + j) ++ [107, 109, 110, 111, 112, 113, 114, 115])

/-- Everything admitted before the first step has been released and has departed. -/
def State.nightReady (s : State) (e : Nat) : Bool :=
  epochLe e s.h.sd.g.epoch && !s.queuesHold && (List.range 16).all fun p => epochLe (epochPrev e) (s.partn p).released

/-- Steps 3 to 5 of R464. -/
def execNightEntry (s : State) : Host.Outcome State Fault Refusal :=
  .next <| match s.h.pwr.nightAt with
  | none => s
  | some e =>
    if !s.nightReady e then s
    else
      let s1 := (s.domainsOff nightOff).updPwr fun p => { p with st := .night, nightAt := none, clockTo := none }
      let s2 := (s1.updSdRegs fun g => { g with night := true, admitOpen := false }).enterHoldover
      let s3 := (s2.updHost fun x => { x with g := { x.g with width := 0, rate := if x.linkUp then 1 else 0 } }).updMirror fun m =>
        { m with slow := m.slow ||| 1 }
      s3.mbxResult 0x0A 0 []

/-- The domains of a wake in the order of its first step. -/
def State.wakeOrder (s : State) (pl : Plan) : List Nat :=
  ((List.range 12).map (fun h => 104 + h) ++
    (List.range 8).flatMap fun d => [10, 11, 8, 9, 0, 1, 2, 3, 4, 5, 6, 7].map fun j => 13 * d + j).filter fun i =>
      (s.wanted pl).getLsbD i

/-- POWER in Night: the wake begins; it ends in Noon or Dusk. -/
def execWake (tag : BitVec 8) (s : State) : Host.Outcome State Fault Refusal :=
  .next <|
    if s.h.pwr.st ≠ .night then s
    else s.command tag 0x0A [6] fun x =>
      if 2 ≤ x.arg 0 then x.mbxResult 0x0A 1 []
      else
        let pl := x.effPlan
        let owned : BitVec 64 := pl.parts.foldl (fun a e => a ||| e.2.clusters) 0
        (((x.requestOn (x.wakeOrder pl)).toStart owned).updPwr fun p =>
          { p with after := .wake, clockTo := some (if x.arg 0 = 0 then .noon else .dusk, 0) }).progress

/-! ### Thermal and supply faults -/

/-- Whether some sensor reads 100 °C or more; after a hub fault the land stays low. -/
def execThermalAlert (hot : Bool) (s : State) : Host.Outcome State Fault Refusal :=
  .next (s.updPwr fun p => { p with thermAlert := hot || p.hubDead })

def execDieThermalFault (d : DieId) (s : State) : Host.Outcome State Fault Refusal := .next (s.decideFence d .supply)

def execHubThermalFault (s : State) : Host.Outcome State Fault Refusal :=
  .next <|
    if !s.h.pwr.pwrOk then s
    else
      let s1 := s.domainsOff (BitVec.allOnes 128 &&& ~~~bit128 104)
      s1.updPwr fun p => { p with hubDead := true, thermAlert := true, starts := 0, after := .nothing, clockTo := none, nightAt := none }

end Sys2Proof.Machine
end

