-- ==== Sys2Proof/Machine/Dispatch.lean ====
section
/-! DEFINITION. The meaning of each command: one arm for each row of the opcode table. -/

namespace Sys2Proof.Machine

/-- A command's effect on everything but the queue. -/
def exec (i : Instr) (s : State) : Host.Outcome State Fault Refusal :=
  match i with
  | .add x1 x2 x3 => Sys2Proof.Machine.execAdd x1 x2 x3 s
  | .sub x1 x2 x3 => Sys2Proof.Machine.execSub x1 x2 x3 s
  | .and x1 x2 x3 => Sys2Proof.Machine.execAnd x1 x2 x3 s
  | .or x1 x2 x3 => Sys2Proof.Machine.execOr x1 x2 x3 s
  | .mov x1 x2 x3 => Sys2Proof.Machine.execMov x1 x2 x3 s
  | .home x1 x2 x3 => Sys2Proof.Machine.execHome x1 x2 x3 s
  | .ldi x1 x2 x3 => Sys2Proof.Machine.execLdi x1 x2 x3 s
  | .ldiL x1 x2 x3 => Sys2Proof.Machine.execLdiL x1 x2 x3 s
  | .addi x1 x2 x3 => Sys2Proof.Machine.execAddi x1 x2 x3 s
  | .andi x1 x2 x3 => Sys2Proof.Machine.execAndi x1 x2 x3 s
  | .ori x1 x2 x3 => Sys2Proof.Machine.execOri x1 x2 x3 s
  | .xori x1 x2 x3 => Sys2Proof.Machine.execXori x1 x2 x3 s
  | .add3 x1 x2 x3 x4 => Sys2Proof.Machine.execAdd3 x1 x2 x3 x4 s
  | .sub3 x1 x2 x3 x4 => Sys2Proof.Machine.execSub3 x1 x2 x3 x4 s
  | .and3 x1 x2 x3 x4 => Sys2Proof.Machine.execAnd3 x1 x2 x3 x4 s
  | .or3 x1 x2 x3 x4 => Sys2Proof.Machine.execOr3 x1 x2 x3 x4 s
  | .xor3 x1 x2 x3 x4 => Sys2Proof.Machine.execXor3 x1 x2 x3 x4 s
  | .andn x1 x2 x3 x4 => Sys2Proof.Machine.execAndn x1 x2 x3 x4 s
  | .min x1 x2 x3 x4 => Sys2Proof.Machine.execMin x1 x2 x3 x4 s
  | .max x1 x2 x3 x4 => Sys2Proof.Machine.execMax x1 x2 x3 x4 s
  | .mul x1 x2 x3 x4 => Sys2Proof.Machine.execMul x1 x2 x3 x4 s
  | .mulh x1 x2 x3 x4 => Sys2Proof.Machine.execMulh x1 x2 x3 x4 s
  | .mulhu x1 x2 x3 x4 => Sys2Proof.Machine.execMulhu x1 x2 x3 x4 s
  | .div x1 x2 x3 x4 => Sys2Proof.Machine.execDiv x1 x2 x3 x4 s
  | .divu x1 x2 x3 x4 => Sys2Proof.Machine.execDivu x1 x2 x3 x4 s
  | .rem x1 x2 x3 x4 => Sys2Proof.Machine.execRem x1 x2 x3 x4 s
  | .remu x1 x2 x3 x4 => Sys2Proof.Machine.execRemu x1 x2 x3 x4 s
  | .neg x1 x2 x3 => Sys2Proof.Machine.execNeg x1 x2 x3 s
  | .not x1 x2 x3 => Sys2Proof.Machine.execNot x1 x2 x3 s
  | .popc x1 x2 x3 => Sys2Proof.Machine.execPopc x1 x2 x3 s
  | .clz x1 x2 x3 => Sys2Proof.Machine.execClz x1 x2 x3 s
  | .shl x1 x2 x3 x4 => Sys2Proof.Machine.execShl x1 x2 x3 x4 s
  | .shrl x1 x2 x3 x4 => Sys2Proof.Machine.execShrl x1 x2 x3 x4 s
  | .shra x1 x2 x3 x4 => Sys2Proof.Machine.execShra x1 x2 x3 x4 s
  | .rotl x1 x2 x3 x4 => Sys2Proof.Machine.execRotl x1 x2 x3 x4 s
  | .ext x1 x2 x3 x4 x5 => Sys2Proof.Machine.execExt x1 x2 x3 x4 x5 s
  | .ins x1 x2 x3 x4 x5 => Sys2Proof.Machine.execIns x1 x2 x3 x4 x5 s
  | .cset x1 x2 x3 x4 x5 => Sys2Proof.Machine.execCset x1 x2 x3 x4 x5 s
  | .cseti x1 x2 x3 x4 x5 => Sys2Proof.Machine.execCseti x1 x2 x3 x4 x5 s
  | .cmpb x1 x2 x3 x4 x5 => Sys2Proof.Machine.execCmpb x1 x2 x3 x4 x5 s
  | .mfs x1 x2 x3 => Sys2Proof.Machine.execMfs x1 x2 x3 s
  | .mts x1 x2 x3 => Sys2Proof.Machine.execMts x1 x2 x3 s
  | .ldc x1 x2 x3 => Sys2Proof.Machine.execLdc x1 x2 x3 s
  | .ldw x1 x2 x3 => Sys2Proof.Machine.execLdw x1 x2 x3 s
  | .ldp x1 x2 x3 => Sys2Proof.Machine.execLdp x1 x2 x3 s
  | .stc x1 x2 x3 => Sys2Proof.Machine.execStc x1 x2 x3 s
  | .stw x1 x2 x3 => Sys2Proof.Machine.execStw x1 x2 x3 s
  | .stp x1 x2 x3 => Sys2Proof.Machine.execStp x1 x2 x3 s
  | .mac x1 x2 x3 x4 x5 x6 x7 x8 => Sys2Proof.Machine.execMac x1 x2 x3 x4 x5 x6 x7 x8 s
  | .txnNext x1 x2 => Sys2Proof.Machine.execTxnNext x1 x2 s
  | .txnCommit x1 x2 => Sys2Proof.Machine.execTxnCommit x1 x2 s
  | .txnAbort x1 x2 => Sys2Proof.Machine.execTxnAbort x1 x2 s
  | .txnRespond x1 x2 x3 => Sys2Proof.Machine.execTxnRespond x1 x2 x3 s
  | .alarm x1 x2 => Sys2Proof.Machine.execAlarm x1 x2 s
  | .loopr x1 x2 x3 x4 => Sys2Proof.Machine.execLoopr x1 x2 x3 x4 s
  | .jr x1 x2 => Sys2Proof.Machine.execJr x1 x2 s
  | .callr x1 x2 x3 x4 => Sys2Proof.Machine.execCallr x1 x2 x3 x4 s
  | .nop x1 => Sys2Proof.Machine.execNop x1 s
  | .isync x1 => Sys2Proof.Machine.execIsync x1 s
  | .msync x1 => Sys2Proof.Machine.execMsync x1 s
  | .fsync x1 => Sys2Proof.Machine.execFsync x1 s
  | .eret x1 => Sys2Proof.Machine.execEret x1 s
  | .pret x1 => Sys2Proof.Machine.execPret x1 s
  | .fspill x1 => Sys2Proof.Machine.execFspill x1 s
  | .ffill x1 => Sys2Proof.Machine.execFfill x1 s
  | .ret x1 => Sys2Proof.Machine.execRet x1 s
  | .loopOff x1 => Sys2Proof.Machine.execLoopOff x1 s
  | .alarmOff x1 => Sys2Proof.Machine.execAlarmOff x1 s
  | .break_ x1 x2 => Sys2Proof.Machine.execBreak x1 x2 s
  | .br x1 x2 => Sys2Proof.Machine.execBr x1 x2 s
  | .brL x1 x2 => Sys2Proof.Machine.execBrL x1 x2 s
  | .call x1 x2 x3 => Sys2Proof.Machine.execCall x1 x2 x3 s
  | .callS x1 x2 x3 x4 => Sys2Proof.Machine.execCallS x1 x2 x3 x4 s
  | .loop x1 x2 x3 x4 => Sys2Proof.Machine.execLoop x1 x2 x3 x4 s
  | .doorbell x1 x2 => Sys2Proof.Machine.execDoorbell x1 x2 s
  | .codeWr x1 x2 x3 => Sys2Proof.Machine.execCodeWr x1 x2 x3 s
  | .txnWait x1 => Sys2Proof.Machine.execTxnWait x1 s
  | .txnClaim x1 x2 => Sys2Proof.Machine.execTxnClaim x1 x2 s
  | .txnClaimx x1 x2 => Sys2Proof.Machine.execTxnClaimx x1 x2 s
  | .dcas x1 x2 x3 x4 x5 => Sys2Proof.Machine.execDcas x1 x2 x3 x4 x5 s
  | .dpost x1 x2 x3 x4 x5 => Sys2Proof.Machine.execDpost x1 x2 x3 x4 x5 s
  | .dacc x1 x2 x3 x4 x5 => Sys2Proof.Machine.execDacc x1 x2 x3 x4 x5 s
  | .undefinedEncoding x1 => Sys2Proof.Machine.execUndefinedEncoding x1 s
  | .dadd x1 x2 x3 => Sys2Proof.Machine.execDadd x1 x2 x3 s
  | .dsub x1 x2 x3 => Sys2Proof.Machine.execDsub x1 x2 x3 s
  | .dcmp x1 x2 x3 x4 => Sys2Proof.Machine.execDcmp x1 x2 x3 x4 s
  | .dmov x1 x2 x3 => Sys2Proof.Machine.execDmov x1 x2 x3 s
  | .dneg x1 x2 => Sys2Proof.Machine.execDneg x1 x2 s
  | .dabs x1 x2 => Sys2Proof.Machine.execDabs x1 x2 s
  | .dclr x1 x2 => Sys2Proof.Machine.execDclr x1 x2 s
  | .dshl x1 x2 x3 => Sys2Proof.Machine.execDshl x1 x2 x3 s
  | .drnd x1 x2 x3 x4 => Sys2Proof.Machine.execDrnd x1 x2 x3 x4 s
  | .dmul x1 x2 x3 => Sys2Proof.Machine.execDmul x1 x2 x3 s
  | .dmulw x1 x2 x3 => Sys2Proof.Machine.execDmulw x1 x2 x3 s
  | .ddiv x1 x2 x3 x4 x5 => Sys2Proof.Machine.execDdiv x1 x2 x3 x4 x5 s
  | .cvbd x1 x2 x3 => Sys2Proof.Machine.execCvbd x1 x2 x3 s
  | .cvbdL x1 x2 x3 => Sys2Proof.Machine.execCvbdL x1 x2 x3 s
  | .cvdb x1 x2 x3 => Sys2Proof.Machine.execCvdb x1 x2 x3 s
  | .cvdbL x1 x2 x3 => Sys2Proof.Machine.execCvdbL x1 x2 x3 s
  | .dldw x1 x2 x3 x4 => Sys2Proof.Machine.execDldw x1 x2 x3 x4 s
  | .dstw x1 x2 x3 x4 => Sys2Proof.Machine.execDstw x1 x2 x3 x4 s
  | .daddm x1 x2 x3 x4 => Sys2Proof.Machine.execDaddm x1 x2 x3 x4 s
  | .dsubm x1 x2 x3 x4 => Sys2Proof.Machine.execDsubm x1 x2 x3 x4 s
  | .dcmpm x1 x2 x3 x4 x5 => Sys2Proof.Machine.execDcmpm x1 x2 x3 x4 x5 s
  | .dmulm x1 x2 x3 x4 => Sys2Proof.Machine.execDmulm x1 x2 x3 x4 s
  | .cvcd x1 x2 x3 x4 x5 => Sys2Proof.Machine.execCvcd x1 x2 x3 x4 x5 s
  | .cvdc x1 x2 x3 x4 x5 => Sys2Proof.Machine.execCvdc x1 x2 x3 x4 x5 s
  | .movc x1 x2 x3 x4 x5 x6 => Sys2Proof.Machine.execMovc x1 x2 x3 x4 x5 x6 s
  | .fillc x1 x2 x3 x4 x5 => Sys2Proof.Machine.execFillc x1 x2 x3 x4 x5 s
  | .movem x1 x2 x3 x4 x5 x6 x7 x8 x9 => Sys2Proof.Machine.execMovem x1 x2 x3 x4 x5 x6 x7 x8 x9 s
  | .tr x1 x2 x3 x4 x5 x6 x7 x8 => Sys2Proof.Machine.execTr x1 x2 x3 x4 x5 x6 x7 x8 s
  | .scan x1 x2 x3 x4 x5 x6 => Sys2Proof.Machine.execScan x1 x2 x3 x4 x5 x6 s
  | .cmpc x1 x2 x3 x4 x5 x6 => Sys2Proof.Machine.execCmpc x1 x2 x3 x4 x5 x6 s
  | .edit x1 x2 x3 x4 x5 x6 x7 => Sys2Proof.Machine.execEdit x1 x2 x3 x4 x5 x6 x7 s
  | .fadd x1 x2 x3 x4 x5 => Sys2Proof.Machine.execFadd x1 x2 x3 x4 x5 s
  | .fsub x1 x2 x3 x4 x5 => Sys2Proof.Machine.execFsub x1 x2 x3 x4 x5 s
  | .fmul x1 x2 x3 x4 x5 => Sys2Proof.Machine.execFmul x1 x2 x3 x4 x5 s
  | .fdiv x1 x2 x3 x4 x5 => Sys2Proof.Machine.execFdiv x1 x2 x3 x4 x5 s
  | .fsqrt x1 x2 x3 x4 x5 => Sys2Proof.Machine.execFsqrt x1 x2 x3 x4 x5 s
  | .fcvtsl x1 x2 x3 => Sys2Proof.Machine.execFcvtsl x1 x2 x3 s
  | .fcvtls x1 x2 x3 x4 => Sys2Proof.Machine.execFcvtls x1 x2 x3 x4 s
  | .fcvtfi x1 x2 x3 x4 x5 => Sys2Proof.Machine.execFcvtfi x1 x2 x3 x4 x5 s
  | .fcvtif x1 x2 x3 x4 x5 => Sys2Proof.Machine.execFcvtif x1 x2 x3 x4 x5 s
  | .fneg x1 x2 x3 x4 => Sys2Proof.Machine.execFneg x1 x2 x3 x4 s
  | .fabs x1 x2 x3 x4 => Sys2Proof.Machine.execFabs x1 x2 x3 x4 s
  | .fcmp x1 x2 x3 x4 x5 => Sys2Proof.Machine.execFcmp x1 x2 x3 x4 x5 s
  | .frec x1 x2 x3 => Sys2Proof.Machine.execFrec x1 x2 x3 s
  | .fclrt x1 => Sys2Proof.Machine.execFclrt x1 s
  | .cmov x1 x2 x3 => Sys2Proof.Machine.execCmov x1 x2 x3 s
  | .cclr x1 x2 => Sys2Proof.Machine.execCclr x1 x2 s
  | .csetb x1 x2 x3 x4 x5 => Sys2Proof.Machine.execCsetb x1 x2 x3 x4 x5 s
  | .candr x1 x2 x3 x4 => Sys2Proof.Machine.execCandr x1 x2 x3 x4 s
  | .csetk x1 x2 x3 x4 => Sys2Proof.Machine.execCsetk x1 x2 x3 x4 s
  | .cget x1 x2 x3 => Sys2Proof.Machine.execCget x1 x2 x3 s
  | .cld x1 x2 x3 => Sys2Proof.Machine.execCld x1 x2 x3 s
  | .cst x1 x2 x3 => Sys2Proof.Machine.execCst x1 x2 x3 s
  | .capln x1 x2 => Sys2Proof.Machine.execCapln x1 x2 s
  | .dataln x1 x2 => Sys2Proof.Machine.execDataln x1 x2 s
  | .setkey x1 x2 x3 => Sys2Proof.Machine.execSetkey x1 x2 x3 s
  | .getkey x1 x2 x3 => Sys2Proof.Machine.execGetkey x1 x2 x3 s
  | .tlbInv x1 x2 => Sys2Proof.Machine.execTlbInv x1 x2 s
  | .tlbInva x1 => Sys2Proof.Machine.execTlbInva x1 s
  | .tlbLock x1 x2 => Sys2Proof.Machine.execTlbLock x1 x2 s
  | .tlbUnlk x1 x2 => Sys2Proof.Machine.execTlbUnlk x1 x2 s
  | .tlbRd x1 x2 x3 => Sys2Proof.Machine.execTlbRd x1 x2 x3 s
  | .interruptTake x1 => Sys2Proof.Machine.execInterruptTake x1 s
  | .multiplyResult x1 => Sys2Proof.Machine.execMultiplyResult x1 s
  | .divideResult x1 => Sys2Proof.Machine.execDivideResult x1 s
  | .decimalUnitResult x1 => Sys2Proof.Machine.execDecimalUnitResult x1 s
  | .floatResult x1 => Sys2Proof.Machine.execFloatResult x1 s
  | .memoryResponse x1 x2 => Sys2Proof.Machine.execMemoryResponse x1 x2 s
  | .pageWalk x1 x2 x3 x4 => Sys2Proof.Machine.execPageWalk x1 x2 x3 x4 s
  | .gateCheck x1 => Sys2Proof.Machine.execGateCheck x1 s
  | .lineAccess x1 x2 x3 => Sys2Proof.Machine.execLineAccess x1 x2 x3 s
  | .targetViolation x1 => Sys2Proof.Machine.execTargetViolation x1 s
  | .tickEdge => Sys2Proof.Machine.execTickEdge s
  | .tickCheck x1 => Sys2Proof.Machine.execTickCheck x1 s
  | .curfewCheck x1 => Sys2Proof.Machine.execCurfewCheck x1 s
  | .standinResponse x1 => Sys2Proof.Machine.execStandinResponse x1 s
  | .epochSeal x1 => Sys2Proof.Machine.execEpochSeal x1 s
  | .releaseLaunch x1 => Sys2Proof.Machine.execReleaseLaunch x1 s
  | .alarmFire x1 => Sys2Proof.Machine.execAlarmFire x1 s
  | .scrubSlice x1 x2 x3 => Sys2Proof.Machine.execScrubSlice x1 x2 x3 s
  | .statisticsSnapshot => Sys2Proof.Machine.execStatisticsSnapshot s
  | .horizonAnnounce x1 => Sys2Proof.Machine.execHorizonAnnounce x1 s
  | .horizonReceive x1 x2 => Sys2Proof.Machine.execHorizonReceive x1 x2 s
  | .horizonStall x1 => Sys2Proof.Machine.execHorizonStall x1 s
  | .horizonStallFence x1 => Sys2Proof.Machine.execHorizonStallFence x1 s
  | .releaseReceive x1 x2 => Sys2Proof.Machine.execReleaseReceive x1 x2 s
  | .visibleEpochSwitch x1 x2 => Sys2Proof.Machine.execVisibleEpochSwitch x1 x2 s
  | .hubVisibleSwitch x1 => Sys2Proof.Machine.execHubVisibleSwitch x1 s
  | .sourceMeasurement x1 x2 x3 x4 => Sys2Proof.Machine.execSourceMeasurement x1 x2 x3 x4 s
  | .sourceLoss x1 => Sys2Proof.Machine.execSourceLoss x1 s
  | .ppsEdge x1 => Sys2Proof.Machine.execPpsEdge x1 s
  | .ppsOutPulse => Sys2Proof.Machine.execPpsOutPulse s
  | .originReached => Sys2Proof.Machine.execOriginReached s
  | .lockWaitExpiry => Sys2Proof.Machine.execLockWaitExpiry s
  | .holdLimitExpiry => Sys2Proof.Machine.execHoldLimitExpiry s
  | .sdSetLoWrite x1 => Sys2Proof.Machine.execSdSetLoWrite x1 s
  | .grantMaxRead x1 => Sys2Proof.Machine.execGrantMaxRead x1 s
  | .registerWrite x1 => Sys2Proof.Machine.execRegisterWrite x1 s
  | .frameReceive x1 x2 x3 x4 => Sys2Proof.Machine.execFrameReceive x1 x2 x3 x4 s
  | .frameTransmit x1 => Sys2Proof.Machine.execFrameTransmit x1 s
  | .linkStateChange x1 x2 x3 x4 => Sys2Proof.Machine.execLinkStateChange x1 x2 x3 x4 s
  | .ptpMessage x1 x2 => Sys2Proof.Machine.execPtpMessage x1 x2 s
  | .ptpDelayRequest x1 => Sys2Proof.Machine.execPtpDelayRequest x1 s
  | .open_ x1 => Sys2Proof.Machine.execOpen x1 s
  | .request x1 => Sys2Proof.Machine.execRequest x1 s
  | .ack x1 => Sys2Proof.Machine.execAck x1 s
  | .close_ x1 => Sys2Proof.Machine.execClose x1 s
  | .lptSessionIdle x1 x2 => Sys2Proof.Machine.execLptSessionIdle x1 x2 s
  | .lptAckDelay x1 x2 => Sys2Proof.Machine.execLptAckDelay x1 x2 s
  | .lptResend x1 x2 x3 => Sys2Proof.Machine.execLptResend x1 x2 x3 s
  | .lptHoldExpiry x1 x2 x3 => Sys2Proof.Machine.execLptHoldExpiry x1 x2 x3 s
  | .frameCopyArrive x1 => Sys2Proof.Machine.execFrameCopyArrive x1 s
  | .departurePass x1 x2 => Sys2Proof.Machine.execDeparturePass x1 x2 s
  | .queueRptrWrite x1 x2 x3 x4 => Sys2Proof.Machine.execQueueRptrWrite x1 x2 x3 x4 s
  | .queueWptrWrite x1 x2 x3 x4 => Sys2Proof.Machine.execQueueWptrWrite x1 x2 x3 x4 s
  | .queueCondition x1 x2 x3 => Sys2Proof.Machine.execQueueCondition x1 x2 x3 s
  | .boardwalkLinkRetry x1 => Sys2Proof.Machine.execBoardwalkLinkRetry x1 s
  | .boardwalkLinkLost x1 => Sys2Proof.Machine.execBoardwalkLinkLost x1 s
  | .claimArrive x1 => Sys2Proof.Machine.execClaimArrive x1 s
  | .claimGrant x1 x2 => Sys2Proof.Machine.execClaimGrant x1 x2 s
  | .grantReceive x1 x2 => Sys2Proof.Machine.execGrantReceive x1 x2 s
  | .frontierSend x1 x2 => Sys2Proof.Machine.execFrontierSend x1 x2 s
  | .frontierReceive x1 => Sys2Proof.Machine.execFrontierReceive x1 s
  | .claimRelease x1 => Sys2Proof.Machine.execClaimRelease x1 s
  | .postingRequest x1 x2 => Sys2Proof.Machine.execPostingRequest x1 x2 s
  | .postingResult x1 x2 => Sys2Proof.Machine.execPostingResult x1 x2 s
  | .daccApply x1 x2 => Sys2Proof.Machine.execDaccApply x1 x2 s
  | .resolveRequest => Sys2Proof.Machine.execResolveRequest s
  | .gateAnswer x1 x2 => Sys2Proof.Machine.execGateAnswer x1 x2 s
  | .abortNotice x1 => Sys2Proof.Machine.execAbortNotice x1 s
  | .abortRestore x1 x2 => Sys2Proof.Machine.execAbortRestore x1 x2 s
  | .repairTimeout x1 x2 => Sys2Proof.Machine.execRepairTimeout x1 x2 s
  | .digestSend x1 x2 => Sys2Proof.Machine.execDigestSend x1 x2 s
  | .digestCompare x1 => Sys2Proof.Machine.execDigestCompare x1 s
  | .dieFence x1 => Sys2Proof.Machine.execDieFence x1 s
  | .heartSend => Sys2Proof.Machine.execHeartSend s
  | .log => Sys2Proof.Machine.execLog s
  | .logResend x1 x2 x3 => Sys2Proof.Machine.execLogResend x1 x2 x3 s
  | .mirrorAck => Sys2Proof.Machine.execMirrorAck s
  | .fetch x1 => Sys2Proof.Machine.execFetch x1 s
  | .line => Sys2Proof.Machine.execLine s
  | .heart x1 => Sys2Proof.Machine.execHeart x1 s
  | .take => Sys2Proof.Machine.execTake s
  | .join => Sys2Proof.Machine.execJoin s
  | .joined => Sys2Proof.Machine.execJoined s
  | .followerDropped x1 => Sys2Proof.Machine.execFollowerDropped x1 s
  | .leadLost => Sys2Proof.Machine.execLeadLost s
  | .takeover => Sys2Proof.Machine.execTakeover s
  | .mirrorLinkFallback x1 => Sys2Proof.Machine.execMirrorLinkFallback x1 s
  | .perst => Sys2Proof.Machine.execPerst s
  | .pfFlr => Sys2Proof.Machine.execPfFlr s
  | .vfFlr x1 => Sys2Proof.Machine.execVfFlr x1 s
  | .windowRead x1 x2 x3 x4 => Sys2Proof.Machine.execWindowRead x1 x2 x3 x4 s
  | .windowWrite x1 x2 x3 x4 x5 => Sys2Proof.Machine.execWindowWrite x1 x2 x3 x4 x5 s
  | .windowRuleWrite x1 x2 x3 x4 => Sys2Proof.Machine.execWindowRuleWrite x1 x2 x3 x4 s
  | .space2ViewAccess x1 x2 x3 => Sys2Proof.Machine.execSpace2ViewAccess x1 x2 x3 s
  | .hubMsgWrite x1 x2 => Sys2Proof.Machine.execHubMsgWrite x1 x2 s
  | .bar0BadAccess => Sys2Proof.Machine.execBar0BadAccess s
  | .host3Completion x1 x2 x3 => Sys2Proof.Machine.execHost3Completion x1 x2 x3 s
  | .doorbellWrite x1 x2 x3 => Sys2Proof.Machine.execDoorbellWrite x1 x2 x3 s
  | .qCtlWrite x1 x2 x3 => Sys2Proof.Machine.execQCtlWrite x1 x2 x3 s
  | .hostInjection x1 x2 x3 => Sys2Proof.Machine.execHostInjection x1 x2 x3 s
  | .hostResponseWrite x1 => Sys2Proof.Machine.execHostResponseWrite x1 s
  | .mbxComplete => Sys2Proof.Machine.execMbxComplete s
  | .patchLoad x1 x2 x3 => Sys2Proof.Machine.execPatchLoad x1 x2 x3 s
  | .planLoad x1 x2 x3 => Sys2Proof.Machine.execPlanLoad x1 x2 x3 s
  | .planWithdraw x1 => Sys2Proof.Machine.execPlanWithdraw x1 s
  | .planRead x1 => Sys2Proof.Machine.execPlanRead x1 s
  | .takeoverCommand x1 => Sys2Proof.Machine.execTakeoverCommand x1 s
  | .fence x1 => Sys2Proof.Machine.execFence x1 s
  | .retire x1 => Sys2Proof.Machine.execRetire x1 s
  | .restart x1 => Sys2Proof.Machine.execRestart x1 s
  | .rowRepair x1 => Sys2Proof.Machine.execRowRepair x1 s
  | .rowPprDone x1 x2 x3 x4 => Sys2Proof.Machine.execRowPprDone x1 x2 x3 x4 s
  | .power x1 => Sys2Proof.Machine.execPower x1 s
  | .calSet x1 => Sys2Proof.Machine.execCalSet x1 s
  | .stagingDeadline => Sys2Proof.Machine.execStagingDeadline s
  | .planTakeEffect => Sys2Proof.Machine.execPlanTakeEffect s
  | .swapDone x1 => Sys2Proof.Machine.execSwapDone x1 s
  | .pwrOkRise x1 x2 x3 => Sys2Proof.Machine.execPwrOkRise x1 x2 x3 s
  | .pwrOkFall => Sys2Proof.Machine.execPwrOkFall s
  | .sysRstN => Sys2Proof.Machine.execSysRstN s
  | .domainPowerGrant => Sys2Proof.Machine.execDomainPowerGrant s
  | .romSelfCheck x1 x2 => Sys2Proof.Machine.execRomSelfCheck x1 x2 s
  | .clockSwitch => Sys2Proof.Machine.execClockSwitch s
  | .nightEntry => Sys2Proof.Machine.execNightEntry s
  | .wake x1 => Sys2Proof.Machine.execWake x1 s
  | .thermalAlert x1 => Sys2Proof.Machine.execThermalAlert x1 s
  | .dieThermalFault x1 => Sys2Proof.Machine.execDieThermalFault x1 s
  | .hubThermalFault => Sys2Proof.Machine.execHubThermalFault s
  | .secondaryPortSwitch x1 => Sys2Proof.Machine.execSecondaryPortSwitch x1 s
  | .peerHeardExpiry x1 => Sys2Proof.Machine.execPeerHeardExpiry x1 s
  | .spareRowCopyDone x1 x2 x3 x4 => Sys2Proof.Machine.execSpareRowCopyDone x1 x2 x3 x4 s
  | .vpgmOutOfRange => Sys2Proof.Machine.execVpgmOutOfRange s
  | .hostLinkStateChange x1 x2 x3 => Sys2Proof.Machine.execHostLinkStateChange x1 x2 x3 s
  | .configurationSpaceWrite x1 => Sys2Proof.Machine.execConfigurationSpaceWrite x1 s
  | .mailboxNop x1 => Sys2Proof.Machine.execMailboxNop x1 s
  | .unknownMailboxCode x1 x2 => Sys2Proof.Machine.execUnknownMailboxCode x1 x2 s
  | .mbxCmdWhileBusy x1 => Sys2Proof.Machine.execMbxCmdWhileBusy x1 s
  | .msiXUnmask x1 => Sys2Proof.Machine.execMsiXUnmask x1 s

end Sys2Proof.Machine
end

