-- ==== Sys2Proof/Safety.lean ====
section
/-! DEFINITION. What counts as a safe step and a safe run, and when a core carries out an instruction: the terms that statements
use. -/

namespace Sys2Proof.Machine

/-- A step that answers a next state: the package neither stops with a fault nor refuses a command. -/
abbrev SafeStep (s : State) : Prop := ∃ t, step s = .next t

/-- The next n commands of the queue all answer a next state. -/
def SafeRun : Nat → State → Prop
  | 0, _ => True
  | n + 1, s => ∃ t, step s = .next t ∧ SafeRun n t

/-- How core c carries out instruction i at its next command: its progress, and the state once what its fetch corrects has been
logged (R382) and its bell of R219 has ended. It goes on with the instruction that waits by itself and that no interrupt abandons (R176); or it begins
the instruction at its pc when no item of R175 comes first, its syllables have been fetched (R146, R196), its encoding is
defined (R188), no result that it uses is outstanding (R163), and no mode shadow forbids it (R160). None: it does
something else. -/
def State.carries (s : State) (c : CoreId) (i : Instr) : Option (Cur × State) :=
  let k := s.core c
  if !k.live || k.regBad then none
  else match k.cur with
    | some x => if decide (x.instr = i) && x.retrying && !(x.soft && k.takeable.isSome) then some (x, s) else none
    | none =>
      if k.takeable.isNone && decide (s.fetchIs c (encode i) = .ready) && i.wellFormed && (k.awaited i).isEmpty &&
          !(k.r.shadow.isSome && hazard k.r i) then
        some (.begin i, (s.rung c).fetchCorrected c (encode i).length)
      else none

/-- A string instruction performs units one after another until it has ended, with no interrupt to be taken between them
(R247, R250): its last progress and the state; none where a unit faults, waits or is interrupted, or n is too small. -/
def StrOp.units (op : StrOp) (c : CoreId) : Nat → Cur → State → Option (Cur × State)
  | 0, _, _ => none
  | n + 1, x, s =>
    if op.ended x.prog then some (x, s)
    else match op.unit x s with
      | .next p t cost =>
        if (t.core c).takeable.isSome && !op.ended p then none
        else op.units c n { x with prog := p, rounds := [], xlat := [], resumed := false, cost := x.cost + cost, soft := false } t
      | _ => none

/-! ### What statements say of an instruction

Each holds of every state in which core c carries instruction i out, and each concludes that exec answers the next state named. -/

/-- The instruction ends with the state changed as f says, in cc cycles; the core goes on at syllable `next` of a taken branch, else
behind the instruction, or at the start of the loop that ends with it. -/
def Ends (s : State) (c : CoreId) (i : Instr) (cc : Nat) (next : Option Nat) (f : State → State) : Prop :=
  ∀ x s1, s.carries c i = some (x, s1) → exec i s = .next (s1.finish (f s1) c i next cc)

/-- The instruction ends in cc cycles with the registers that f computes from those the core held. -/
def Yields (s : State) (c : CoreId) (i : Instr) (cc : Nat) (f : CoreRegs → CoreRegs) : Prop :=
  ∀ x s1, s.carries c i = some (x, s1) → exec i s = .next (s1.finish (s1.updR c fun _ => f (s.regs c)) c i none cc)

/-- The instruction ends in cc cycles with the core's units changed as f says. -/
def Starts (s : State) (c : CoreId) (i : Instr) (cc : Nat) (f : Core → Core) : Prop :=
  ∀ x s1, s.carries c i = some (x, s1) → exec i s = .next (s1.finish (s1.updCore c f) c i none cc)

/-- The instruction completes: exec answers the next state in which it has ended, and from that state on, as soon as the core's clock
makes `due` true, the command of its unit answers the next state in which the word registers of the list hold its result. -/
def Completes (s : State) (c : CoreId) (i unit : Instr) (due : Core → Prop) (writes : List (Nat × Word)) : Prop :=
  ∀ x s1, s.carries c i = some (x, s1) → ∃ t, exec i s = .next t ∧ ∀ n,
    let t1 := t.updCore c fun k => { k with r := { k.r with cnt := { k.r.cnt with clk := n } } }
    due (t1.core c) → ∃ u, exec unit t1 = .next u ∧ ∀ w ∈ writes, Sparse.get 0 (u.regs c).w w.1 = w.2

/-- The instruction takes the entry of a synchronous exception, nothing performed. -/
def Raises (s : State) (c : CoreId) (i : Instr) (cause : Cause) (faddr : Nat) : Prop :=
  ∀ x s1, s.carries c i = some (x, s1) → exec i s = .next (s1.raise c cause faddr)

/-- Once its reads of the operands `os` have answered with characters l, the instruction leaves state `f` of the state and l. -/
def Reads (s : State) (c : CoreId) (i : Instr) (os : List Operand) (f : State → List Chr → State) : Prop :=
  ∀ x s1 x1 l, s.carries c i = some (x, s1) → s1.tryRead c x 0 os = .ok (x1, l) → exec i s = .next (f s1 l)

/-- Once its reads of the operands `os` have answered with characters l, the instruction ends in cc cycles with the registers that
f computes from l and those the core held. -/
def Loads (s : State) (c : CoreId) (i : Instr) (os : List Operand) (cc : Nat) (f : List Chr → CoreRegs → CoreRegs) : Prop :=
  ∀ x s1 x1 l, s.carries c i = some (x, s1) → s1.tryRead c x 0 os = .ok (x1, l) →
    exec i s = .next (s1.finish (s1.updR c fun _ => f l (s.regs c)) c i none cc)

/-- Once its store of the characters `data` to operand o has been taken up with state t, the instruction ends in cc cycles. -/
def Stores (s : State) (c : CoreId) (i : Instr) (o : Operand) (op : AccOp) (precise : Bool) (data : List Chr) (cc : Nat) : Prop :=
  ∀ x s1 x1 t, s.carries c i = some (x, s1) → s1.tryStore c x 0 [o] op precise data = .ok (x1, t) →
    exec i s = .next (s1.finish t c i none cc)

/-- The core and the one register that an instruction writes whose whole effect is that word. -/
def wordResult : Instr → Option (CoreId × Reg)
  | .add c d _ | .sub c d _ | .and c d _ | .or c d _ | .mov c d _ => some (c, d)
  | .ldi c d _ | .ldiL c d _ | .addi c d _ | .andi c d _ | .ori c d _ | .xori c d _ => some (c, d)
  | .add3 c d _ _ | .sub3 c d _ _ | .and3 c d _ _ | .or3 c d _ _ | .xor3 c d _ _ | .andn c d _ _ | .min c d _ _ | .max c d _ _ =>
    some (c, d)
  | .neg c d _ | .not c d _ | .popc c d _ | .clz c d _ => some (c, d)
  | .shl c d _ _ | .shrl c d _ _ | .shra c d _ _ | .rotl c d _ _ => some (c, d)
  | .ext c d _ _ _ | .ins c d _ _ _ | .cset c _ d _ _ | .cseti c _ d _ _ | .mfs c d _ | .dcmp c d _ _ => some (c, d)
  | _ => none

/-! ### The fuses -/

/-- PATCH_SVN has 64 fuses, and a burn under way burns it no lower than it stands (R471, R478, R480). -/
abbrev State.fuseInv (s : State) : Prop :=
  s.h.fuses.patchSvn ≤ 64 ∧ ∀ b, s.h.burning = some b → ∀ n, FuseField.svn n ∈ b.fields → s.h.fuses.patchSvn ≤ n ∧ n ≤ 64

/-! ### The canonical form of the memories -/

/-- A die's ledger memory, line table and queue RAM list their keys rising, and nothing equal to what an unlisted key reads as. -/
abbrev Die.memWf (e : Die) : Prop :=
  Sparse.wf 0 e.m.mem ∧ Sparse.wf LineMeta.reset e.m.info ∧ Sparse.wf 0 e.qram
/-- The same of a cluster's code store, scratch and scratch line table. -/
abbrev Cluster.memWf (k : Cluster) : Prop :=
  Sparse.wf 0 k.code ∧ Sparse.wf 0 k.scratch ∧ Sparse.wf LineMeta.reset k.scratchMeta
/-- Every memory of the package is in the canonical form: two such memories that read alike are equal data. -/
abbrev Memory.wf (s : State) : Prop := (∀ e ∈ s.u.dies, Die.memWf e.2) ∧ ∀ e ∈ s.u.clusters, Cluster.memWf e.2

end Sys2Proof.Machine
end

