-- ==== Sys2Proof/Certificates/Slice0/Obligations.lean ====
section
/-! DEFINITION. The statements for the provers, in the order of the manual's files. Each docstring names the rules that it rests
on; `Ends`, `Yields`, `Starts`, `Raises`, `Reads`, `Loads` and `Stores` (Safety) say which next state exec answers when a core carries an
instruction out. -/

section Statements
open Sys2Proof Sys2Proof.Machine

/-- A step runs the command at the front of the queue on the state with the queue's rest -/
def Obligations.StepRunsFrontCommand : Prop :=
  ∀ (i : Instr) (l : List Instr) (s : State), step { s with pending := i :: l } = exec i { s with pending := l }

/-- With no command waiting the package idles (DESIGN CHOICE, log entry 10) -/
def Obligations.StepIdlesOnEmptyQueue : Prop :=
  ∀ s : State, s.pending = [] → step s = .next s

/-- Every command has a next state in every state: none ends in a fault or a refusal -/
def Obligations.EveryCommandAnswersNextState : Prop :=
  ∀ (i : Instr) (s : State), ∃ t, exec i s = .next t

/-- A command leaves the queue of waiting commands alone -/
def Obligations.CommandsLeaveQueueAlone : Prop :=
  ∀ (i : Instr) (s t : State), exec i s = .next t → t.pending = s.pending

/-- Right after reset nothing waits, every unit is off, and the registers hold their At-reset values. The values that the
manual leaves open (the fuses as shipped, log entry 4; memory never written) are not part of it. -/
def Obligations.ResetState : Prop :=
  let s := State.reset
  s.pending = [] ∧ s.sent = [] ∧ s.msgs = [] ∧ s.accesses = [] ∧
  (∀ c, (s.core c).running = false ∧ (s.core c).halted = false ∧ (s.core c).txn = none ∧ (s.core c).alarm = none ∧
    (∀ n, (s.regs c).cap n = Cap.empty) ∧ (s.regs c).ctl.word = 0 ∧ (s.regs c).frames = [] ∧ (s.regs c).shadow = none) ∧
  (∀ d, (s.die d).fenced = false ∧ (s.die d).o.claims = [] ∧ (s.die d).m.images = [] ∧ ∀ n, (s.slot d n).st = .free) ∧
  (∀ g, (s.gate g).bank0 = [] ∧ (s.gate g).bank1 = [] ∧ (s.gate g).swapDone = true) ∧
  (∀ i, s.domain i = false) ∧ s.h.pwr.pwrOk = false ∧ s.h.pwr.st = .dawn ∧
  s.h.sd.g.st = .unset ∧ s.h.sd.g.admitOpen = false ∧ s.h.elCount = 0 ∧
  s.h.plan.eff = none ∧ s.h.plan.hp.errOff = 0xFFFFFFFF ∧ s.h.plan.hp.clampOff = 0xFFFFFFFF ∧
  s.h.host.mbx.done = true ∧ s.h.host.g.snapPeriod = 10000 ∧ s.h.host.g.evt = 0

/-- The fuse invariant and the canonical form of every memory hold right after reset. The fuses are those of a part as
shipped: DESIGN CHOICE, log entry 4. -/
def Obligations.FuseInvariantAtReset : Prop :=
  State.reset.fuseInv ∧ Memory.wf State.reset

/-- Every step keeps the fuse invariant: the anti-rollback number never passes its 64 fuses, and a burn under way only raises
it -/
def Obligations.FuseInvariantKept : Prop :=
  ∀ s t : State, s.fuseInv → step s = .next t → t.fuseInv

/-- No command unburns a fuse: enrolled keys, revocations, the signature requirement and the anti-rollback number only rise
-/
def Obligations.FusesNeverUnburn : Prop :=
  ∀ (i : Instr) (s t : State), s.fuseInv → exec i s = .next t →
    t.h.fuses.present = s.h.fuses.present ∧ t.h.fuses.serial = s.h.fuses.serial ∧ t.h.fuses.partCode = s.h.fuses.partCode ∧
    t.h.fuses.stepping = s.h.fuses.stepping ∧ t.h.fuses.romRev = s.h.fuses.romRev ∧
    s.h.fuses.patchSvn ≤ t.h.fuses.patchSvn ∧
    (s.h.fuses.valid0 = true → t.h.fuses.valid0 = true) ∧ (s.h.fuses.valid1 = true → t.h.fuses.valid1 = true) ∧
    (s.h.fuses.revoke0 = true → t.h.fuses.revoke0 = true) ∧ (s.h.fuses.revoke1 = true → t.h.fuses.revoke1 = true) ∧
    (s.h.fuses.sigRequired = true → t.h.fuses.sigRequired = true)

/-- Decoding the syllables of any well-formed core instruction gives it back, whatever follows them -/
def Obligations.EncodingRoundTrip : Prop :=
  ∀ (i : Instr) (rest : List Syll), i.wellFormed = true → encode i ≠ [] →
    (∃ c, decode c (encode i ++ rest) = some i) ∧ lengthOf (encode i ++ rest) = (encode i).length

/-- An instruction that the decoder reads is well formed, and its syllables are exactly those read: no position is ignored -/
def Obligations.DecodedInstructionsReencode : Prop :=
  ∀ (c : CoreId) (l : List Syll) (i : Instr), decode c l = some i →
    i.wellFormed = true ∧ encode i = l.take (lengthOf l) ∧ (encode i).length = lengthOf l

/-- Sample words written out from the encoding tables decode to the instructions that they stand for -/
def Obligations.DecodeSampleWords : Prop :=
  decode 0 [0b00010001100101] = some (.sub 0 3 5) ∧
  decode 0 [0b01100010100010, 0b11111111111111] = some (.addi 0 5 0x3FFF) ∧
  decode 0 [0b01100000100110, 0b00010000111111] = none ∧
  decode 0 [0b01100001110001, 0b10000000000100] = some (.ldw 0 3 (.off 4 4)) ∧
  decode 0 [0o16020, 0o00014, 0o14003] = some (.loop 0 12 3 3) ∧
  decode 0 [0b01110001000000, 0b01100000000000] = some (.dadd 0 1 2) ∧
  decode 0 [0b01110110000000, 0b00011000101001] = some (.fadd 0 3 2 true 1) ∧
  decode 0 [0b01111000000000, 0b00100010010000] = some (.cmov 0 ⟨false, 2⟩ ⟨true, 4⟩)

/-- ADD, SUB, AND, OR and MOV write Wd from Wd and Ws, in 2 cc -/
def Obligations.FormatRResults : Prop :=
  ∀ (s : State) (c : CoreId) (d a : Reg),
    Yields s c (.add c d a) 2 (fun r => r.setW d (BitVec.ofNat 36 ((r.wr d).toNat + (r.wr a).toNat))) ∧
    Yields s c (.sub c d a) 2 (fun r => r.setW d (BitVec.ofInt 36 ((r.wr d).toInt - (r.wr a).toInt))) ∧
    Yields s c (.and c d a) 2 (fun r => r.setW d (r.wr d &&& r.wr a)) ∧
    Yields s c (.or c d a) 2 (fun r => r.setW d (r.wr d ||| r.wr a)) ∧
    Yields s c (.mov c d a) 2 (fun r => r.setW d (r.wr a))

/-- The immediate instructions extend their 14 bits with the sign; LDI.L loads all 36 bits -/
def Obligations.ImmediateResults : Prop :=
  ∀ (s : State) (c : CoreId) (d : Reg) (imm : BitVec 14) (w : Word),
    Yields s c (.ldi c d imm) 2 (fun r => r.setW d (BitVec.ofInt 36 imm.toInt)) ∧
    Yields s c (.ldiL c d w) 3 (fun r => r.setW d w) ∧
    Yields s c (.addi c d imm) 2 (fun r => r.setW d (r.wr d + BitVec.ofInt 36 imm.toInt)) ∧
    Yields s c (.andi c d imm) 2 (fun r => r.setW d (r.wr d &&& BitVec.ofInt 36 imm.toInt)) ∧
    Yields s c (.ori c d imm) 2 (fun r => r.setW d (r.wr d ||| BitVec.ofInt 36 imm.toInt)) ∧
    Yields s c (.xori c d imm) 2 (fun r => r.setW d (r.wr d ^^^ BitVec.ofInt 36 imm.toInt))

/-- The three-register group of the core: sums, logic, and the signed lesser and greater, in 3 cc -/
def Obligations.ThreeRegisterResults : Prop :=
  ∀ (s : State) (c : CoreId) (d a b : Reg),
    Yields s c (.add3 c d a b) 3 (fun r => r.setW d (BitVec.ofNat 36 ((r.wr a).toNat + (r.wr b).toNat))) ∧
    Yields s c (.sub3 c d a b) 3 (fun r => r.setW d (BitVec.ofInt 36 ((r.wr a).toInt - (r.wr b).toInt))) ∧
    Yields s c (.and3 c d a b) 3 (fun r => r.setW d (r.wr a &&& r.wr b)) ∧
    Yields s c (.or3 c d a b) 3 (fun r => r.setW d (r.wr a ||| r.wr b)) ∧
    Yields s c (.xor3 c d a b) 3 (fun r => r.setW d (r.wr a ^^^ r.wr b)) ∧
    Yields s c (.andn c d a b) 3 (fun r => r.setW d (r.wr a &&& ~~~r.wr b)) ∧
    Yields s c (.min c d a b) 3 (fun r => r.setW d (if (r.wr a).toInt ≤ (r.wr b).toInt then r.wr a else r.wr b)) ∧
    Yields s c (.max c d a b) 3 (fun r => r.setW d (if (r.wr b).toInt ≤ (r.wr a).toInt then r.wr a else r.wr b))

/-- Negation, counts, shifts of any amount, bit fields and compare-set compute what their tables give -/
def Obligations.OneOperandShiftAndFieldResults : Prop :=
  ∀ (s : State) (c : CoreId) (cc : Cond) (d a b : Reg) (n : ShAmt) (p l1 : BitVec 6) (imm : BitVec 14),
    p.toNat + l1.toNat + 1 ≤ 36 →
    Yields s c (.neg c d a) 3 (fun r => r.setW d (BitVec.ofInt 36 (-(r.wr a).toInt))) ∧
    Yields s c (.not c d a) 3 (fun r => r.setW d (~~~r.wr a)) ∧
    Yields s c (.popc c d a) 3 (fun r => r.setW d (BitVec.ofNat 36 ((List.finRange 36).countP fun j => (r.wr a).getLsbD j))) ∧
    Yields s c (.clz c d a) 3 (fun r => r.setW d (BitVec.ofNat 36 (36 - Nat.size (r.wr a).toNat))) ∧
    Yields s c (.shl c d a n) 3 (fun r => r.setW d (BitVec.ofNat 36 ((r.wr a).toNat * 2 ^ ShAmt.amount r n))) ∧
    Yields s c (.shrl c d a n) 3 (fun r => r.setW d (BitVec.ofNat 36 ((r.wr a).toNat / 2 ^ ShAmt.amount r n))) ∧
    Yields s c (.shra c d a n) 3 (fun r => r.setW d (BitVec.ofInt 36 ((r.wr a).toInt / 2 ^ ShAmt.amount r n))) ∧
    Yields s c (.rotl c d a n) 3 (fun r => r.setW d ((r.wr a).rotateLeft (ShAmt.amount r n % 36))) ∧
    Yields s c (.ext c d a p l1) 4 (fun r => r.setW d
      (BitVec.ofNat 36 ((r.wr a).toNat / 2 ^ (35 - p.toNat - l1.toNat) % 2 ^ (l1.toNat + 1)))) ∧
    Yields s c (.ins c d a p l1) 4 (fun r =>
      let sh := 35 - p.toNat - l1.toNat
      let old := (r.wr d).toNat
      r.setW d (BitVec.ofNat 36 (old / 2 ^ (36 - p.toNat) * 2 ^ (36 - p.toNat) +
        (r.wr a).toNat % 2 ^ (l1.toNat + 1) * 2 ^ sh + old % 2 ^ sh))) ∧
    Yields s c (.cset c cc d a b) 3 (fun r => r.setW d (if condHolds cc (r.wr a) (r.wr b) then 1 else 0)) ∧
    Yields s c (.cseti c cc d a imm) 3 (fun r => r.setW d (if condHolds cc (r.wr a) (BitVec.ofInt 36 imm.toInt) then 1 else 0))

/-- CSET and CSETI: encoding and result under each of the twelve conditions; the codes that name none are undefined -/
def Obligations.ConditionCodes : Prop :=
  ∀ (s : State) (c : CoreId) (cc : Cond) (d x y : Reg) (imm : BitVec 14) (a b : Word) (rest : List Syll),
    let r := s.regs c
    let word2 (code : Nat) (low : Nat) : Syll := BitVec.ofNat 14 (code * 2 ^ 10 + x.val * 2 ^ 5 + low)
    let word1 (minor : Nat) : Syll := BitVec.ofNat 14 (6 * 2 ^ 10 + d.val * 2 ^ 5 + minor)
    encode (.cset c cc d x y) = [word1 11, word2 cc.code y.val] ∧
    encode (.cseti c cc d x imm) = [word1 12, word2 cc.code 0, imm] ∧
    (∀ code, 12 ≤ code → code < 16 → decode c (word1 11 :: word2 code y.val :: rest) = none) ∧
    (∀ code low, code < 16 → low < 32 → 12 ≤ code ∨ low ≠ 0 → decode c (word1 12 :: word2 code low :: imm :: rest) = none) ∧
    Yields s c (.cset c cc d x y) 3 (fun q => q.setW d (if condHolds cc (r.wr x) (r.wr y) then 1 else 0)) ∧
    Yields s c (.cseti c cc d x imm) 3 (fun q => q.setW d (if condHolds cc (r.wr x) (imm.signExtend 36) then 1 else 0)) ∧
    (condHolds .eq a b = true ↔ a = b) ∧ (condHolds .ne a b = true ↔ a ≠ b) ∧
    (condHolds .lt a b = true ↔ a.toInt < b.toInt) ∧ (condHolds .ge a b = true ↔ b.toInt ≤ a.toInt) ∧
    (condHolds .le a b = true ↔ a.toInt ≤ b.toInt) ∧ (condHolds .gt a b = true ↔ b.toInt < a.toInt) ∧
    (condHolds .ltu a b = true ↔ a.toNat < b.toNat) ∧ (condHolds .geu a b = true ↔ b.toNat ≤ a.toNat) ∧
    (condHolds .leu a b = true ↔ a.toNat ≤ b.toNat) ∧ (condHolds .gtu a b = true ↔ b.toNat < a.toNat) ∧
    (condHolds .any a b = true ↔ a &&& b ≠ 0) ∧ (condHolds .none a b = true ↔ a &&& b = 0)

/-- MUL to REMU complete: exec answers the next state, their unit holds the result that R198 gives, then writes it to Wd; or
DIVIDE_ZERO -/
def Obligations.MultiplyAndDivideStart : Prop :=
  ∀ (s : State) (c : CoreId) (d a b : Reg),
    let r := s.regs c
    let x := r.wr a
    let y := r.wr b
    let mul (v : Word) : Core → Core := fun k =>
      { k with u := { k.u with mul := k.u.mul ++ [{ dest := r.wKey d, val := v, due := k.r.cnt.clk + 6 + bit k.atLoopEnd }] } }
    let div (v : Word) : Core → Core := fun k =>
      { k with u := { k.u with div := some { dest := r.wKey d, val := v, due := k.r.cnt.clk + 41 + bit k.atLoopEnd } } }
    let writes (i : Instr) (v : Word) : Prop :=
      ((s.core c).u.mul = [] → Completes s c i (.multiplyResult c) (fun k => ∀ o ∈ k.u.mul, o.due ≤ k.r.cnt.clk) [(r.wKey d, v)])
    let writesDiv (i : Instr) (v : Word) : Prop :=
      Completes s c i (.divideResult c) (fun k => ∀ o ∈ k.u.div, o.due ≤ k.r.cnt.clk) [(r.wKey d, v)]
    (writes (.mul c d a b) (BitVec.ofInt 36 (x.toInt * y.toInt)) ∧
      writes (.mulh c d a b) (BitVec.ofInt 36 (x.toInt * y.toInt / 2 ^ 36)) ∧
      writes (.mulhu c d a b) (BitVec.ofNat 36 (x.toNat * y.toNat / 2 ^ 36)) ∧
      (y ≠ 0 →
        writesDiv (.div c d a b) (BitVec.ofInt 36 (x.toInt.tdiv y.toInt)) ∧
        writesDiv (.divu c d a b) (BitVec.ofNat 36 (x.toNat / y.toNat)) ∧
        writesDiv (.rem c d a b) (BitVec.ofInt 36 (x.toInt.tmod y.toInt)) ∧
        writesDiv (.remu c d a b) (BitVec.ofNat 36 (x.toNat % y.toNat)))) ∧
    Starts s c (.mul c d a b) 3 (mul (BitVec.ofInt 36 (x.toInt * y.toInt))) ∧
    Starts s c (.mulh c d a b) 3 (mul (BitVec.ofInt 36 (x.toInt * y.toInt / 2 ^ 36))) ∧
    Starts s c (.mulhu c d a b) 3 (mul (BitVec.ofNat 36 (x.toNat * y.toNat / 2 ^ 36))) ∧
    (y ≠ 0 →
      Starts s c (.div c d a b) 3 (div (BitVec.ofInt 36 (x.toInt.tdiv y.toInt))) ∧
      Starts s c (.divu c d a b) 3 (div (BitVec.ofNat 36 (x.toNat / y.toNat))) ∧
      Starts s c (.rem c d a b) 3 (div (BitVec.ofInt 36 (x.toInt.tmod y.toInt))) ∧
      Starts s c (.remu c d a b) 3 (div (BitVec.ofNat 36 (x.toNat % y.toNat)))) ∧
    (y = 0 →
      Raises s c (.div c d a b) .divideZero 0 ∧ Raises s c (.divu c d a b) .divideZero 0 ∧
      Raises s c (.rem c d a b) .divideZero 0 ∧ Raises s c (.remu c d a b) .divideZero 0) ∧
    BitVec.ofInt 36 ((BitVec.intMin 36).toInt.tdiv (-1)) = BitVec.intMin 36 ∧
    BitVec.ofInt 36 ((BitVec.intMin 36).toInt.tmod (-1)) = 0

/-- A unit whose result is due writes it and is free: multiply, divide, decimal and floating point -/
def Obligations.UnitResults : Prop :=
  ∀ (s : State) (c : CoreId),
    let k := s.core c
    (∀ o l, k.u.mul = o :: l → o.due ≤ k.r.cnt.clk → ∃ t, exec (.multiplyResult c) s = .next t ∧
      (t.regs c) = { k.r with w := Sparse.set 0 k.r.w o.dest o.val } ∧ (t.core c).u.mul = l ∧
      (∀ n, n ≠ c.val → t.core n = s.core n) ∧ t.h = s.h) ∧
    (∀ o, k.u.div = some o → o.due ≤ k.r.cnt.clk → ∃ t, exec (.divideResult c) s = .next t ∧
      (t.regs c) = { k.r with w := Sparse.set 0 k.r.w o.dest o.val } ∧ (t.core c).u.div = none ∧
      (∀ n, n ≠ c.val → t.core n = s.core n) ∧ t.h = s.h) ∧
    (∀ o, k.u.dec = some o → o.due ≤ k.r.cnt.clk → ∃ t, exec (.decimalUnitResult c) s = .next t ∧
      (∀ x v, o.writes = [(x, v)] → (t.regs c).d = Sparse.set 0 k.r.d x v) ∧
      (t.regs c).sp.dmode = (if o.movf then k.r.sp.dmode ||| 8 else k.r.sp.dmode) ∧ (t.core c).u.dec = none ∧
      (t.regs c).w = k.r.w ∧ (∀ n, n ≠ c.val → t.core n = s.core n)) ∧
    (∀ o, nextFp k.u.fp = some o → o.due ≤ k.r.cnt.clk → ∃ t, exec (.floatResult c) s = .next t ∧
      (∀ x v, o.writes = [(x, v)] → (t.regs c).w = Sparse.set 0 k.r.w x v) ∧
      (t.regs c).sp.fmode = fmodeFlags k.r.sp.fmode o.flags ∧ (t.core c).u.fp = k.u.fp.erase o ∧
      (o.traps = false → (t.core c).u.trap = k.u.trap ∧ (t.core c).u.ftPend = k.u.ftPend) ∧
      (o.traps = true → (Sparse.get 0 k.u.trap 0).msb = false →
        (t.core c).u.trap = Sparse.setList 0 [] 0 o.record ∧ (t.core c).u.ftPend = true) ∧
      (o.traps = true → (Sparse.get 0 k.u.trap 0).msb = true →
        Sparse.get 0 (t.core c).u.trap 0 = Sparse.get 0 k.u.trap 0 ||| 2 ^ 34 ∧ (t.core c).u.ftPend = k.u.ftPend) ∧
      (t.regs c).d = k.r.d ∧ (∀ n, n ≠ c.val → t.core n = s.core n))

/-- The end of an instruction: loop test, shadow, cycle count and next address; nothing else of the package changes -/
def Obligations.InstructionEndFrame : Prop :=
  ∀ (s0 s : State) (c : CoreId) (i : Instr) (next : Option Nat) (cc : Nat),
    let t := s0.finish s c i next cc
    let k0 := s0.core c
    let k := s.core c
    let m := t.core c
    let kept := writesLcount i = true
    let atEnd := next = none ∧ k0.r.ctl.lact = true ∧ k0.r.sp.lend.toNat % 2 ^ 18 = k0.pc ∧ k.r.ctl.lact = true
    (t.pending = s.pending ∧ t.h = s.h ∧ t.accesses = s.accesses ∧ t.msgs = s.msgs ∧ t.sent = s.sent ∧ t.free = s.free ∧
      t.u.clusters = s.u.clusters ∧ t.u.dies = s.u.dies ∧ t.u.gates = s.u.gates ∧ t.u.ports = s.u.ports ∧
      t.u.parts = s.u.parts ∧ ∀ n, n ≠ c.val → t.core n = s.core n) ∧
    (m.r.w = k.r.w ∧ m.r.d = k.r.d ∧ m.r.k = k.r.k ∧ m.r.frames = k.r.frames ∧ m.u = k.u ∧ m.txn = k.txn ∧
      m.alarm = k.alarm ∧ m.tlb = k.tlb ∧ m.tvPend = k.tvPend ∧ m.running = k.running ∧ m.halted = k.halted ∧
      m.haltRec = k.haltRec ∧ m.cur = none ∧
      m.r.sp = { k.r.sp with lcount := m.r.sp.lcount } ∧ m.r.ctl = { k.r.ctl with lact := m.r.ctl.lact }) ∧
    (∀ a, next = some a → m.pc = a ∧ m.r.sp.lcount = k.r.sp.lcount ∧ m.r.ctl.lact = k.r.ctl.lact ∧
      m.r.cnt.cycles = k.r.cnt.cycles + BitVec.ofNat 36 cc) ∧
    (next = none → ¬ atEnd → m.pc = k.pc + (encode i).length ∧ m.r.sp.lcount = k.r.sp.lcount ∧ m.r.ctl.lact = k.r.ctl.lact ∧
      m.r.cnt.cycles = k.r.cnt.cycles + BitVec.ofNat 36 cc) ∧
    (atEnd → 1 < k0.r.sp.lcount.toNat → m.pc = k0.r.sp.lstart.toNat % 2 ^ 18 ∧
      (kept → m.r.sp.lcount = k.r.sp.lcount) ∧ (¬ kept → m.r.sp.lcount = k0.r.sp.lcount - 1) ∧
      m.r.ctl.lact = true ∧ m.r.cnt.cycles = k.r.cnt.cycles + BitVec.ofNat 36 (cc + 1)) ∧
    (atEnd → ¬ 1 < k0.r.sp.lcount.toNat → m.pc = k.pc + (encode i).length ∧
      (kept → m.r.sp.lcount = k.r.sp.lcount) ∧ (¬ kept → m.r.sp.lcount = 0) ∧ m.r.ctl.lact = false ∧
      m.r.cnt.cycles = k.r.cnt.cycles + BitVec.ofNat 36 (cc + 1)) ∧
    (∀ h, (s0.core c).r.shadow = some h →
      m.r.shadow = if h.left ≤ 1 then none else some { h with left := h.left - 1 }) ∧
    ((s0.core c).r.shadow = none → m.r.shadow = k.r.shadow)

/-- An instruction that writes one word register changes no other register of its core, no other core and no memory -/
def Obligations.RegisterInstructionFrame : Prop :=
  ∀ (s : State) (c : CoreId) (i : Instr) (d : Reg), wordResult i = some (c, d) →
    ∀ x s1, s.carries c i = some (x, s1) → ∃ t v, exec i s = .next t ∧ (t.regs c).wr d = v ∧
      (∀ n, n ≠ d → (t.regs c).wr n = (s.regs c).wr n) ∧ (t.regs c).d = (s.regs c).d ∧ (t.regs c).k = (s.regs c).k ∧
      (t.regs c).frames = (s.regs c).frames ∧
      (t.regs c).sp = { (s.regs c).sp with lcount := (t.regs c).sp.lcount } ∧
      (t.regs c).ctl = { (s.regs c).ctl with lact := (t.regs c).ctl.lact } ∧
      (∀ n, n ≠ c.val → t.core n = s.core n) ∧
      (∀ e a, Sparse.get 0 (t.die e).m.mem a = Sparse.get 0 (s.die e).m.mem a) ∧
      (∀ e a, Sparse.get 0 (t.die e).qram a = Sparse.get 0 (s.die e).qram a) ∧
      (∀ e a, Sparse.get 0 (t.cluster e).scratch a = Sparse.get 0 (s.cluster e).scratch a) ∧
      (∀ e a, Sparse.get 0 (t.cluster e).code a = Sparse.get 0 (s.cluster e).code a)

/-- CMPB, BR, BR.L and JR go to their targets; a CMPB whose condition fails goes on in sequence, in the same 5 cc -/
def Obligations.BranchTargets : Prop :=
  ∀ (s : State) (c : CoreId) (cc : Cond) (a b : Reg) (v : BitVec 9) (disp : BitVec 14) (t : BitVec 18),
    let r := s.regs c
    let at_ := ((((s.core c).pc : Int) + disp.toInt) % 262144).toNat
    Ends s c (.cmpb c cc a (.reg b) disp) 5 (if condHolds cc (r.wr a) (r.wr b) then some at_ else none) (fun x => x) ∧
    Ends s c (.cmpb c cc a (.imm v) disp) 5 (if condHolds cc (r.wr a) (BitVec.ofInt 36 v.toInt) then some at_ else none)
      (fun x => x) ∧
    Ends s c (.br c disp) 3 (some at_) (fun x => x) ∧
    Ends s c (.brL c t) 3 (some t.toNat) (fun x => x) ∧
    Ends s c (.jr c a) 3 (some ((r.wr a).toNat % 2 ^ 18)) (fun x => x)

/-- MFS reads, and MTS writes, each special register: reserved fields ignore the write, a mode register starts a shadow -/
def Obligations.SpecialRegisterAccess : Prop :=
  ∀ (s : State) (c : CoreId) (d a : Reg) (n : BitVec 6), n.toNat ≤ 25 →
    Ends s c (.mfs c d n) 3 none (fun t => t.updR c fun r => r.setW d (t.special c n.toNat)) ∧
    (let v := (s.regs c).wr a
     let w (f : CoreRegs → CoreRegs) : Prop := Yields s c (.mts c n a) 3 f
     (n = 0 → w fun r => { r with sp := { r.sp with cause := v &&& ~~~0x1FFFFC0#36 } }) ∧
     (n = 1 → w fun r => { r with sp := { r.sp with epc := v &&& 0x3FFFF } }) ∧
     (n = 2 → w fun r => { r with sp := { r.sp with faddr := v } }) ∧
     (n = 3 → w fun r => { r with sp := { r.sp with savemode := v &&& ~~~0x3FF000000#36 } }) ∧
     (n = 4 → w fun r => { r with sp := { r.sp with cause1 := v &&& ~~~0x1FFFFC0#36 } }) ∧
     (n = 5 → w fun r => { r with sp := { r.sp with epc1 := v &&& 0x3FFFF } }) ∧
     (n = 6 → w fun r => { r with sp := { r.sp with savemode1 := v &&& ~~~0x3FF000000#36 } }) ∧
     (n = 7 → w fun r => { r with sp := { r.sp with excEntry := v &&& 0x3FFFF } }) ∧
     (n = 8 → w fun r => { r with
        sp := { r.sp with dmode := dmodeWrite v }
        shadow := some { left := 2, which := 0, old := r.sp.dmode, oldKc := Cap.empty } }) ∧
     (n = 9 → w fun r => { r with
        sp := { r.sp with fmode := fmodeWrite v }
        shadow := some { left := 2, which := 1, old := r.sp.fmode, oldKc := Cap.empty } }) ∧
     (n = 10 → w fun r => { r with
        ctl := { r.ctl with lben := v.getLsbD 0 }
        shadow := some { left := 2, which := 2, old := r.ctl.word, oldKc := Cap.empty } }) ∧
     (n = 11 → w fun r => { r with sp := { r.sp with lstart := v &&& 0x3FFFF } }) ∧
     (n = 12 → w fun r => { r with sp := { r.sp with lend := v &&& 0x3FFFF } }) ∧
     (n = 13 → w fun r => { r with sp := { r.sp with lcount := v } }) ∧
     (n = 15 → w fun r => { r with sp := { r.sp with fsmem0 := v } }) ∧
     (n = 16 → w fun r => { r with sp := { r.sp with fsdepth0 := v } }) ∧
     (n = 17 → w fun r => { r with sp := { r.sp with fsmem1 := v } }) ∧
     (n = 18 → w fun r => { r with sp := { r.sp with fsdepth1 := v } }) ∧
     (n = 20 → ∀ x s1, s.carries c (.mts c n a) = some (x, s1) → s1.queueHolds c = false → exec (.mts c n a) s =
        .next (s1.finish (s1.updR c fun r => { r with sp := { r.sp with ipend := r.sp.ipend &&& ~~~v } }) c (.mts c n a) none 3)) ∧
     (n = 19 → w fun r => { r with sp := { r.sp with ien := v &&& 31 } }) ∧
     (n = 14 ∨ 21 ≤ n.toNat → w fun r => r))

/-- Calls push the masked registers and the return address; RET restores them and goes back; a full or empty area traps -/
def Obligations.CallAndReturn : Prop :=
  ∀ (s : State) (c : CoreId) (a f l : Reg) (t : BitVec 18) (m : BitVec 32),
    let r := s.regs c
    let k := s.core c
    let size (m : BitVec 32) := (maskRegs m).length + 2
    let pushed (m : BitVec 32) (len : Nat) (x : State) : State := x.updR c fun r =>
      { r with frames := r.frames ++
        [{ set := r.ctl.exl, ra := BitVec.ofNat 18 (k.pc + len), mask := m, regs := (maskRegs m).map r.wr }] }
    (k.r.fsp + size m ≤ 64 → Ends s c (.call c t m) (6 + size m) (some t.toNat) (pushed m 5)) ∧
    (let m := rangeMask f l
     k.r.fsp + size m ≤ 64 →
       Ends s c (.callS c t f l) (6 + size m) (some t.toNat) (pushed m 3) ∧
       Ends s c (.callr c a f l) (6 + size m) (some ((r.wr a).toNat % 2 ^ 18)) (pushed m 2)) ∧
    (64 < k.r.fsp + size m → ∀ x s1, s.carries c (.call c t m) = some (x, s1) →
      exec (.call c t m) s = .next (s1.trap c .frameOverflow (size m))) ∧
    (∀ g, r.frames.getLast? = some g → g.set = r.ctl.exl → g.regs.length = (maskRegs g.mask).length →
      Ends s c (.ret c) (8 + g.regs.length) (some g.ra.toNat) fun x => x.updR c fun r =>
        { ((maskRegs g.mask).zip g.regs).foldl (fun y e => y.setW e.1 e.2) r with
            frames := r.frames.dropLast }) ∧
    (r.frames = [] → r.fsdepth r.ctl.exl = 0 → Raises s c (.ret c) .frameEmpty 0) ∧
    (r.frames = [] → r.fsdepth r.ctl.exl ≠ 0 → ∀ x s1, s.carries c (.ret c) = some (x, s1) →
      exec (.ret c) s = .next (s1.trap c .frameUnderflow 0))

/-- FSPILL stores the oldest frame and FFILL brings one back, with their pointer and depth; each completes -/
def Obligations.SpillAndFill : Prop :=
  ∀ (s : State) (c : CoreId),
    let r := s.regs c
    (∀ g rest x s1 x1 t, s.carries c (.fspill c) = some (x, s1) → r.frames = g :: rest → (r.fsmem g.set).toNat % 4 = 0 →
      s1.tryStore c x 0
        (wordOperands (r.cap (if g.set = r.ctl.exl then 7 else 23))
          ((r.cap (if g.set = r.ctl.exl then 7 else 23)).base + (r.fsmem g.set).toNat) (g.regs.length + 2) .store)
        .write false (g.words.flatMap Word.chars) = .ok (x1, t) →
      exec (.fspill c) s = .next (s1.finish (t.updR c fun q =>
        { q.setSpill g.set (r.fsmem g.set + BitVec.ofNat 36 (4 * (g.regs.length + 2))) (r.fsdepth g.set + 1) with
          frames := q.frames.drop 1 }) c (.fspill c) none (4 + (g.regs.length + 2)))) ∧
    (r.frames = [] → Raises s c (.fspill c) .illegal 0) ∧
    (r.fsdepth r.ctl.exl = 0 → Raises s c (.ffill c) .illegal 0) ∧
    (let m := r.fsmem r.ctl.exl
     let e := (r.cap 7).base + m.toNat
     let area (n : Nat) : List Operand := wordOperands (r.cap 7) (e - 4 * n) n .load
     ∀ x s1 x1 x2 h l, s.carries c (.ffill c) = some (x, s1) → r.fsdepth r.ctl.exl ≠ 0 → m.toNat % 4 = 0 → 4 ≤ e →
      s1.tryRead c x 0 (area 1) = .ok (x1, h) →
      let size := (BitVec'.pos (Word.ofChars h) 0 6).toNat + 2
      r.fsp + size ≤ 64 → 4 * size ≤ e → s1.tryRead c x1 1 (area size) = .ok (x2, l) →
      exec (.ffill c) s = .next (s1.finish (s1.updR c fun q =>
        { q.setSpill r.ctl.exl (m - BitVec.ofNat 36 (4 * size)) (r.fsdepth r.ctl.exl - 1) with
          frames := placeFrame r.ctl.exl (frameOfWords (wordsOfChars l)) q.frames }) c (.ffill c) none (6 + size)))

/-- LOOP and LOOPR set LSTART, LEND, LCOUNT and LACT, or pass over the body for a count of 0; LOOP.OFF ends a loop -/
def Obligations.HardwareLoopStart : Prop :=
  ∀ (s : State) (c : CoreId) (a : Reg) (n : BitVec 14) (lam : BitVec 3) (b : BitVec 11),
    let r := s.regs c
    let set (start count : Nat) (x : CoreRegs) : CoreRegs := { x with
      sp := { x.sp with lstart := BitVec.ofNat 36 (start % 2 ^ 18), lcount := BitVec.ofNat 36 count,
                        lend := BitVec.ofNat 36 ((start + b.toNat - lam.toNat) % 2 ^ 18) },
      ctl := { x.ctl with lact := true } }
    let start := (s.core c).pc + 3
    let startR := (s.core c).pc + 2
    (r.ctl.lact = true ∨ lam = 0 ∨ 6 < lam.toNat ∨ b.toNat < lam.toNat →
      Raises s c (.loop c n lam b) .loopState 0 ∧ Raises s c (.loopr c a lam b) .loopState 0) ∧
    (r.ctl.lact = false → lam ≠ 0 → lam.toNat ≤ 6 → lam.toNat ≤ b.toNat →
      (n = 0 → Ends s c (.loop c n lam b) 4 (some ((start + b.toNat) % 2 ^ 18)) fun x => x) ∧
      (n ≠ 0 → Yields s c (.loop c n lam b) 4 (set start n.toNat)) ∧
      (r.wr a = 0 → Ends s c (.loopr c a lam b) 4 (some ((startR + b.toNat) % 2 ^ 18)) fun x => x) ∧
      (r.wr a ≠ 0 → Yields s c (.loopr c a lam b) 4 (set startR (r.wr a).toNat))) ∧
    Starts s c (.loopOff c) 2 fun k => { k with
      loopBuf := [], bufStale := false,
      r := { k.r with sp := { k.r.sp with lcount := 0 }, ctl := { k.r.ctl with lact := false } } }

/-- NOP, the barriers, ALARM, DOORBELL, CODE.WR, FREC and FCLRT complete with their effects -/
def Obligations.BarriersAndControl : Prop :=
  ∀ (s : State) (c : CoreId) (a b d : Reg) (mask : BitVec 8) (n : BitVec 3),
    let r := s.regs c
    Yields s c (.nop c) 1 (fun r => r) ∧
    Ends s c (.isync c) 4 none (fun t => t.updCore c fun k =>
      { k with loopBuf := [], bufStale := false, fetchQ := t.fetchRun (coreCluster c) [] k.pc 7 }) ∧
    ((∀ e ∈ s.accesses, e.core = c → e.posted = false) → Ends s c (.msync c) 2 none fun t => t) ∧
    ((s.core c).u.fp = [] → Starts s c (.fsync c) 2 (fun k => k) ∧
      Starts s c (.frec c d n) 3 (fun k => k.updR fun r => r.setW d (Sparse.get 0 k.u.trap n.toNat)) ∧
      Starts s c (.fclrt c) 2 (fun k => { k with u := { k.u with trap := [] } })) ∧
    Starts s c (.alarm c a) 3 (fun k => { k with alarm := some (r.wr a), alarmTick := some (s.die (coreDie c)).o.tick }) ∧
    Starts s c (.alarmOff c) 2 (fun k => { k with alarm := none }) ∧
    Ends s c (.doorbell c mask) 3 none (fun t =>
      iter 8 (fun j x =>
        let n := 8 * coreCluster c + j
        let first := j = coreIndex c ∧ BitVec'.at' (x.regs n).sp.ipend 35 = false
        if mask.getLsbD (7 - j) then
          (if first then x.updCore n fun k => { k with bell := true } else x).interrupt n .doorbell
        else x) t) ∧
    (let at_ := r.govKc.base + (r.wr a).toNat
     (r.govKc.write = true → r.govKc.covers at_ 1 = true → at_ < 262144 →
        Ends s c (.codeWr c a b) 4 none fun t => t.writeCode (coreCluster c) at_ ((r.wr b).truncate 14)) ∧
     (r.govKc.write = false → Raises s c (.codeWr c a b) .capRights at_) ∧
     (r.govKc.write = true → r.govKc.covers at_ 1 = false → Raises s c (.codeWr c a b) .capBounds at_) ∧
     (r.govKc.write = true → r.govKc.covers at_ 1 = true → 262144 ≤ at_ → Raises s c (.codeWr c a b) .codeRange at_))

/-- BREAK faults with BREAK after its 2 cc, whatever its code; syllables that no encoding matches fault with ILLEGAL -/
def Obligations.BreakAndUndefinedEncodings : Prop :=
  ∀ (s : State) (c : CoreId) (code : BitVec 14),
    (∀ x s1, s.carries c (.break_ c code) = some (x, s1) →
      exec (.break_ c code) s = .next ((s1.updCore c fun k => k.count (·.addCycles 2)).raise c .break_ 0)) ∧
    (let k := s.core c
     let held := k.fetchQ ++ s.fetchRun (coreCluster c) k.loopBuf (k.pc + k.fetchQ.length) (6 - k.fetchQ.length)
     k.live = true → k.regBad = false → k.cur = none → k.takeable = none → decode c held = none →
     lengthOf held ≤ held.length → s.fetchIs c (held.take (lengthOf held)) = .ready →
     exec (.undefinedEncoding c) s = .next ((s.rung c).raise c .illegal 0))

/-- ERET and PRET leave their level, restore LACT, SRES and the shadow, and go on at EPC or EPC1; elsewhere they are ILLEGAL
-/
def Obligations.ReturnsFromEntries : Prop :=
  ∀ (s : State) (c : CoreId),
    let r := s.regs c
    (r.ctl.exl = true → r.ctl.bk1 = false → (∀ f ∈ r.frames, f.set = false) → r.sp.fsdepth1 = 0 →
      Ends s c (.eret c) 8 (some (r.sp.epc.toNat % 2 ^ 18)) fun t => t.updR c fun _ => ({ r with
        ctl := { r.ctl with exl := false, lact := BitVec'.at' r.sp.cause 8, sres := BitVec'.at' r.sp.cause 9 },
        shadow := shadowOf r.sp.cause r.sp.savemode (r.cap 10) } : CoreRegs).swapSets) ∧
    (r.ctl.exl = false ∨ r.ctl.bk1 = true → Raises s c (.eret c) .illegal 0) ∧
    (r.ctl.bk1 = true → Ends s c (.pret c) 6 (some (r.sp.epc1.toNat % 2 ^ 18)) fun t => t.updR c fun _ => { r with
      ctl := { r.ctl with bk1 := false, lact := BitVec'.at' r.sp.cause1 8, sres := BitVec'.at' r.sp.cause1 9 },
      shadow := shadowOf r.sp.cause1 r.sp.savemode1 (r.cap 11) }) ∧
    (r.ctl.bk1 = false → Raises s c (.pret c) .illegal 0) ∧
    (∀ n < 10, r.swapSets.cap n = r.cap (16 + n) ∧ r.swapSets.cap (16 + n) = r.cap n) ∧
    r.swapSets.cap 10 = r.cap 10 ∧ r.swapSets.cap 11 = r.cap 11

/-- An entry saves cause, address and shadow and goes to EXC_ENTRY at its level; an entry that no level can take is a
CATACLYSM -/
def Obligations.ExceptionEntries : Prop :=
  ∀ (s : State) (c : CoreId) (cause : Cause) (epc faddr need : Nat) (async : Bool),
    let r := s.regs c
    (let t := s.levelZero c cause epc faddr async
     let q := t.regs c
     q.sp.cause = r.causeWord cause async 0 ∧ q.sp.epc = BitVec.ofNat 36 (epc % 2 ^ 18) ∧ q.sp.faddr = BitVec.ofNat 36 faddr ∧
     q.ctl = { r.ctl with lact := false, sres := false, exl := true } ∧ q.shadow = none ∧
     (∀ n < 10, q.cap n = r.cap (16 + n) ∧ q.cap (16 + n) = r.cap n) ∧
     (∀ h, r.shadow = some h → q.sp.savemode = h.record ∧ (h.which = 3 → q.cap 10 = h.oldKc)) ∧
     (r.shadow = none → q.sp.savemode = r.sp.savemode ∧ q.cap 10 = r.cap 10) ∧
     (t.core c).pc = r.sp.excEntry.toNat % 2 ^ 18 ∧ q.cnt.cycles = r.cnt.cycles + 12 ∧
     q.w = r.w ∧ q.d = r.d ∧ q.frames = r.frames ∧ q.sp.cause1 = r.sp.cause1 ∧ q.sp.epc1 = r.sp.epc1 ∧
     (∀ n, n ≠ c.val → t.core n = s.core n) ∧ t.h = s.h ∧ t.u.dies = s.u.dies ∧ t.u.clusters = s.u.clusters) ∧
    (let t := s.levelOne c cause epc async need
     let q := t.regs c
     q.sp.cause1 = r.causeWord cause async need ∧ q.sp.epc1 = BitVec.ofNat 36 (epc % 2 ^ 18) ∧
     q.ctl = { r.ctl with lact := false, sres := false, bk1 := true } ∧ q.shadow = none ∧
     (∀ n, n ≠ 11 → q.cap n = r.cap n) ∧
     (∀ h, r.shadow = some h → q.sp.savemode1 = h.record ∧ (h.which = 3 → q.cap 11 = h.oldKc)) ∧
     (t.core c).pc = r.sp.excEntry.toNat % 2 ^ 18 ∧ q.cnt.cycles = r.cnt.cycles + 12 ∧
     q.w = r.w ∧ q.d = r.d ∧ q.frames = r.frames ∧ q.sp.cause = r.sp.cause ∧ q.sp.epc = r.sp.epc ∧ q.sp.faddr = r.sp.faddr ∧
     (∀ n, n ≠ c.val → t.core n = s.core n) ∧ t.h = s.h ∧ t.u.dies = s.u.dies ∧ t.u.clusters = s.u.clusters) ∧
    (r.ctl.bk1 = false → r.ctl.exl = false → s.raise c cause faddr = s.levelZero c cause (s.core c).pc faddr false) ∧
    (r.ctl.bk1 = false → r.ctl.exl = true → s.raise c cause faddr = s.cataclysm c 3 cause.code) ∧
    (r.ctl.bk1 = true → s.raise c cause faddr = s.cataclysm c 2 cause.code ∧ s.trap c cause need = s.cataclysm c 1 cause.code) ∧
    (r.ctl.bk1 = false → s.trap c cause need = s.levelOne c cause (s.core c).pc false need) ∧
    (∀ reason, reason < 4 → let t := s.cataclysm c reason cause.code
      (t.core c).halted = true ∧ (t.core c).txn = none ∧ (t.regs c).sp = r.sp ∧
      (t.core c).haltRec = BitVec.ofNat 36 ((2 ^ 3 + reason) * 2 ^ 32 + cause.code * 2 ^ 26 + (s.core c).pc % 2 ^ 18) ∧
      t.h.elCount = s.h.elCount + 1)

/-- INTERRUPT_TAKE enters for the first item that can be taken, at a boundary or from a wait that it may abandon -/
def Obligations.InterruptTaken : Prop :=
  ∀ (s : State) (c : CoreId) (i : Item),
    let k := s.core c
    k.live = true → k.takeable = some i →
    (k.cur = none → exec (.interruptTake c) s = .next ((s.takeItem c i).rung c)) ∧
    (∀ x, k.cur = some x → x.retrying = true → x.soft = true → x.begun = false →
      exec (.interruptTake c) s = .next (((s.updCore c fun k => { k with cur := none }).takeItem c i).rung c)) ∧
    (∃ l r, [Item.aborted, .alarm, .target, .float, .hub, .queue, .doorbell] = l ++ i :: r ∧ k.canTake i = true ∧
      ∀ j ∈ l, k.canTake j = false) ∧
    (k.bell = true → i ≠ .doorbell) ∧
    (i = .alarm ∨ i = .aborted → (((s.takeItem c i).regs c).ctl.bk1 = true ∧
      ((s.takeItem c i).regs c).sp.ipend = BitVec'.setAt k.r.sp.ipend i.position false)) ∧
    (i = .hub ∨ i = .doorbell → (((s.takeItem c i).regs c).ctl.exl = true ∧
      ((s.takeItem c i).regs c).sp.ipend = BitVec'.setAt k.r.sp.ipend i.position false)) ∧
    (i = .target → ((s.takeItem c i).core c).tvPend = none) ∧ (i = .float → ((s.takeItem c i).core c).u.ftPend = false)

/-- LDC, LDW, LDP and MAC end with the registers that the characters read give; an unaligned LDW is split and takes 2 cc more
-/
def Obligations.LoadsComplete : Prop :=
  ∀ (s : State) (c : CoreId) (d a i j : Reg) (t : Tail) (kb kc : KReg) (sa sb : BitVec 6),
    let r := s.regs c
    let o (n align : Nat) := Tail.operand r t n align .load
    let op (k : KReg) (x : Reg) : Operand :=
      { cap := r.cap k.val, va := (r.cap k.val).base + (r.wr x).toNat, len := 4, align := 4, need := .load }
    Loads s c (.ldc c d t) [o 1 1] (3 + Tail.cc t) (fun l q => q.setW d (BitVec.ofNat 36 (l.headD 0).toNat)) ∧
    Loads s c (.ldw c d t) [o 4 1] (3 + Tail.cc t + if Tail.va r t % 4 = 0 then 0 else 2) (fun l q => q.setW d (Word.ofChars l)) ∧
    Loads s c (.ldp c d t) [o 8 4] (4 + Tail.cc t)
      (fun l q => (q.setW d (Word.ofChars l)).setW (Reg.next d) (Word.ofChars (l.drop 4))) ∧
    Loads s c (.mac c a kb i kc j sa sb) [op kb i, op kc j] 6 (fun l q =>
      let q1 := q.setPair a (BitVec.ofInt 72 ((q.pair a).toInt + (Word.ofChars l).toInt * (Word.ofChars (l.drop 4)).toInt))
      let q2 := q1.setW i (BitVec.ofInt 36 ((q1.wr i).toInt + 4 * sa.toInt))
      q2.setW j (BitVec.ofInt 36 ((q2.wr j).toInt + 4 * sb.toInt))) ∧
    (∀ x y z w : Chr, Word.ofChars [x, y, z, w] = x ++ y ++ z ++ w)

/-- STC, STW and STP store the low character, the word and the pair; a split STW and STP are precise stores -/
def Obligations.StoresComplete : Prop :=
  ∀ (s : State) (c : CoreId) (a : Reg) (t : Tail),
    let r := s.regs c
    let o (n align : Nat) := Tail.operand r t n align .store
    let split := decide (Tail.va r t % 4 ≠ 0)
    Stores s c (.stc c a t) (o 1 1) .write false [(r.wr a).truncate 9] (3 + Tail.cc t) ∧
    Stores s c (.stw c a t) (o 4 1) .write split (r.wr a).chars (3 + Tail.cc t + if split then 2 else 0) ∧
    Stores s c (.stp c a t) (o 8 4) .write true ((r.wr a).chars ++ (r.wr (Reg.next a)).chars) (4 + Tail.cc t) ∧
    (∀ w : Word, Word.ofChars w.chars = w)

/-- An operand in scratch that meets its checks is read and stored at once: its own characters, and no other character
anywhere -/
def Obligations.ScratchAccess : Prop :=
  ∀ (s : State) (c : CoreId) (x : Cur) (o : Operand) (data : List Chr),
    let cl := coreCluster c
    let at_ := o.va - scratchBase
    x.rounds = [] → scratchBase ≤ o.va → 0 < o.len → at_ + o.len ≤ 262144 → (o.align ≤ 1 ∨ o.va % o.align = 0) →
    o.cap.covers o.va o.len = true →
    (∀ line, at_ / 64 ≤ line → line ≤ (at_ + o.len - 1) / 64 →
      (s.scratchInfo cl line).poison = false ∧ (s.scratchInfo cl line).capline = false ∧ line ∉ (s.cluster cl).scratchBad ∧
      ∀ e ∈ (s.cluster cl).scratchCe, e.1 ≠ line) →
    (o.need = .load → o.cap.read = true →
      ∃ x1, s.tryRead c x 0 [o] = .ok (x1, Sparse.getList 0 (s.cluster cl).scratch at_ o.len)) ∧
    (o.need = .store → o.cap.write = true → data.length = o.len → ∀ precise, ∃ x1 t,
      s.tryStore c x 0 [o] .write precise data = .ok (x1, t) ∧
      (∀ j < o.len, Sparse.get 0 (t.cluster cl).scratch (at_ + j) = data.getD j 0) ∧
      (∀ e a, (e ≠ cl ∨ a < at_ ∨ at_ + o.len ≤ a) → Sparse.get 0 (t.cluster e).scratch a = Sparse.get 0 (s.cluster e).scratch a) ∧
      (∀ n, t.core n = s.core n) ∧ t.u.dies = s.u.dies ∧ t.accesses = s.accesses ∧ t.h = s.h)

/-- DADD, DSUB, DCMP, DMOV, DNEG, DABS, DCLR, DSHL and the binary conversions: encoding, cycles, result and overflow -/
def Obligations.DecimalRegisterArithmetic : Prop :=
  ∀ (s : State) (c : CoreId) (x y : DReg) (a d : Reg) (n : BitVec 6),
    let r := s.regs c
    let dx : Syll := BitVec.ofNat 14 (x.val * 2 ^ 12)
    let dy : Syll := BitVec.ofNat 14 (y.val * 2 ^ 10)
    let w (a : Reg) : Syll := BitVec.ofNat 14 (a.val * 2 ^ 3)
    let op (minor : Nat) : Syll := BitVec.ofNat 14 (0o16000 + minor)
    let tooLarge (v : Int) : Prop := 10 ^ 62 ≤ v.natAbs
    (encode (.dadd c x y) = [op 64, dx ||| dy] ∧ encode (.dsub c x y) = [op 65, dx ||| dy] ∧
      encode (.dcmp c d x y) = [op 66, dx ||| dy ||| w d] ∧ encode (.dmov c x y) = [op 67, dx ||| dy] ∧
      encode (.dneg c x) = [op 68, dx] ∧ encode (.dabs c x) = [op 69, dx] ∧ encode (.dclr c x) = [op 70, dx] ∧
      encode (.dshl c x n) = [op 71, dx ||| BitVec.ofNat 14 (n.toNat * 2 ^ 6)] ∧
      encode (.cvbd c x a) = [op 76, dx ||| w a] ∧ encode (.cvbdL c x a) = [op 77, dx ||| w a] ∧
      encode (.cvdb c d x) = [op 78, dx ||| w d] ∧ encode (.cvdbL c d x) = [op 79, dx ||| w d]) ∧
    (¬ tooLarge (r.dr x + r.dr y) → Yields s c (.dadd c x y) 4 fun q => q.setD x (r.dr x + r.dr y)) ∧
    (tooLarge (r.dr x + r.dr y) → Raises s c (.dadd c x y) .decimalOverflow 0) ∧
    (¬ tooLarge (r.dr x - r.dr y) → Yields s c (.dsub c x y) 4 fun q => q.setD x (r.dr x - r.dr y)) ∧
    (tooLarge (r.dr x - r.dr y) → Raises s c (.dsub c x y) .decimalOverflow 0) ∧
    Yields s c (.dcmp c d x y) 3 (fun q => q.setW d
      (if r.dr x < r.dr y then 0o777777777777 else if r.dr x = r.dr y then 0 else 1)) ∧
    Yields s c (.dmov c x y) 2 (fun q => q.setD x (r.dr y)) ∧
    Yields s c (.dneg c x) 2 (fun q => q.setD x (-r.dr x)) ∧
    Yields s c (.dabs c x) 2 (fun q => q.setD x (if r.dr x < 0 then -r.dr x else r.dr x)) ∧
    Yields s c (.dclr c x) 2 (fun q => q.setD x 0) ∧
    (¬ tooLarge (r.dr x * 10 ^ n.toNat) → Yields s c (.dshl c x n) 3 fun q => q.setD x (r.dr x * 10 ^ n.toNat)) ∧
    (tooLarge (r.dr x * 10 ^ n.toNat) → Raises s c (.dshl c x n) .decimalOverflow 0) ∧
    Yields s c (.cvbd c x a) 24 (fun q => q.setD x (r.wr a).toInt) ∧
    Yields s c (.cvbdL c x a) 40 (fun q => q.setD x (r.wr a ++ r.wr (Reg.next a) : BitVec 72).toInt) ∧
    (-2 ^ 35 ≤ r.dr x → r.dr x < 2 ^ 35 → Yields s c (.cvdb c d x) 20 fun q => q.setW d (BitVec.ofInt 36 (r.dr x))) ∧
    (r.dr x < -2 ^ 35 ∨ 2 ^ 35 ≤ r.dr x → Raises s c (.cvdb c d x) .decimalOverflow 0) ∧
    (-2 ^ 71 ≤ r.dr x → r.dr x < 2 ^ 71 → Yields s c (.cvdbL c d x) 36 fun q =>
      (q.setW d (BitVec.ofInt 36 (r.dr x / 2 ^ 36))).setW (Reg.next d) (BitVec.ofInt 36 (r.dr x))) ∧
    (r.dr x < -2 ^ 71 ∨ 2 ^ 71 ≤ r.dr x → Raises s c (.cvdbL c d x) .decimalOverflow 0)

/-- DRND rounds as its mode says; DMUL, DMULW and DDIV start the unit with exact products and quotients; a zero divisor
faults -/
def Obligations.DecimalUnitStarts : Prop :=
  ∀ (s : State) (c : CoreId) (x y z : DReg) (n : BitVec 6) (rm : BitVec 3),
    let r := s.regs c
    let p := r.dr x * r.dr y
    let start (lat : Nat) (writes : List (Nat × Int)) (movf : Bool) : Core → Core := fun k =>
      { k with u := { k.u with dec := some { writes := writes, movf := movf, due := r.cnt.clk + 3 + bit k.atLoopEnd + lat } } }
    Yields s c (.drnd c x n rm) 4 (fun q => q.setD x (roundDec (r.decMode rm) (r.dr x) (10 ^ n.toNat))) ∧
    Starts s c (.dmul c x y) 3 (start 24 [(x.val, p.tmod (10 ^ 62))] (decide (10 ^ 62 ≤ p.natAbs))) ∧
    Starts s c (.dmulw c x y) 3 (start 28 [(x.val, p.tdiv (10 ^ 62)), ((x + 1).val, p.tmod (10 ^ 62))] false) ∧
    (r.dr y = 0 → Raises s c (.ddiv c x y z rm) .decimalDivide 0) ∧
    (r.dr y ≠ 0 →
      let q := roundDec (r.decMode rm) (r.dr x * (r.dr y).sign) (r.dr y).natAbs
      Starts s c (.ddiv c x y z rm) 3 (start 96 [(x.val, q), (z.val, r.dr x - q * r.dr y)] false)) ∧
    (∀ (v : Int) (d : Nat), 0 < d →
      roundDec 2 v d = v.tdiv d ∧ roundDec 4 v d = v / d ∧ roundDec 5 v d = -(-v / d) ∧
      roundDec 3 v d = -((-v.natAbs : Int) / d) * v.sign ∧
      roundDec 0 v d = ((2 * v.natAbs + d) / (2 * d) : Nat) * v.sign ∧
      roundDec 6 v d = -(((d : Int) - 2 * v.natAbs) / (2 * d)) * v.sign ∧
      2 * (v - roundDec 1 v d * d).natAbs ≤ d ∧ (2 * (v - roundDec 1 v d * d).natAbs = d → roundDec 1 v d % 2 = 0))

/-- DLDW, DADDM, DSUBM, DCMPM and DMULM use the field read or fault with DECIMAL_DATA; DSTW and DLDW give a value back -/
def Obligations.PackedFieldInstructions : Prop :=
  ∀ (s : State) (c : CoreId) (x : DReg) (d : Reg) (n : BitVec 3) (t : Tail),
    let r := s.regs c
    let field := [Tail.operand r t (4 * n.toNat) 4 .load]
    let bad (s1 : State) (l : List Chr) : State :=
      s1.raise c .decimalData (Tail.va r t + 4 * (firstInvalid (wordsOfChars l)).getD 0)
    let ends (i : Instr) (s1 : State) (cc : Nat) (f : CoreRegs → CoreRegs) : State :=
      s1.finish (s1.updR c fun _ => f r) c i none (cc + Tail.cc t)
    let sum (i : Instr) (s1 : State) (v : Int) : State :=
      if v.natAbs < 10 ^ 62 then ends i s1 5 fun q => q.setD x v else s1.raise c .decimalOverflow 0
    let product (k : Core) (p : Int) : Option DecOp := some
      { writes := [(x.val, p.tmod (10 ^ 62))], movf := decide (10 ^ 62 ≤ p.natAbs),
        due := k.r.cnt.clk + (4 + Tail.cc t + bit k.atLoopEnd) + 24 }
    Reads s c (.dldw c x n t) field (fun s1 l => match packedValue (wordsOfChars l) with
      | some v => ends (.dldw c x n t) s1 4 fun q => q.setD x v
      | none => bad s1 l) ∧
    Reads s c (.daddm c x n t) field (fun s1 l => match packedValue (wordsOfChars l) with
      | some v => sum (.daddm c x n t) s1 (r.dr x + v)
      | none => bad s1 l) ∧
    Reads s c (.dsubm c x n t) field (fun s1 l => match packedValue (wordsOfChars l) with
      | some v => sum (.dsubm c x n t) s1 (r.dr x - v)
      | none => bad s1 l) ∧
    Reads s c (.dcmpm c d x n t) field (fun s1 l => match packedValue (wordsOfChars l) with
      | some v => ends (.dcmpm c d x n t) s1 5 fun q =>
          q.setW d (if r.dr x < v then 0o777777777777 else if r.dr x = v then 0 else 1)
      | none => bad s1 l) ∧
    Reads s c (.dmulm c x n t) field (fun s1 l => match packedValue (wordsOfChars l) with
      | some v => s1.finish (s1.updCore c fun k => { k with u := { k.u with dec := product k (r.dr x * v) } }) c
          (.dmulm c x n t) none (4 + Tail.cc t)
      | none => bad s1 l) ∧
    ((r.dr x).natAbs < 10 ^ (9 * n.toNat - 1) →
      Stores s c (.dstw c x n t) (Tail.operand r t (4 * n.toNat) 4 .store) .write true
        ((packWords n.toNat (r.dr x)).flatMap Word.chars) (4 + Tail.cc t)) ∧
    (10 ^ (9 * n.toNat - 1) ≤ (r.dr x).natAbs → ∀ y s1 ps, s.carries c (.dstw c x n t) = some (y, s1) →
      s1.checkOperand c y.xlat (Tail.operand r t (4 * n.toNat) 4 .store) = .ok ps →
      exec (.dstw c x n t) s = .next (s1.raise c .decimalOverflow 0)) ∧
    (∀ v : Int, n ≠ 0 → v.natAbs < 10 ^ (9 * n.toNat - 1) →
      packedValue (wordsOfChars ((packWords n.toNat v).flatMap Word.chars)) = some v)

/-- CVCD parses its characters into a number and a status word; CVDC writes digits, and CVCD reads them back -/
def Obligations.NumberConversions : Prop :=
  ∀ (s : State) (c : CoreId) (x : DReg) (w wx : Reg) (k : KReg),
    let r := s.regs c
    let len := (r.wr w).toNat % 2 ^ 18
    let n := min len 62
    let o (len : Nat) (need : Need) : Operand :=
      { cap := r.cap k.val, va := (r.cap k.val).base + (r.wr wx).toNat, len := len, align := 0, need := need }
    (len = 0 ∨ 64 < len → Yields s c (.cvcd c x w k wx) 8 fun q => q.setW w (BitVec.ofNat 36 (4 * 2 ^ 30))) ∧
    (0 < len → len ≤ 64 → Loads s c (.cvcd c x w k wx) [o len .load] (8 + (len + 1) / 2) fun l q =>
      let p := parseNumber (l.map fun a => a.toNat % 256)
      (if p.st = 0 then q.setD x (if p.neg then -(p.v : Int) else p.v) else q).setW w
        (BitVec.ofNat 36 (p.st * 2 ^ 30 + p.i * 2 ^ 18 + p.digits * 64 + p.frac))) ∧
    (n = 0 → Yields s c (.cvdc c x w k wx) 6 fun q => q) ∧
    (0 < n → (r.dr x).natAbs < 10 ^ n → Stores s c (.cvdc c x w k wx) (o n .store) .write false
      ((digitsOf n (r.dr x).natAbs).map fun d => BitVec.ofNat 9 (0o060 + d)) (6 + (n + 1) / 2)) ∧
    (0 < n → 10 ^ n ≤ (r.dr x).natAbs → ∀ y s1 ps, s.carries c (.cvdc c x w k wx) = some (y, s1) →
      s1.checkOperand c y.xlat (o n .store) = .ok ps →
      exec (.cvdc c x w k wx) s = .next (s1.raise c .decimalOverflow 0)) ∧
    (∀ m v : Nat, 0 < m → m ≤ 62 → v < 10 ^ m →
      parseNumber ((digitsOf m v).map fun d => 0o060 + d) =
        { i := m, neg := false, point := false, digits := m, frac := 0, v := v, st := 0 })

/-- HOME computes the record address; TXN.NEXT takes the first slot that the Horizon has passed, or idles; TXN.WAIT ends when
granted -/
def Obligations.TransactionStart : Prop :=
  ∀ (s : State) (c : CoreId) (d a : Reg),
    let r := s.regs c
    let e := coreDie c
    (∀ p, s.partOf c = some p →
      let q := s.planPart p.val
      let h := q.homes.length
      let n := (r.wr a).toNat
      let k := (n % h + n / h) % h
      (n < s.paramN 81 p.val 1 → Yields s c (.home c d a) 12 fun x =>
        x.setW d (BitVec.ofNat 36 ((q.vbase.getD k 0).toNat + n / h * s.paramN 82 p.val 1 * 64))) ∧
      (s.paramN 81 p.val 1 ≤ n → Raises s c (.home c d a) .accountRange 0)) ∧
    (∀ h i j : Nat, i / h = j / h → (i % h + i / h) % h = (j % h + j / h) % h → i = j) ∧
    ((s.core c).txn.isSome = true → Raises s c (.txnNext c d) .txnState 0) ∧
    (∀ p, (s.core c).txn = none → s.partOf c = some p →
      (s.takeableSlots e p.val = [] → ∀ x s1, s.carries c (.txnNext c d) = some (x, s1) →
        exec (.txnNext c d) s = .next (s1.updCore c fun k => k.count (·.addIdle 1))) ∧
      (∀ n ∈ s.takeableSlots e p.val,
        (∀ m ∈ s.takeableSlots e p.val, m ≠ n → (s.slot e n).pos.before (s.slot e m).pos = true) →
        Ends s c (.txnNext c d) 6 none (fun t => t.nextTaken c d n) ∧
        (s.slot e n).st = .queued ∧ tickLe (s.slot e n).pos.tick (s.dieHorizon e) = true)) ∧
    (∀ n, let v := s.slot e n
      let t := s.takeSlot c d n
      (t.core c).txn = some n ∧ (t.slot e n).st = .taken ∧ (t.slot e n).core = some c ∧
      (t.regs c).wr d = BitVec.ofNat 36 (n % 512 * 2 ^ 27 + v.part.val * 2 ^ 23 + e % 8 * 2 ^ 20 +
        v.octets.length % 65536 * 16 + if v.org.host then 8 else 0) ∧
      (t.regs c).wr (Reg.next d) ++ (t.regs c).wr (Reg.next (Reg.next d)) = v.pos.bits ∧
      (t.regs c).cap 6 = Cap.readWrite (scratchBase + 2048 * coreIndex c) v.chars.length ∧
      (∀ j < v.chars.length, let a := 2048 * coreIndex c + j
        Sparse.get 0 (t.cluster (coreCluster c)).scratch a =
          if (s.scratchInfo (coreCluster c) (a / 64)).capline then Sparse.get 0 (s.cluster (coreCluster c)).scratch a
          else v.chars.getD j 0) ∧
      (∀ m, m ≠ c.val → t.core m = s.core m) ∧ (t.regs c).d = r.d ∧ (t.regs c).sp = r.sp) ∧
    ((s.core c).txn = none → Raises s c (.txnWait c) .txnState 0) ∧
    (∀ n, (s.core c).txn = some n → (s.slot e n).st = .declared ∨ (s.slot e n).st = .granted →
      ((∀ q ∈ (s.slot e n).claims, q.granted = true) → Ends s c (.txnWait c) 2 none fun t => t) ∧
      ((∃ q ∈ (s.slot e n).claims, q.granted = false) → ∀ x s1, s.carries c (.txnWait c) = some (x, s1) →
        exec (.txnWait c) s = .next (s1.updCore c fun k => { k.count (·.addFar 1) with
          cur := some { x with acc := none, walk := none, gate := false, soft := true } })))

/-- TXN.CLAIM and TXN.CLAIMX declare one claim for each distinct line of their records and send it to the line's engine -/
def Obligations.ClaimDeclaration : Prop :=
  ∀ (s : State) (c : CoreId) (t : Tail) (wide : Bool),
    let i : Instr := if wide then .txnClaimx c t else .txnClaim c t
    let r := s.regs c
    let e := coreDie c
    ((s.core c).txn = none → Raises s c i .txnState 0) ∧
    (∀ n x s1 x1 x2 hd l ps,
      let v := s1.slot e n
      let w := Word.ofChars hd
      let count := w.toNat / 2 ^ 31
      let k := r.cap (w.toNat / 2 ^ 28 % 8)
      let rec_ := s1.recLines v.part.val
      s.carries c i = some (x, s1) → (s1.core c).txn = some n → v.st = .taken →
      s1.tryRead c x 0 [Tail.operand r t 4 4 .load] = .ok (x1, hd) →
      0 < count → count ≤ (if wide then 16 else 8) → w.toNat % 2 ^ 28 = 0 →
      s1.tryRead c x1 1 [{ cap := Tail.cap r t, va := Tail.va r t + 4, len := 4 * count, align := 4, need := .load }] = .ok (x2, l) →
      (∀ o ∈ wordsOfChars l, (k.base + o.toNat) % 64 = 0) →
      s1.checkOperands c x2.xlat (claimOperands k rec_ (wordsOfChars l)) = .ok ps →
      (wide = true → (s1.cluster (coreCluster c)).pool.length < 2) →
      exec i s = .next (s1.finish (s1.declare c n (mergeClaims ((cutRecords rec_ (wordsOfChars l).length (ps.map Prod.fst)).map
        (s1.claimLines v.part.val e))) wide) c i none ((if wide then 7 + 5 * ((count + 1) / 2) else 4 + 3 * count) + Tail.cc t))) ∧
    (∀ l, (mergeClaims l).Pairwise fun a b => (a.die, a.line) ≠ (b.die, b.line)) ∧
    (∀ l d n rest, (d, n) :: rest ∈ l → ∃ q ∈ mergeClaims l, q.die = d ∧ q.line = n ∧ q.granted = false) ∧
    (∀ n cs, let u := s.declare c n cs wide
      (u.slot e n).st = .declared ∧ (u.slot e n).claims = cs ∧ (u.slot e n).pos = (s.slot e n).pos ∧ u.u.cores = s.u.cores ∧
      (∀ q ∈ cs, ∀ h : q.die < 8, e < 8 → ∃ cl : Claim, Msg.claim ⟨q.die, h⟩ cl ∈ u.msgs ∧ cl.line = q.line ∧ cl.lines = q.lines ∧
        cl.pos = (s.slot e n).pos ∧ cl.part = (s.slot e n).part ∧ cl.fromDie.val = e ∧ cl.slot = n))

/-- DPOST and DCAS send their request once the line is granted, or end as ABORTED; DACC appends its entry, at most 16 -/
def Obligations.PostingInstructions : Prop :=
  ∀ (s : State) (c : CoreId) (x y : DReg) (w : Reg) (k : KReg) (o : PostOff) (t : Tail),
    let r := s.regs c
    let field (cap : Cap) (va : Nat) (need : Need) : Operand :=
      { cap := cap, va := va, len := postWidth (r.wr w) va, align := 4, need := need }
    let posting (i : Instr) (f : Operand) (op : AccOp) (cc : Nat) : Prop :=
      ∀ u s1 l, s.carries c i = some (u, s1) → u.post = none → s1.checkOperand c u.xlat f = .ok l →
        (s1.txnAborted c = true →
          exec i s = .next (s1.finish (s1.updR c fun q => q.setW w 8) c i none cc)) ∧
        (s1.txnAborted c = false → s1.ungranted c (l.map Prod.fst) = false →
          exec i s = .next ((s1.send c op false (l.map Prod.fst)).updCore c fun z =>
            { z with cur := some { u with acc := some s1.nextId, walk := none, gate := false } })) ∧
        (s1.txnAborted c = false → s1.ungranted c (l.map Prod.fst) = true →
          exec i s = .next (s1.updCore c fun z => { z.count (·.addFar 1) with
            cur := some { u with acc := none, walk := none, gate := false, soft := true } }))
    posting (.dpost c x w k o) (field (r.cap k.val) ((r.cap k.val).base + PostOff.chars o) .post)
      (.dpost (r.wr w) (r.dr x)) 5 ∧
    posting (.dcas c x y w t) (field (Tail.cap r t) (Tail.va r t) .post) (.dcas (r.wr w) (r.dr x) (r.dr y)) (5 + Tail.cc t) ∧
    (∀ u s1 n q e l d line,
      let va := (r.cap k.val).base + PostOff.chars o
      let v := s1.slot (coreDie c) n
      s.carries c (.dacc c x w k o) = some (u, s1) → (s1.core c).txn = some n →
      s1.checkOperand c u.xlat (field (r.cap k.val) va .dacc) = .ok ((q, e) :: l) →
      let ends (f : State) (st : Word) := exec (.dacc c x w k o) s =
        .next (s1.finish (f.updR c fun z => z.setW w st) c (.dacc c x w k o) none 4)
      (v.st = .aborted → ends s1 8) ∧
      (v.st = .declared ∨ v.st = .granted → badControl (r.wr w) (va % 64 / 4) true = true → ends s1 6) ∧
      (v.st = .declared ∨ v.st = .granted → badControl (r.wr w) (va % 64 / 4) true = false →
        (16 ≤ v.acc.length → ends s1 9) ∧
        (v.acc.length < 16 → s1.target v.part.val (coreDie c) q.pa = some (d, line) →
          ends (s1.setSlot (coreDie c) n { v with acc := v.acc ++ [{ die := d, line := line, word := q.pa % 64 / 4, fw := ctlFw (r.wr w), x := r.dr x, va := va, key := q.key, sys := q.sys, waited := false }] }) 0)))

/-- TXN.RESPOND places its response; TXN.COMMIT and TXN.ABORT send their request to the gate or end with the outcome known -/
def Obligations.TransactionEnd : Prop :=
  ∀ (s : State) (c : CoreId) (l ws : Reg) (t : Tail),
    let r := s.regs c
    let e := coreDie c
    let len := (r.wr l).toNat
    let open_ (v : Slot) : Prop := v.st = .taken ∨ v.st = .declared ∨ v.st = .granted
    ((s.core c).txn = none → Raises s c (.txnRespond c l t) .txnState 0 ∧ Raises s c (.txnCommit c ws) .txnState 0 ∧
      Raises s c (.txnAbort c ws) .txnState 0) ∧
    (∀ n, (s.core c).txn = some n →
      let v := s.slot e n
      (v.resp.isSome = true → Raises s c (.txnRespond c l t) .txnState 0) ∧
      (v.resp = none → open_ v ∨ v.st = .aborted →
        (len = 0 ∨ 2048 < len → Raises s c (.txnRespond c l t) .responseLength 0) ∧
        (0 < len → len ≤ 2048 → ∀ x s1 x1 ch, s.carries c (.txnRespond c l t) = some (x, s1) →
          s1.tryRead c x 0 [Tail.operand r t len 0 .load] = .ok (x1, ch) →
          (v.st = .aborted →
            exec (.txnRespond c l t) s = .next (s1.finish s1 c (.txnRespond c l t) none (6 + Tail.cc t))) ∧
          (v.st ≠ .aborted → ∀ y, s1.placeResponse e n (ch.map Chr.code) = some y →
            exec (.txnRespond c l t) s = .next (s1.finish y c (.txnRespond c l t) none (6 + Tail.cc t)) ∧
            (y.slot e n).resp = some (ch.map Chr.code)))) ∧
      (∀ abort : Bool, let i : Instr := if abort then .txnAbort c ws else .txnCommit c ws
        (open_ v → (∀ q ∈ v.claims, q.granted = true) → s.storesOut c = false →
          ∀ x s1, ∀ h : e < 8, s.carries c i = some (x, s1) →
          exec i s = .next (((s1.setSlot e n { v with st := .resolving }).post (.resolve ⟨e, h⟩ n v.pos
            (if abort then .abort else .commit))).updCore c fun k =>
              { k with cur := some { x with acc := none, walk := none, gate := true } })) ∧
        (∀ o, v.st = .aborted ∨ v.st = .committed → v.outcome = some o →
          Ends s c i 8 none fun z => (z.updR c fun q => q.setW ws (if 512 ≤ n then 2 else match o with
            | .committed => 0
            | .software => 1
            | _ => if abort then 2 else 1)).letGo c n)) ∧
      ((s.letGo c n).core c).txn = none)

/-- A string instruction ends once its units have run, with its result registers; interrupted, it saves what it resumes from
-/
def Obligations.StringInstructionRuns : Prop :=
  ∀ (s : State) (c : CoreId) (i : Instr) (op : StrOp) (bound : Nat),
    let r := s.regs c
    let len (w : Reg) := (r.wr w).toNat
    (∃ kd wd ks ws wl, i = .movc c kd wd ks ws wl ∧ bound = unitBound (len wl) ∧
      op = movcOp c i (strOperand (r.cap kd.val) (r.wr wd) (len wl) .store) (strOperand (r.cap ks.val) (r.wr ws) (len wl) .load)) ∨
    (∃ kd wd wl wf, i = .fillc c kd wd wl wf ∧ bound = unitBound (len wl) ∧
      op = fillcOp c i (strOperand (r.cap kd.val) (r.wr wd) (len wl) .store) ((r.wr wf).truncate 9)) ∨
    (∃ kd wd ks ws wl skip strip pad, i = .movem c kd wd ks ws wl skip strip pad ∧ bound = unitBound (len wl) ∧
      op = movemOp c i (strOperand (r.cap kd.val) (r.wr wd) (len wl) .store) (strOperand (r.cap ks.val) (r.wr ws) (len wl) .load)
        skip strip pad wd ws wl) ∨
    (∃ kd wd ks ws wl kt m, i = .tr c kd wd ks ws wl kt m ∧ bound = unitBound (len wl) ∧
      op = trOp c i (strOperand (r.cap kd.val) (r.wr wd) (len wl) .store) (strOperand (r.cap ks.val) (r.wr ws) (len wl) .load)
        (tableOperand (r.cap kt.val)) m) ∨
    (∃ wr ks ws wl m, i = .scan c wr ks ws wl m ∧ bound = unitBound (len wl) ∧
      op = scanOp c i (strOperand (r.cap ks.val) (r.wr ws) (len wl) .load) ((r.wr wr).truncate 8) m (scanTable r m) wr) ∨
    (∃ ka wa kb wb wl, i = .cmpc c ka wa kb wb wl ∧ bound = unitBound (len wl) ∧
      op = cmpcOp c i (strOperand (r.cap ka.val) (r.wr wa) (len wl) .load) (strOperand (r.cap kb.val) (r.wr wb) (len wl) .load) wl) ∨
    (∃ x kd wd kp wp wl, i = .edit c x kd wd kp wp wl ∧ bound = unitBound (len wl) ∧
      op = editOp c i (strOperand (r.cap kd.val) (r.wr wd) (len wl % 2 ^ 18) .store)
        (strOperand (r.cap kp.val) (r.wr wp) (len wl % 2 ^ 18) .load) (r.dr x) (BitVec.ofNat 9 (len wl / 2 ^ 27))
        (len wl / 2 ^ 18 % 2 ^ 9) wl) →
    ∀ x s1, s.carries c i = some (x, s1) → x.begun = false → checkString op.operands = none →
      (r.ctl.sres = false → op.empty = none →
        (∀ y t, op.units c bound { x with begun := true } s1 = some (y, t) →
          exec i s = .next (s1.finish (t.updR c (op.result y.prog)) c i none (stringSetup i + y.cost))) ∧
        (∀ p t n, op.ended x.prog = false → op.unit { x with begun := true } s1 = .next p t n →
          (t.core c).takeable.isSome = true → op.ended p = false → ∃ u, exec i s = .next u ∧
          (u.regs c).ctl.sres = true ∧ Sparse.get 0 (u.regs c).w 31 = stateWord i ∧
          (Sparse.get 0 (u.regs c).w 28, Sparse.get 0 (u.regs c).w 29, Sparse.get 0 (u.regs c).w 30) = progWords i p ∧
          (u.core c).pc = (t.core c).pc ∧ (u.core c).cur = none)) ∧
      (r.ctl.sres = true →
        let w (n : Nat) := Sparse.get 0 r.w n
        let p := wordsProg i (w 28) (w 29) (w 30)
        let s2 := s1.updCore c fun k => k.updCtl fun t => { t with sres := false }
        (w 31 = stateWord i → progWords i p = (w 28, w 29, w 30) → op.valid p = true → ∀ y t,
          op.units c bound { x with begun := true, prog := p, resumed := true } s2 = some (y, t) →
          exec i s = .next (s1.finish (t.updR c (op.result y.prog)) c i none (stringSetup i + y.cost))) ∧
        (w 31 ≠ stateWord i ∨ progWords i p ≠ (w 28, w 29, w 30) ∨ op.valid p = false →
          exec i s = .next (s2.raise c .stringState 0)))

/-- FILLC to a run in scratch stores its character to every character of the run, whatever its alignment, and to no other -/
def Obligations.FillcInScratch : Prop :=
  ∀ (s : State) (c : CoreId) (kd : KReg) (wd wl wf : Reg),
    let i : Instr := .fillc c kd wd wl wf
    let r := s.regs c
    let cl := coreCluster c
    let k := r.cap kd.val
    let va := k.base + (r.wr wd).toNat
    let len := (r.wr wl).toNat
    let at_ := va - scratchBase
    (s.core c).cur = none → r.ctl.sres = false → k.write = true → 0 < len → scratchBase ≤ va → at_ + len ≤ 262144 →
    k.covers va len = true →
    (∀ line, at_ / 64 ≤ line → line ≤ (at_ + len - 1) / 64 →
      (s.scratchInfo cl line).poison = false ∧ (s.scratchInfo cl line).capline = false ∧ line ∉ (s.cluster cl).scratchBad ∧
      ∀ e ∈ (s.cluster cl).scratchCe, e.1 ≠ line) →
    ∀ x s1, s.carries c i = some (x, s1) → (s1.core c).takeable = none → ∃ t, exec i s = .next t ∧
      (∀ j < len, Sparse.get 0 (t.cluster cl).scratch (at_ + j) = (r.wr wf).truncate 9) ∧
      (∀ e a, (e ≠ cl ∨ a < at_ ∨ at_ + len ≤ a) → Sparse.get 0 (t.cluster e).scratch a = Sparse.get 0 (s.cluster e).scratch a) ∧
      (t.regs c).w = r.w ∧ (t.regs c).d = r.d ∧ (∀ n, n ≠ c.val → t.core n = s.core n) ∧ t.accesses = s.accesses ∧
      t.u.dies = s.u.dies ∧
      (r.ctl.lact = false → (t.regs c).cnt.cycles = r.cnt.cycles + BitVec.ofNat 36 (6 + ((at_ + len + 3) / 4 - at_ / 4)))

/-- FADD to FCMP complete: exec answers the next state, the unit holds result, flags, record, then writes Wd; rounding is
exact where it can be -/
def Obligations.FloatOperationStarts : Prop :=
  ∀ (s : State) (c : CoreId) (d a b : Reg) (l : Bool) (rm : BitVec 3),
    let r := s.regs c
    let f := FFmt.of l
    let m := r.fpMode rm
    let x := r.fpIn l d
    let y := r.fpIn l b
    let start (i : Instr) (cc lat : Nat) (root lo l : Bool) (mode : Nat) (p q : List Word) (res : Nat × FFlags) : Prop :=
      let ws := fpWords lo res.1
      ((s.core c).u.fp = [] → Completes s c i (.floatResult c) (fun z => ∀ o ∈ z.u.fp, o.due ≤ z.r.cnt.clk)
        (if lo then [(r.wKey d, ws.headD 0), (r.wKey (Reg.next d), ws.getD 1 0)] else [(r.wKey d, ws.headD 0)])) ∧
      Starts s c i cc fun z => { z with u := { z.u with fp := z.u.fp ++ [{
        writes := if lo then [(r.wKey d, ws.headD 0), (r.wKey (Reg.next d), ws.getD 1 0)] else [(r.wKey d, ws.headD 0)],
        flags := res.2.word, traps := trapsUnder r.govFmode res.2.word, root := root, due := r.cnt.clk + cc + bit z.atLoopEnd + lat,
        record := [BitVec.ofNat 36 (2 ^ 35 + res.2.word.toNat * 2 ^ 28 + (if l then 2 ^ 27 else 0) + i.minor % 1024 * 2 ^ 17 +
          d.val * 2 ^ 12 + mode % 8 * 2 ^ 9 + (if r.ctl.bk1 then 2 ^ 8 else 0)),
          BitVec.ofNat 36 ((s.core c).pc % 2 ^ 18)] ++ p ++ q ++ ws }] } }
    let two (i : Instr) (lat : Nat) (root : Bool) (res : Nat × FFlags) : Prop :=
      start i 2 lat root l l m (fpWords l x) (fpWords l y) res
    two (.fadd c d b l rm) (if l then 6 else 4) false (f.two (f.add m) x y) ∧
    two (.fsub c d b l rm) (if l then 6 else 4) false (f.two (fun u v => f.add m u v.negate) x y) ∧
    two (.fmul c d b l rm) (if l then 6 else 4) false (f.two (f.mulV m) x y) ∧
    two (.fdiv c d b l rm) (if l then 30 else 14) true (f.two (f.divV m) x y) ∧
    start (.fsqrt c d b l rm) 2 (if l then 34 else 16) true l l m (fpWords l y) [0, 0] (f.one f.quiet (f.sqrtV m) y) ∧
    start (.fcvtfi c d b l rm) 2 (if l then 6 else 4) false false l m (fpWords l y) [0, 0] (f.toInt m y) ∧
    start (.fcvtif c d b l rm) 2 (if l then 6 else 4) false l l m [r.wr b, 0] [0, 0] (f.ofInt m (r.wr b).toInt) ∧
    start (.fneg c d b l) 2 2 false l l 0 (fpWords l y) [0, 0] (f.make (!f.sign y) (f.expo y) (f.frac y), FFlags.none) ∧
    start (.fabs c d b l) 2 2 false l l 0 (fpWords l y) [0, 0] (f.make false (f.expo y) (f.frac y), FFlags.none) ∧
    start (.fcmp c d a b l) 3 2 false false l 0 (fpWords l (r.fpIn l a)) (fpWords l y) (f.compare (r.fpIn l a) y) ∧
    (∃ g, start (.fcvtsl c d b) 2 2 false true false 0 [r.wr b, 0] [0, 0] g ∧
      (FFmt.short.value (r.wr b).toNat = .fin false (2 ^ 27) (-27) → g = (FFmt.long.make false 1023 0, FFlags.none))) ∧
    (∃ g, start (.fcvtls c d b rm) 2 4 false false false m (fpWords true (r.fpIn true b)) [0, 0] g ∧
      (FFmt.long.value (r.fpIn true b) = .fin false (2 ^ 60) (-60) → g = (FFmt.short.make false 127 0, FFlags.none))) ∧
    (∀ (mode : Nat) (neg : Bool) (n : Nat) (e : Int), n ≠ 0 →
      let u := bitLen n
      1 - (f.bias : Int) ≤ e + u - 1 → e + u - 1 ≤ f.bias →
      (u ≤ f.p → ∃ v, f.round mode neg n e false = (v, FFlags.none) ∧
        f.value v = .fin neg (n * 2 ^ (f.p - u)) (e - (f.p - u : Nat))) ∧
      (f.p < u → ∃ v g, f.round 2 neg n e false = (v, g) ∧ f.value v = .fin neg (n / 2 ^ (u - f.p)) (e + (u - f.p : Nat)) ∧
        (g.nx = true ↔ n % 2 ^ (u - f.p) ≠ 0) ∧ g.of = false ∧ g.uf = false))

/-- CMOV, CCLR, CSETB, CANDR, CSETK and CGET: results (position 31 as 0), refusals; no derived capability reaches beyond its
source -/
def Obligations.CapabilityRegisterOperations : Prop :=
  ∀ (s : State) (c : CoreId) (kd ks : CapNum) (d wb wl wm : Reg),
    let r := s.regs c
    let num (k : CapNum) : Nat := k.n.toNat + if k.x then 16 else 0
    let k := r.cap (num ks)
    let put (v : Cap) (q : CoreRegs) : CoreRegs :=
      { q with k := Sparse.set Cap.empty q.k (num kd) { v with w1 := v.w1 &&& ~~~16#36 },
               shadow := if num kd = 8 then some { left := 2, which := 3, old := 0, oldKc := q.cap 8 } else q.shadow }
    let b := k.base + (r.wr wb).toNat
    let n := (r.wr wl).toNat
    let e := lexpOf n
    let m := n / 4 ^ e
    let key : BitVec 4 := (r.wr wm).truncate 4
    Yields s c (.cmov c kd ks) 2 (put k) ∧
    Yields s c (.cclr c kd) 2 (put Cap.empty) ∧
    (b < 2 ^ 36 → b + m * 4 ^ e ≤ k.top →
      Yields s c (.csetb c kd ks wb wl) 6 fun q => (put (k.resized b m e) q).setW wl (BitVec.ofNat 36 (m * 4 ^ e))) ∧
    (2 ^ 36 ≤ b ∨ k.top < b + m * 4 ^ e → Raises s c (.csetb c kd ks wb wl) .capBounds 0) ∧
    Yields s c (.candr c kd ks wm) 3 (put (k.andRights (r.wr wm))) ∧
    (k.key = 0 ∨ key = k.key →
      Yields s c (.csetk c kd ks wm) 3 (put { k with w1 := k.w1 &&& ~~~0xF ||| key.zeroExtend 36 })) ∧
    (k.key ≠ 0 → key ≠ k.key → Raises s c (.csetk c kd ks wm) .capRights 0) ∧
    Yields s c (.cget c d ks) 3 (fun q => (q.setW d k.w0).setW (Reg.next d) k.w1) ∧
    (m < 2 ^ 20 ∧ (e ≠ 0 → 2 ^ 20 ≤ n / 4 ^ (e - 1)) ∧ m * 4 ^ e ≤ n) ∧
    (b < 2 ^ 36 → let q := k.resized b m e
      q.base = b ∧ q.top = b + m * 4 ^ e ∧ k.base ≤ q.base ∧ (b + m * 4 ^ e ≤ k.top → q.top ≤ k.top) ∧ q.key = k.key ∧
      q.read = k.read ∧ q.write = k.write ∧ q.post = k.post ∧ q.capload = k.capload ∧ q.capstore = k.capstore ∧
      q.global = k.global ∧ q.sys = k.sys) ∧
    (let q := k.andRights (r.wr wm)
     q.base = k.base ∧ q.top = k.top ∧ q.key = k.key ∧ (q.read → k.read) ∧ (q.write → k.write) ∧ (q.post → k.post) ∧
     (q.capload → k.capload) ∧ (q.capstore → k.capstore) ∧ (q.global → k.global) ∧ (q.sys → k.sys))

/-- CLD, CST, CAPLN, DATALN, SETKEY and GETKEY complete with their effects; the TLB instructions need SYS in KS -/
def Obligations.CapabilityMemoryAndTlb : Prop :=
  ∀ (s : State) (c : CoreId) (kd : CapNum) (a d : Reg) (t : Tail),
    let r := s.regs c
    let num : Nat := kd.n.toNat + if kd.x then 16 else 0
    let k := r.cap num
    let clean (w : Word) : Word := w &&& ~~~16#36
    let o (n align : Nat) (need : Need) := Tail.operand r t n align need
    let entry (n : Nat) : TlbEntry := Sparse.get TlbEntry.reset (s.core c).tlb n
    let set (z : Core) (n : Nat) (e : TlbEntry) : Core := { z with tlb := Sparse.set TlbEntry.reset z.tlb n e }
    let va := (r.wr a).toNat
    Loads s c (.cld c kd t) [o 8 8 .cld] (4 + Tail.cc t) (fun l q => { q with
      k := Sparse.set Cap.empty q.k num { w0 := Word.ofChars l, w1 := clean (Word.ofChars (l.drop 4)) },
      shadow := if num = 8 then some { left := 2, which := 3, old := 0, oldKc := q.cap 8 } else q.shadow }) ∧
    Stores s c (.cst c kd t) (o 8 8 (.cst k.global)) .cst true (k.w0.chars ++ (clean k.w1).chars) (4 + Tail.cc t) ∧
    (∀ cap : Bool, let i : Instr := if cap then .capln c t else .dataln c t
      (inScratch (Tail.va r t) = false → Stores s c i (o 64 64 .line) (.wholeLine cap) true (List.replicate 64 0) (6 + Tail.cc t)) ∧
      (inScratch (Tail.va r t) = true → ∀ x s1 x1 u, s.carries c i = some (x, s1) →
        s1.tryStore c x 0 [o 64 64 .line] (.wholeLine cap) true (List.replicate 64 0) = .ok (x1, u) → ∃ v, exec i s = .next v ∧
        let line := (Tail.va r t - scratchBase) / 64
        let cl := coreCluster c
        (v.scratchInfo cl line).capline = cap ∧ (v.scratchInfo cl line).poison = false ∧ line ∉ (v.cluster cl).scratchBad ∧
        (∀ n, n ≠ line → v.scratchInfo cl n = u.scratchInfo cl n) ∧ (v.cluster cl).scratch = (u.cluster cl).scratch)) ∧
    Stores s c (.setkey c a t) (o 64 64 .setkey) (.setkey ((r.wr a).truncate 4)) true [] (4 + Tail.cc t) ∧
    Loads s c (.getkey c d t) [o 1 0 .getkey] (4 + Tail.cc t) (fun l q => q.setW d (BitVec.ofNat 36 (l.headD 0).toNat)) ∧
    ((r.cap 9).sys = false → Raises s c (.tlbInv c a) .capRights 0 ∧ Raises s c (.tlbInva c) .capRights 0 ∧
      Raises s c (.tlbLock c a) .capRights 0 ∧ Raises s c (.tlbUnlk c a) .capRights 0 ∧ Raises s c (.tlbRd c d a) .capRights 0) ∧
    ((r.cap 9).sys = true →
      (∀ x s1, s.carries c (.tlbInv c a) = some (x, s1) → ∃ u, exec (.tlbInv c a) s = .next u ∧ (u.regs c).w = r.w ∧
        ∀ n < 32, Sparse.get TlbEntry.reset (u.core c).tlb n =
          if (entry n).maps va = true ∧ va < scratchBase then { entry n with v := false, lk := false } else entry n) ∧
      (∀ x s1, s.carries c (.tlbInva c) = some (x, s1) → ∃ u, exec (.tlbInva c) s = .next u ∧ (u.regs c).w = r.w ∧
        ∀ n < 32, Sparse.get TlbEntry.reset (u.core c).tlb n =
          if (entry n).v = true ∧ (entry n).lk = false then { entry n with v := false } else entry n) ∧
      (∀ n, va < scratchBase → (∀ j < 32, ¬ ((entry j).lk = true ∧ (entry j).maps va = true)) →
        ((List.range 32).filter fun j => (entry j).v && (entry j).lk).length < 8 →
        n < 32 → (entry n).maps va = true → (entry n).rf = false → (∀ j < n, (entry j).maps va = false) →
        Starts s c (.tlbLock c a) 6 fun z => set z n { entry n with lk := true }) ∧
      (va < scratchBase → (∀ j < 32, ¬ ((entry j).lk = true ∧ (entry j).maps va = true)) →
        8 ≤ ((List.range 32).filter fun j => (entry j).v && (entry j).lk).length → Raises s c (.tlbLock c a) .tlbLock 0) ∧
      (∀ n, va < scratchBase → n < 32 → (entry n).maps va = true → (∀ j < n, (entry j).maps va = false) →
        Starts s c (.tlbUnlk c a) 3 fun z => set z n { entry n with lk := false }) ∧
      Yields s c (.tlbRd c d a) 3 fun q => (q.setW d (entry (va % 32)).wordA).setW (Reg.next d) (entry (va % 32)).wordB)

/-- Gate, row controller, walker and response: what an access reads and stores, and what a refusal records -/
def Obligations.AccessPath : Prop :=
  ∀ (s : State) (id cc : Nat) (a : Access) (q : AccPart),
    s.findAccess id = some a → a.parts = [q] → q.scratch = false →
    let v := s.partVerdict a q
    let e := coreDie a.core
    let at_ := q.pa % 64
    (a.st = .sent → s.heldBack a = false → s.sentBehind a = false → spaceOf q.pa = 0 → q.resp = none → q.refused = none →
      (v.reason = 0 → exec (.gateCheck id) s =
        .next ({ s with nextId := s.nextId + 1 }.updAccess id fun z =>
          { z with parts := [{ q with bank := v.bank, slot := v.slot }], arrival := s.nextId, st := .admitted })) ∧
      (v.reason ≠ 0 → ∃ t, exec (.gateCheck id) s = .next t ∧ t.gate v.gate = (s.gate v.gate).record v.reason
          (a.op.kind a.posted) v.slot v.bank (coreSource a.part.val a.core.val q.key.toNat 0 q.sys) q.pa s.tick ∧
        (t.findAccess id).map Access.st = some (.failed (if a.posted then .targetViolation else .gateViolation) q.va) ∧
        t.u.dies = s.u.dies)) ∧
    (∀ d l, a.st = .admitted → spaceOf q.pa = 0 → q.resp = none → q.refused = none → q.cleared = false →
      q.void = false → s.target a.part.val e q.pa = some (d, l) → s.alive d = true → s.earlierOut a d l = false →
      s.underRepair d l = false → s.rowWaits d l = false →
      let key := s.lineKey d l
      let info := s.lineInfo d l
      let got (t : State) (chars : List Chr) : State :=
        t.setPart id 0 fun z => { z with resp := some ((chars.drop at_).take q.len) }
      (a.op = .read → a.posted = false →
        (q.key = 0 ∨ q.key = key →
          (q.claimed = true ∨ s.imageAfter d l (s.visibleAt e a.part.val) = none → info.poison = false →
            exec (.lineAccess id 0 .clean) s = .next (got s (s.lineChars d l))) ∧
          (∀ g, q.claimed = false → s.imageAfter d l (s.visibleAt e a.part.val) = some g → g.info.poison = false → g.hurt = [] →
            exec (.lineAccess id 0 .clean) s = .next (got s g.chars)) ∧
          (q.claimed = false → s.imageAfter d l (s.visibleAt e a.part.val) = none → info.poison = true →
            exec (.lineAccess id 0 .clean) s = .next (s.failAccess a .linePoison q.va))) ∧
        (q.key ≠ 0 → q.key ≠ key → exec (.lineAccess id 0 .clean) s =
          .next ((s.refusePart a q (rowRefusal d l 6 q.bank q.slot) key.toNat).failAccess a .gateViolation q.va))) ∧
      (∀ r n, a.op = .write → a.posted = true → q.key = 0 ∨ q.key = key → info.capline = false → info.poison = false →
        (s.partn a.part.val).joinEpoch = none → s.regionOf a.part.val d l = some r →
        (q.claimed = false ∧ r.kind = 0) ∨ (q.claimed = true ∧ r.kind = 1 ∧ a.slot = some n ∧
          s.needsImage d l (s.ownImage e n) = true ∧ s.imageRoom d = true) →
        ∃ t, exec (.lineAccess id 0 .clean) s = .next t ∧ t.accesses = s.accesses.filter (fun b => decide (b.id ≠ id)) ∧
          (∀ j < q.data.length, Sparse.get 0 (t.die d).m.mem (64 * l + at_ + j) = q.data.getD j 0) ∧
          (∀ f b, (f ≠ d ∨ b < 64 * l + at_ ∨ 64 * l + at_ + q.data.length ≤ b) →
            Sparse.get 0 (t.die f).m.mem b = Sparse.get 0 (s.die f).m.mem b) ∧
          (q.claimed = false → (t.die d).m.images = (s.die d).m.images) ∧
          (q.claimed = true → ∃ g, (t.die d).m.images = (s.die d).m.images ++ [g] ∧ g.line = l ∧ g.chars = s.lineChars d l ∧
            g.info = info ∧ g.epoch = s.slotEpoch (s.slot e n) ∧ g.join = false) ∧ t.u.cores = s.u.cores)) ∧
    (∀ va cause, a.st = .failed cause va → a.posted = true → ∃ t, exec (.targetViolation id) s = .next t ∧
      (t.core a.core).tvPend = some ((s.core a.core).tvPend.getD (word va)) ∧ t.findAccess id = none) ∧
    (∀ x, (s.core a.core).cur = some x → x.acc = some id → x.begun = false → a.posted = false →
      (∀ va cause, a.st = .failed cause va → exec (.memoryResponse id cc) s =
        .next (((s.dropAccess id).updCore a.core fun k => { k.count (·.addFar cc) with cur := none }).raise a.core cause va)) ∧
      (∀ d t l, a.st = .admitted → a.op = .read → q.resp = some l → x.instr = .ldw a.core d t → x.rounds = [] →
        (s.core a.core).live = true → (s.core a.core).regBad = false →
        ∃ u, exec (.memoryResponse id cc) s = .next u ∧ (u.regs a.core).wr d = Word.ofChars l ∧ (u.core a.core).cur = none ∧
          u.findAccess id = none ∧ (∀ n, n ≠ a.core.val → u.core n = s.core n) ∧ u.u.dies = s.u.dies) ∧
      (∀ o, a.st = .admitted → a.op = .read → spaceOf q.pa = 3 → q.resp = none → o.length = q.len →
        let b := { a with parts := [{ q with resp := some (o.map (Chr.mk false)) }] }
        exec (.host3Completion id (.data o) cc) s = .next ((s.updAccess id fun _ => b).deliver b cc))) ∧
    (∀ (cl : ClusterId) c va rest x w1 w2, (s.cluster cl).walks = (c, va) :: rest → (s.core c).cur = some x → x.walk = some va →
      let s0 := s.updCluster cl fun z => { z with walks := rest }
      let p := match s.partOf c with | some p => p.val | none => 0
      (∀ s1 cause, s0.walk c p va w1 w2 = some (s1, .error cause) → exec (.pageWalk cl w1 w2 cc) s = .next (s1.awaitFault c x cc cause va)) ∧
      (∀ s1 g, s0.walk c p va w1 w2 = some (s1, .ok g) →
        exec (.pageWalk cl w1 w2 cc) s = .next ((s1.updCore c fun k => k.fill va g).goOn c { x with xlat := x.xlat ++ [g] } cc) ∧
        (va < 2 ^ 36 → g.maps va = true ∧ g.v = true ∧ g.lk = false ∧ g.rf = false)))

/-- The posting unit changes exactly the field, saves the image and answers the status; DACC entries accumulate, wrapping and
counted -/
def Obligations.PostingUnit : Prop :=
  ∀ (s : State) (id cc : Nat) (d l n fw : Nat),
    let packed (v : Int) : List Chr := (packWords fw v).flatMap Word.chars
    let changed (t : State) (at_ : Nat) (v : Int) : Prop :=
      (∀ j < 4 * fw, Sparse.get 0 (t.die d).m.mem (64 * l + at_ + j) = (packed v).getD j 0) ∧
      (∀ f b, (f ≠ d ∨ b < 64 * l + at_ ∨ 64 * l + at_ + 4 * fw ≤ b) →
        Sparse.get 0 (t.die f).m.mem b = Sparse.get 0 (s.die f).m.mem b)
    (∀ a q ctl no, s.findAccess id = some a → a.st = .admitted → a.parts = [q] → a.op.ctl = some (ctl, no) →
      s.target a.part.val (coreDie a.core) q.pa = some (d, l) → s.alive d = true → s.earlierOut a d l = false →
      s.underRepair d l = false → s.rowWaits d l = false → q.key = 0 ∨ q.key = s.lineKey d l → (s.lineInfo d l).capline = false → fw = ctlFw ctl →
      let f := q.pa % 64 / 4
      let r := postOutcome a.op f (s.lineChars d l)
      let status (t : State) (st : Nat) (dx : Int) : Prop := (t.findAccess id).map Access.st = some (.posted st dx)
      (badControl ctl f no = true →
        ∃ t, exec (.postingRequest id .clean) s = .next t ∧ status t 6 0 ∧ t.u.dies = s.u.dies) ∧
      (badControl ctl f no = false → (s.lineInfo d l).poison = true →
        ∃ t, exec (.postingRequest id .clean) s = .next t ∧ status t 7 0 ∧ t.u.dies = s.u.dies) ∧
      (badControl ctl f no = false → (s.lineInfo d l).poison = false → r.2.2 = none →
        ∃ t, exec (.postingRequest id .clean) s = .next t ∧ status t r.1 r.2.1 ∧ t.u.dies = s.u.dies) ∧
      (∀ v, badControl ctl f no = false → (s.lineInfo d l).poison = false → r.2.2 = some v → a.slot = some n →
        (s.partn a.part.val).joinEpoch = none → s.storeNeedsRoom a { q with claimed := true } d l = false →
        ∃ t, exec (.postingRequest id .clean) s = .next t ∧ status t 0 r.2.1 ∧ changed t (4 * f) v ∧
          v.natAbs < 10 ^ (9 * fw - 1) ∧
          (s.needsImage d l (s.ownImage (coreDie a.core) n) = true → ∃ g, (t.die d).m.images = (s.die d).m.images ++ [g] ∧
            g.line = l ∧ g.chars = s.lineChars d l ∧ g.epoch = s.slotEpoch (s.slot (coreDie a.core) n)))) ∧
    (∀ (ctl : Word) (x y v : Int) (f : Nat) (ch : List Chr),
      let old := packedValue (lineWords ch f (ctlFw ctl))
      let lim := packedValue (lineWords ch (ctlLword ctl) (ctlLw ctl))
      ((postOutcome (.dpost ctl x) f ch).2.2 = some v ↔ (∃ w, old = some w ∧ v = w + x) ∧ v.natAbs < 10 ^ (9 * ctlFw ctl - 1) ∧
        (ctlCheck ctl ≠ 0 → ∃ m, lim = some m ∧ (ctlCheck ctl = 1 → m ≤ v) ∧ (ctlCheck ctl = 2 → v ≤ m))) ∧
      ((postOutcome (.dcas ctl x y) f ch).2.2 = some v ↔ old = some x ∧ v = y ∧ v.natAbs < 10 ^ (9 * ctlFw ctl - 1)) ∧
      ((postOutcome (.dpost ctl x) f ch).2.2 = some v → (postOutcome (.dpost ctl x) f ch).1 = 0) ∧
      ((postOutcome (.dcas ctl x y) f ch).2.2 = none → (postOutcome (.dcas ctl x y) f ch).1 ≠ 0)) ∧
    (∀ a x (c : CoreId) dx w k o (st : Nat) v, s.findAccess id = some a → a.st = .posted st v → a.core = c →
      (s.core c).cur = some x → x.acc = some id → x.instr = .dpost c dx w k o → (s.core c).live = true → (s.core c).regBad = false →
      ∃ t, exec (.postingResult id cc) s = .next t ∧ (t.regs c).wr w = BitVec.ofNat 36 st ∧
        (t.regs c).dr dx = (if st = 8 then (s.regs c).dr dx else v) ∧ (t.core c).cur = none ∧ t.findAccess id = none ∧
        t.u.dies = s.u.dies) ∧
    (∀ (die : DieId) c ep p x rest, die.val = d → (s.die d).m.dacc = (c, ep, p, x) :: rest → x.line = l → x.fw = fw →
      s.outerWaits d l = false →
      (s.verdict { part := p, die := d, sys := x.sys, anyPart := false } (linePa d l + 4 * x.word) .acc true).reason = 0 →
      x.key = 0 ∨ x.key = s.lineKey d l → (s.lineInfo d l).poison = false → (s.partn p.val).joinEpoch = none →
      s.imageRoom d = true →
      let old := packedValue (lineWords (s.lineChars d l) x.word fw)
      (old = none → ∃ t, exec (.daccApply die .clean) s = .next t ∧ (t.die d).m.dacc = rest ∧
        (t.die d).daccSkip = (s.die d).daccSkip + 1 ∧ (t.die d).m.mem = (s.die d).m.mem) ∧
      (∀ v, old = some v → ∃ t, exec (.daccApply die .clean) s = .next t ∧ (t.die d).m.dacc = rest ∧
        changed t (4 * x.word) (accumulate (9 * fw - 1) v x.x) ∧
        (t.die d).daccWrap = (s.die d).daccWrap + (if accumulate (9 * fw - 1) v x.x = v + x.x then 0 else 1))) ∧
    (∀ m : Nat, ∀ v x : Int, 0 < m → (accumulate m v x - (v + x)) % 10 ^ m = 0 ∧ -(5 * 10 ^ (m - 1)) ≤ accumulate m v x ∧
      accumulate m v x < 5 * 10 ^ (m - 1))

/-- Claims queue at their engine, are granted in position order, and are freed by their release; frontiers travel between
dies -/
def Obligations.ClaimEngine : Prop :=
  ∀ (s : State) (d : DieId),
    let got (sel : Msg → Bool) (m : Msg) (rest : List Msg) : Prop := takeMsg sel [] s.msgs = some (m, rest)
    (∀ sel l m l', takeMsg sel [] l = some (m, l') → sel m = true ∧ ∃ a b, l = a ++ m :: b ∧ l' = a ++ b ∧
      ∀ x ∈ a, x.lane ≠ m.lane) ∧
    (∀ c rest, got (fun m => match m with | .claim e _ => decide (e = d) | _ => false) (.claim d c) rest → s.alive d = true →
      ∃ t b, exec (.claimArrive d) s = .next t ∧ t.msgs = rest ∧
        (t.die d).o.claims = (s.die d).o.claims ++ [{ c with granted := false, overflow := b }] ∧
        (b = true ↔ 32768 ≤ ((s.die d).o.claims.filter fun q => !q.overflow && decide (rowOf q.line = rowOf c.line)).length)) ∧
    (∀ line c, (s.die d).o.claims.find? (fun c => decide (c.line = line) && s.grantable d c) = some c →
      (c.overflow = true → readUnit160 c.hurt = .clean) →
      ∃ t, exec (.claimGrant d line) s = .next t ∧ t.msgs = s.msgs ++ [.grant c.fromDie c.slot line d c.pos] ∧
        { c with granted := true } ∈ (t.die d).o.claims ∧ c.granted = false ∧ tickLe c.pos.tick (s.dieHorizon d) = true ∧
        s.frontiersPassed d c.part c.pos = true ∧
        ∀ q ∈ (s.die d).o.claims, q.meets c = true → q.pos.before c.pos = false) ∧
    (∀ line, (∀ c ∈ (s.die d).o.claims, c.line = line → s.grantable d c = false) → exec (.claimGrant d line) s = .next s) ∧
    (∀ n line e pos rest ns, got (fun m => match m with | .grant f _ _ _ _ => decide (f = d) | _ => false)
        (.grant d n line e pos) rest → (s.slot d n).pos = pos →
      (∃ q ∈ (s.slot d n).claims, q.die = e.val ∧ q.line = line) → ∃ t, exec (.grantReceive d ns) s = .next t ∧ t.msgs = rest ∧
        (∀ q ∈ (t.slot d n).claims, q.die = e.val → q.line = line → q.granted = true) ∧
        ((t.slot d n).claims.map fun q => (q.die, q.line)) = (s.slot d n).claims.map (fun q => (q.die, q.line)) ∧
        ((s.slot d n).st = .declared → (∀ q ∈ (t.slot d n).claims, q.granted = true) → (t.slot d n).st = .granted) ∧
        (∀ m, m ≠ n → t.slot d m = s.slot d m)) ∧
    (∀ line n src rest, got (fun m => match m with | .claimRelease e _ _ _ => decide (e = d) | _ => false)
        (.claimRelease d line n src) rest → ∃ t, exec (.claimRelease d) s = .next t ∧
      ((t.die d).o.claims.map fun q => (q.line, q.slot, q.fromDie, q.pos)) = ((s.die d).o.claims.filter
        (fun q => !(decide (q.line = line) && decide (q.slot = n) && decide (q.fromDie = src)))).map
          fun q => (q.line, q.slot, q.fromDie, q.pos)) ∧
    (∀ p : PartId, s.alive d = true → Sparse.get none (s.die d).o.frontSent p ≠ some (s.frontierOf d p) → s.tandemOf p = none →
      ∃ t, exec (.frontierSend d p) s = .next t ∧ Sparse.get none (t.die d).o.frontSent p = some (s.frontierOf d p) ∧
        ∀ e : DieId, e ≠ d → e.val ∈ s.ledgerDies p → Msg.frontier d e p (s.frontierOf d p) ∈ t.msgs) ∧
    (∀ src p f rest, got (fun m => match m with | .frontier _ e _ _ => decide (e = d) | _ => false) (.frontier src d p f) rest →
      ∃ t, exec (.frontierReceive d) s = .next t ∧ t.msgs = rest ∧
        Sparse.get none (t.die d).o.frontier (16 * src + p) = some f ∧ (t.die d).o.claims = (s.die d).o.claims)

/-- The gate decides each transaction once; its answer ends TXN.COMMIT and TXN.ABORT; aborted lines are restored from their
images -/
def Obligations.Resolution : Prop :=
  ∀ (s : State) (d : DieId) (n cc : Nat) (pos : Position) (rest : List Msg),
    let v := s.slot d n
    let got (sel : Msg → Bool) (m : Msg) : Prop := takeMsg sel [] s.msgs = some (m, rest)
    (∀ r t, s.up gateDomain 4 = true →
      got (fun m => match m with | .resolve _ _ _ _ => true | _ => false) (.resolve d n pos r) → v.pos = pos → v.st ≠ .free →
      ((s.partn v.part).txns.find? fun t => decide (t.pos = pos)) = some t → s.curfewDue v.part t = false →
      let want : Outcome := match r with | .commit => .committed | .abort => .software | .memerr => .memerr
      (r ≠ .memerr → ∃ u, exec .resolveRequest s = .next u ∧
        u.msgs = rest ++ [.answer d n pos (t.outcome.getD want)] ∧
        (t.outcome = none → ∀ g ∈ (u.partn v.part).txns, g.pos = pos → g.outcome = some want) ∧
        (t.outcome = none → (u.partn v.part).cnt = (s.partn v.part).cnt.decided want) ∧
        (t.outcome ≠ none → (u.partn v.part).txns = (s.partn v.part).txns)) ∧
      (∀ o, r = .memerr → t.outcome = some o →
        exec .resolveRequest s = .next ({ s with msgs := rest }.post (.answer d n pos o))) ∧
      (r = .memerr → t.outcome = none → s.h.mirror.role ≠ 2 → ∃ u, exec .resolveRequest s = .next u ∧
        (∀ g ∈ (u.partn v.part).txns, g.pos = pos → g.outcome = some .memerr) ∧
        (n ∈ s.slotsOf d v.part → Msg.notice d n pos .memerr ∈ u.msgs))) ∧
    (∀ o (c : CoreId) x ws, got (fun m => match m with | .answer e _ _ _ => decide (e = d) | _ => false) (.answer d n pos o) →
      v.pos = pos → v.st = .resolving → v.core = some c → coreDie c = d → (s.core c).txn = some n → n < 512 →
      (s.core c).cur = some x → x.gate = true → (s.core c).live = true → (s.core c).regBad = false →
      (x.instr = .txnCommit c ws → ∃ u, exec (.gateAnswer d cc) s = .next u ∧ (u.core c).txn = none ∧ (u.core c).cur = none ∧
        (u.regs c).wr ws = (if o = .committed then 0 else 1)) ∧
      (x.instr = .txnAbort c ws → o ≠ .committed → ∃ u, exec (.gateAnswer d cc) s = .next u ∧ (u.core c).txn = none ∧
        (u.core c).cur = none ∧ (u.regs c).wr ws = (if o = .software then 1 else 2))) ∧
    (∀ o c, got (fun m => match m with | .notice e _ _ _ => decide (e = d) | _ => false) (.notice d n pos o) → v.pos = pos →
      v.st = .taken ∨ v.st = .declared ∨ v.st = .granted → v.core = some c → o ≠ .committed →
      ∃ u, exec (.abortNotice d) s = .next u ∧ (u.slot d n).st = .aborted ∧ (u.slot d n).outcome = some o ∧
        (u.slot d n).restored = v.restored ∧
        (u.regs c).sp.ipend = BitVec'.setAt (s.regs c).sp.ipend Item.aborted.position true ∧
        ∀ m, m ≠ c.val → u.core m = s.core m) ∧
    (v.st = .aborted → v.restored = false → s.txnStoresOut d n = false →
      exec (.abortRestore d n) s = .next ((s.restoreSlot d n).tryFree d n) ∧
      (s.restoreSlot d n).slot d n = { v with restored := true, acc := [], claims := [], borrowed := false } ∧
      ∀ e < 8, (∀ g ∈ (s.die e).m.images, g.chars.length = 64 ∧ g.hurt = []) →
        ((s.die e).m.images.filter (s.ownImage d n)).Pairwise (fun a b => a.line ≠ b.line) →
        (∀ g ∈ (s.die e).m.images, s.ownImage d n g = true →
          (s.restoreSlot d n).lineChars e g.line = g.chars ∧ (s.restoreSlot d n).lineInfo e g.line = g.info) ∧
        (∀ l, (∀ g ∈ (s.die e).m.images, s.ownImage d n g = true → g.line ≠ l) →
          (s.restoreSlot d n).lineChars e l = s.lineChars e l ∧ (s.restoreSlot d n).lineInfo e l = s.lineInfo e l)) ∧
    (∀ line, s.underRepair d line = true → ∃ u, exec (.repairTimeout d line) s = .next u ∧
      (u.lineInfo d line).poison = true ∧ u.underRepair d line = false ∧
      ∀ l, l ≠ line → u.lineInfo d l = s.lineInfo d l ∧ u.underRepair d l = s.underRepair d l)

/-- The tick edge and its scheduled actions: ticks count, Curfew aborts, stand-ins depart, epochs seal and are released,
alarms fire -/
def Obligations.TickEdgeActions : Prop :=
  ∀ (s : State) (d : DieId) (p : PartId) (c : CoreId),
    let g := s.h.sd.g
    let u := s.unwrapped + 1
    let q := s.partn p
    (s.ticking = true → ∃ t, exec .tickEdge s = .next t ∧ t.h.sd.g.tick = g.tick + 1 ∧
      t.h.sd.g.time = BitVec.ofNat 72 (g.origin * 1000000000 + u * g.tickNs) ∧ t.h.sd.g.epoch = u / g.epochTicks % 2 ^ 72 ∧
      t.h.sd.g.era = BitVec.ofNat 36 (u / 2 ^ 48) ∧ t.h.sd.edgeStep = 1 ∧
      (∀ e < 8, (t.die e).o.tick = if s.alive e = true ∧ (s.die e).member = true then (s.die e).o.tick + 1 else (s.die e).o.tick) ∧
      t.u.cores = s.u.cores ∧ t.u.clusters = s.u.clusters) ∧
    (s.ticking = false → ∃ t, exec .tickEdge s = .next t ∧ t.h.sd.g.tick = g.tick ∧ t.u = s.u ∧
      t.h.sd.g.time = if (g.st = .unset ∧ s.h.sd.running = true) ∨ (g.st ≠ .unset ∧ g.time.toNat + g.tickNs < g.originNs) then
        BitVec.ofNat 72 (g.time.toNat + g.tickNs) else g.time) ∧
    (s.ticking = true → s.alive d = true → (s.die d).member = true →
      ((s.die d).o.tick = g.tick → exec (.tickCheck d) s = .next s) ∧
      ((s.die d).o.tick ≠ g.tick → ∃ t, exec (.tickCheck d) s = .next t ∧
        (t.die d).fenceDue = some ((s.die d).fenceDue.getD .tickCheck) ∧ t.h.elCount = s.h.elCount + 1)) ∧
    (s.ticking = true → s.h.sd.edgeStep ≤ 2 → s.up gateDomain 4 = true → ∃ t, exec (.curfewCheck p) s = .next t ∧
      (∀ x ∈ q.txns, s.curfewDue p x = true → ∀ y ∈ (t.partn p).txns, y.pos = x.pos → y.outcome = some .curfew) ∧
      (∀ x ∈ q.txns, (∀ y ∈ q.txns, s.curfewDue p y = true → y.pos ≠ x.pos) → x ∈ (t.partn p).txns) ∧
      (t.partn p).standins.length = q.standins.length + (q.txns.filter (s.curfewDue p)).length ∧ t.h.sd.edgeStep = 2) ∧
    (∀ x l, q.standins = x :: l → ∃ t, exec (.standinResponse p) s = .next t ∧ (t.partn p).standins = l ∧
      (x.org.host = true → ∃ r, Sparse.get [] t.h.host.resp p = Sparse.get [] s.h.host.resp p ++ [r] ∧ r.outcome = 3 ∧ r.pos = x.pos ∧
        r.body = s.standinBody p x.octets ∧ (t.partn p).cnt.standin = q.cnt.standin + 1) ∧
      (x.org.host = false → (s.servingPort p x.org.port).isSome = true → (t.partn p).cnt.standin = q.cnt.standin + 1)) ∧
    (s.ticking = true → s.h.sd.edgeStep ≤ 3 → s.sealing p = true → s.up gateDomain 4 = true →
      let x := (s.updSd fun z => { z with edgeStep := 3 }).takeDigests p
      let e := epochNext q.sealed
      let n := (x.epochOf x.hubHorizon + 1 + 2 ^ 72 - q.sealed % 2 ^ 72) % 2 ^ 72
      (x.sealable p e = false → ∃ t, exec (.epochSeal p) s = .next t ∧ (t.partn p).sealed = q.sealed) ∧
      (x.sealable p e = true → 0 < n → n < 2 ^ 71 → (x.updPartn p fun z => { z with sealed := e }).sealable p (epochNext e) = false →
        ∃ t, exec (.epochSeal p) s = .next t ∧ (t.partn p).sealed = e)) ∧
    (s.ticking = true → s.h.sd.edgeStep ≤ 4 → s.sealing p = true → s.followers = [] → q.sealed < 2 ^ 72 → q.released < 2 ^ 72 →
      let n := (q.sealed + 2 ^ 72 - q.released) % 2 ^ 72
      n < 2 ^ 71 → ∃ t, exec (.releaseLaunch p) s = .next t ∧ (t.partn p).released = q.sealed ∧
        ∀ e : DieId, e.val ∈ s.members → 0 < n → Msg.release e p q.sealed ∈ t.msgs) ∧
    (∀ w, (s.core c).alarm = some w → (s.core c).running = true → s.ticking = true → s.alive (coreDie c) = true →
      (s.die (coreDie c)).member = true → (s.die (coreDie c)).o.edgeStep ≤ 5 →
      let late := (BitVec.ofNat 36 (s.die (coreDie c)).o.tick.toNat - w).toNat < 2 ^ 35
      (late → (s.core c).alarmTick ≠ some (s.die (coreDie c)).o.tick → ∃ t, exec (.alarmFire c) s = .next t ∧ (t.core c).alarm = none ∧
        (t.regs c).sp.ipend = BitVec'.setAt (s.regs c).sp.ipend Item.alarm.position true) ∧
      (¬ late → ∃ t, exec (.alarmFire c) s = .next t ∧ t.u.cores = s.u.cores))

/-- Releases reach each die and become visible; Horizons are announced and received; stalls, scrubbing and snapshots -/
def Obligations.EpochsAndHorizons : Prop :=
  ∀ (s : State) (d : DieId) (p : PartId) (rest : List Msg),
    let o := (s.die d).o
    let got (sel : Msg → Bool) (m : Msg) : Prop := takeMsg sel [] s.msgs = some (m, rest)
    (∀ e, Sparse.get none o.holding p = none → s.alive d = true →
      got (fun m => match m with | .release x q _ => decide (x = d) && decide (q = p) | _ => false) (.release d p e) →
      ∃ t, exec (.releaseReceive d p) s = .next t ∧ t.msgs = rest ∧ Sparse.get none (t.die d).o.holding p = some e ∧
        (t.die d).o.visible = o.visible) ∧
    (∀ e, Sparse.get none o.holding p = some e →
      (s.readsOut d p = true ∨ s.changesOpen p e = true → exec (.visibleEpochSwitch d p) s = .next s) ∧
      (s.readsOut d p = false → s.changesOpen p e = false → ∃ t, exec (.visibleEpochSwitch d p) s = .next t ∧
        Sparse.get 0 (t.die d).o.visible p = e ∧ Sparse.get none (t.die d).o.holding p = none ∧ Msg.switched d p e ∈ t.msgs ∧
        (∀ a ∈ t.accesses, coreDie a.core = d.val → a.part = p → a.held = false) ∧ (t.die d).m.mem = (s.die d).m.mem)) ∧
    (let e := epochNext (s.partn p).visible
     epochLe e (s.partn p).released = true → s.members ≠ [] →
     (∀ n ∈ s.members, ∃ h : n < 8, Msg.switched ⟨n, h⟩ p e ∈ s.msgs) → ∃ t, exec (.hubVisibleSwitch p) s = .next t ∧
      (t.partn p).visible = e ∧ (∀ x ∈ (t.partn p).txns, epochLe x.epoch e = true → x.outcome = none) ∧
      (∀ n < 8, ∀ i ∈ (t.die n).m.images, i.join = false → i.part = p → epochLe i.epoch e = false) ∧
      ∀ n, (t.die n).m.mem = (s.die n).m.mem) ∧
    (s.ticking = true → s.alive d = true → (s.die d).member = true →
      let own := s.ownHorizon o.tick fun v => v.landedOn d
      let z := if s.h.sd.opened then laterTick o.hzSent own else own
      ∃ t, exec (.horizonAnnounce (.die d)) s = .next t ∧ (t.die d).o.hzSent = z ∧ Msg.horizon (.die d) .hub z ∈ t.msgs ∧
        ∀ e : DieId, e ≠ d → e.val ∈ s.members → Msg.horizon (.die d) (.die e) z ∈ t.msgs) ∧
    (s.ticking = true →
      let own := s.ownHorizon s.tick fun v => v.org.host
      let z := if s.h.sd.opened then laterTick s.h.sd.hzHub own else own
      ∃ t, exec (.horizonAnnounce .hub) s = .next t ∧ t.h.sd.hzHub = z ∧
        ∀ e : DieId, e.val ∈ s.members → Msg.horizon .hub (.die e) z ∈ t.msgs) ∧
    (∀ e h, got (fun m => match m with | .horizon a b _ => decide (a = .die e) && decide (b = .die d) | _ => false)
        (.horizon (.die e) (.die d) h) → ∃ t, exec (.horizonReceive (.die d) (.die e)) s = .next t ∧ t.msgs = rest ∧
      Sparse.get 0 (t.die d).o.hzSeen e = h ∧ (t.die d).o.tick = o.tick) ∧
    (∀ h, got (fun m => match m with | .horizon a b _ => decide (a = .hub) && decide (b = .die d) | _ => false)
        (.horizon .hub (.die d) h) → ∃ t, exec (.horizonReceive (.die d) .hub) s = .next t ∧ Sparse.get 0 (t.die d).o.hzSeen 8 = h) ∧
    (∀ e h, got (fun m => match m with | .horizon a b _ => decide (a = .die e) && decide (b = .hub) | _ => false)
        (.horizon (.die e) .hub h) → ∃ t, exec (.horizonReceive .hub (.die e)) s = .next t ∧ Sparse.get 0 t.h.sd.hzSeen e = h) ∧
    (s.h.sd.stalled.getLsbD d = false → s.lagBeyond d (s.paramN 15 0 2000) = true → ∃ t, exec (.horizonStall d) s = .next t ∧
      t.h.sd.stalled.getLsbD d = true ∧ t.h.elCount = s.h.elCount + 1) ∧
    (s.lagBeyond d (4 * s.paramN 15 0 2000) = true → ∃ t, exec (.horizonStallFence d) s = .next t ∧
      (t.die d).fenceDue = some ((s.die d).fenceDue.getD .stall)) ∧
    (∀ row : Bool, let k := if row then 1 else 0
      let n := s.paramN 25 0 4
      let u := Sparse.get 0 (s.die d).scrub k
      s.ticking = true → s.alive d = true → (s.die d).member = true → o.edgeStep ≤ 6 → s.up (13 * d + 8 + k) 4 = true →
      u + n < rowUnits →
      ∃ t, exec (.scrubSlice d row (List.replicate n .clean)) s = .next t ∧ Sparse.get 0 (t.die d).scrub k = u + n ∧
        (t.die d).m = (s.die d).m) ∧
    (s.tick.toNat % s.h.host.g.snapPeriod = 0 → s.ticking = true → s.h.sd.edgeStep ≤ 7 →
      ∃ t, exec .statisticsSnapshot s = .next t ∧ t.h.host.snap.seq = (s.h.host.snap.seq + 2) % 2 ^ 64 ∧
        t.h.host.snap.tick = s.tick ∧ t.h.host.g.evt.getLsbD 5 = true ∧
        (∀ n < 16, ∀ w < 10, Sparse.get 0 t.h.host.snap.post (16 * n + w) = s.counterWord n w))

/-- Sources move the Sundial between its states; timers report; ORIGIN starts the ticks; SD_SET, GRANT_MAX and register
writes -/
def Obligations.SundialAndRegisters : Prop :=
  ∀ (s : State) (b : Bool) (time loc : Pair) (gap : Nat) (v : Word),
    let g := s.h.sd.g
    let off : Int := time.toNat - loc.toNat
    let run (i : Instr) (f : State → Prop) : Prop := ∃ t, exec i s = .next t ∧ f t
    (s.sourceKind b = 0 → exec (.sourceMeasurement b time loc gap) s = .next s) ∧
    (s.measurable b = false → exec (.sourceMeasurement b time loc gap) s = .next s) ∧
    (g.st = .unset → s.sourceKind b ≠ 0 → s.measurable b = true → run (.sourceMeasurement b time loc gap) fun t =>
      t.h.sd.g.st = .acquiring ∧ t.h.sd.g.which = b ∧ t.h.sd.g.time = time) ∧
    (g.st = .locked → g.which = b → s.sourceKind b ≠ 0 → s.sourceKind b ≠ 3 → s.measurable b = true →
      (b = false → s.h.sd.opened = true → off.natAbs ≤ s.paramN 11 0 1000 → run (.sourceMeasurement b time loc gap) fun t =>
        t.h.sd.g.st = .locked ∧ t.h.sd.g.which = b ∧ t.h.sd.g.offset = satOffset off ∧
        t.h.sd.g.freq = ((s.servoOf b).1.next (s.param 12 0 100) (s.servoOf b).2 (-off)).2 ∧
        t.h.sd.g.slewing = decide (s.paramN 9 0 100 < off.natAbs) ∧ t.h.sd.g.time = g.time) ∧
      (s.paramN 11 0 1000 < off.natAbs → (s.h.sd.source (!b)).qualified = false →
        run (.sourceMeasurement b time loc gap) fun t => t.h.sd.g.st = .holdover ∧ t.h.sd.g.which = b) ∧
      (s.paramN 11 0 1000 < off.natAbs → (s.h.sd.source (!b)).qualified = true →
        run (.sourceMeasurement b time loc gap) fun t => t.h.sd.g.st = .locked ∧ t.h.sd.g.which = !b)) ∧
    ((s.h.sd.source b).seen = true → g.st = .locked →
      (g.which = b → (s.h.sd.source (!b)).qualified = false → run (.sourceLoss b) fun t => t.h.sd.g.st = .holdover) ∧
      (g.which = b → (s.h.sd.source (!b)).qualified = true → run (.sourceLoss b) fun t =>
        t.h.sd.g.st = .locked ∧ t.h.sd.g.which = !b) ∧
      (g.which ≠ b → run (.sourceLoss b) fun t => t.h.sd.g = g ∧ (t.h.sd.source b).qualified = false)) ∧
    (g.st = .unset → s.sourceKind false = 3 → s.sourceKind true ≠ 3 → s.h.sd.running = true → s.h.sd.secondsTaken = false →
      run (.ppsEdge loc) fun t => t.h.sd.g.st = .acquiring ∧ t.h.sd.secondsTaken = true ∧
        t.h.sd.g.time = BitVec.ofNat 72 (nearestSecond s.h.sd.setTaken.toNat)) ∧
    (s.sourceKind false ≠ 3 → s.sourceKind true ≠ 3 → exec (.ppsEdge loc) s = .next s) ∧
    (let second := ceilDiv g.time.toNat 1000000000 * 1000000000
     (g.st ≠ .unset → second < g.time.toNat + g.tickNs → exec .ppsOutPulse s = .next (s.emit .pps)) ∧
     (g.st = .unset ∨ g.time.toNat + g.tickNs ≤ second → exec .ppsOutPulse s = .next s)) ∧
    (g.st ≠ .unset → g.beforeOrigin = true → run .originReached fun t => t.h.sd.g.beforeOrigin = false ∧ t.h.sd.g.tick = 0 ∧
      t.h.sd.g.era = 0 ∧ t.h.sd.g.time = BitVec.ofNat 72 (g.origin * 1000000000)) ∧
    (s.h.plan.eff.isSome = true → s.h.sd.lockReported = false → s.h.sd.opened = false → g.st ≠ .locked → g.st ≠ .free →
      run .lockWaitExpiry fun t => t.h.sd.lockReported = true ∧ t.h.elCount = s.h.elCount + 1) ∧
    (let limit := s.paramN 13 0 0
     g.st = .holdover → limit ≠ 0 → s.h.sd.holdReported = false →
      limit * 1000 < g.holdMs →
      run .holdLimitExpiry fun t => t.h.sd.holdReported = true ∧ t.h.elCount = s.h.elCount + 1) ∧
    (g.st = .unset → run (.sdSetLoWrite v) fun t => t.h.sd.g.setLo = v ∧ t.h.sd.g.time = g.setHi ++ v ∧ t.h.sd.running = true) ∧
    (g.st ≠ .unset → exec (.sdSetLoWrite v) s = .next s) ∧
    (∀ p : PartId, run (.grantMaxRead p) fun t => t.sent = s.sent ++ [.completion [(s.partn p).cnt.grantMax.zeroExtend 64] false] ∧
      (t.partn p).cnt.grantMax = 0 ∧ (t.partn p).txns = (s.partn p).txns) ∧
    (∀ (d : DieId) (p : PartId) (q w : Fin 8), exec (.registerWrite (.queue d p q w v)) s =
      .next (s.updQueue d p q fun x => x.writeWord w v)) ∧
    (exec (.registerWrite (.space2 64 v)) s = .next (if v.msb then s.updSdRegs fun g => { g with err := 0 } else s)) ∧
    (exec (.registerWrite (.space2 60 v)) s = exec (.sdSetLoWrite v) s) ∧
    (∀ n < 64, exec (.registerWrite (.space2 (8192 + 64 * n) v)) s = .next (if v.msb then s.updGate n fun x =>
      { x with status := 0, source := 0, addrHi := 0, addrLo := 0, stamp := 0 } else s)) ∧
    (∀ c < 512, s.h.pwr.st ≠ .night → exec (.registerWrite (.space2 (131072 + 64 * c + 8) v)) s =
      .next (s.updCore c fun k => { k with diagSel := BitVec.ofNat 36 (min v.toNat 57) }))

/-- Ports take, count and send frames by priority; PTP messages; queue pointers move only within bounds; Boardwalk link
errors -/
def Obligations.PortsAndQueues : Prop :=
  ∀ (s : State) (n : PortId) (o : List Octet) (d : DieId) (p : PartId) (q : Fin 8),
    let z := s.port n
    let run (i : Instr) (f : State → Prop) : Prop := ∃ t, exec i s = .next t ∧ f t
    (z.up = false → (∀ a b, exec (.frameReceive n o a b) s = .next s) ∧ exec (.frameTransmit n) s = .next s) ∧
    (z.up = true → n.val < 32 → s.alive (n / 4) = true → s.portExists n = true →
      (∀ a b, o.length < 60 ∨ 9212 < o.length → run (.frameReceive n o a b) fun t =>
        (t.port n).cnt.rxErr = z.cnt.rxErr + 1 ∧ (t.port n).inbox = z.inbox ∧ t.u.dies = s.u.dies) ∧
      (∀ e, 60 ≤ o.length → o.length ≤ 9212 → parseEth o = some e → e.etype = 0x8808 → run (.frameReceive n o true true) fun t =>
        (t.port n).cnt.rxPause = z.cnt.rxPause + 1 ∧ (t.port n).inbox = z.inbox) ∧
      (∀ e i m, 60 ≤ o.length → o.length ≤ 9212 → parseEth o = some e → e.etype ≠ 0x8808 → s.h.mirror.role ≠ 2 →
        (s.planPort n).takesVid e.vid = true → s.takesMac n e.dst = true → s.classify n e true = .lpt i →
        parseLpt i.udpBody (framePeer e i) = some m → run (.frameReceive n o true true) fun t =>
          (t.port n).inbox = z.inbox ++ [m] ∧ (t.port n).cnt.rxFrames = z.cnt.rxFrames + 1)) ∧
    (z.up = true → 32 ≤ n.val → 60 ≤ o.length → o.length ≤ 9212 → ∀ e f, parseEth o = some e → e.etype = 0x88B5 →
      s.parseMFrame e.body = some f → s.h.mirror.term ≤ f.term → f.body.isHeart = true ∨ s.up 113 4 = true → run (.frameReceive n o true true) fun t =>
        t.h.mirror.inbox = s.h.mirror.inbox ++ [f] ∧ (Sparse.get MPeer.reset t.h.mirror.peers f.src).heard = true) ∧
    (z.up = true → s.mute n = false → (n.val < 32 → s.alive (n / 4) = true ∧ s.portExists n = true) → ∀ e, z.nextOut = some e →
      run (.frameTransmit n) fun t => t.sent = s.sent ++ [.frame n e.2] ∧ (t.port n).out = z.out.erase e ∧
        (t.port n).cnt.txFrames = z.cnt.txFrames + 1) ∧
    (∀ e, z.nextOut = some e → e ∈ z.out ∧ ∀ f ∈ z.out, e.1 / 16 ≤ f.1 / 16) ∧
    (∀ lanes fec up, (n.val < 32 → s.alive (n / 4) = true ∧ s.portExists n = true) →
      (up = true → s.up (portDomain n) 4 = true) →
      exec (.linkStateChange n lanes fec up) s = .next (s.updPort n fun x => { x with lanes := lanes, fec := fec, up := up })) ∧
    (∀ o1 l e x, z.ptpIn = o1 :: l → parseEth o1 = some e →
      let m := e.ptp.2
      let type := beAt m 0 1 % 16
      let from_ := beAt m 20 10
      let next := s.updPort n fun x => { x with ptpIn := l }
      let ours := e.ptp.1 = s.paramN 63 n 1 ∧ 34 ≤ m.length ∧ beAt m 1 1 % 16 = 2 ∧ beAt m 4 1 = s.paramN 61 n 0
      (¬ ours → exec (.ptpMessage n x) s = .next next) ∧
      (ours → type = 12 ∨ type = 13 → run (.ptpMessage n x) fun t =>
        (t.port n).ptpIn = l ∧ (t.port n).cnt.rxPtp = z.cnt.rxPtp + 1 ∧ (t.port n).ptp = z.ptp) ∧
      (ours → type = 11 → m.length = 64 → run (.ptpMessage n x) fun t =>
        (t.port n).ptpIn = l ∧ (t.port n).ptp = z.ptp.announce from_ (ptpDataset m) ∧ (t.port n).cnt.rxPtp = z.cnt.rxPtp) ∧
      (ours → type = 9 → m.length = 54 → beAt m 44 10 = ptpIdentity (s.portMac n) → beAt m 30 2 = z.ptp.reqSeq →
        s.paramN 62 n 0 ≠ 1 → z.ptp.server = some from_ → z.ptp.pend = false → run (.ptpMessage n x) fun t => (t.port n).ptpIn = l ∧
          (t.port n).ptp.pathDelay = ((z.ptp.t2 - (x.tx + s.delayNs 1 n)) + (ptpTime m 34 - z.ptp.t1) - z.ptp.corr -
            signed 64 (beAt m 8 8) / 65536) / 2)) ∧
    (s.isPtpSource n = true → s.mute n = false → run (.ptpDelayRequest n) fun t => ∃ f, (t.port n).out = z.out ++ [(32, f)]) ∧
    (let r := s.queue d p q
     let m := 2 ^ (r.size + 1)
     ∀ v < 2 ^ 36, r.en = true →
      (r.kind = 1 → ((v % m + m - r.rptr) % m ≤ r.used →
          exec (.queueRptrWrite d p q v) s = .next (s.setQueue d p q { r with rptr := v % m })) ∧
        (r.used < (v % m + m - r.rptr) % m →
          exec (.queueRptrWrite d p q v) s = .next (s.setQueue d p q { r with qerr := true }))) ∧
      (r.kind = 2 → (r.used + (v % m + m - r.wptr) % m ≤ 2 ^ r.size →
          exec (.queueWptrWrite d p q v) s = .next (s.setQueue d p q { r with wptr := v % m })) ∧
        (2 ^ r.size < r.used + (v % m + m - r.wptr) % m →
          exec (.queueWptrWrite d p q v) s = .next (s.setQueue d p q { r with qerr := true })))) ∧
    (run (.queueCondition d p q) fun t => (t.queue d p q).cond = (s.queue d p q).condition (s.die d).qram ∧
      (t.die d).qram = (s.die d).qram ∧
      ((s.queue d p q).hen = false → t.sent = s.sent)) ∧
    (∀ l, s.alive (BwLink.die l) = true →
      (run (.boardwalkLinkRetry l) fun t => t.h.elCount = s.h.elCount + 1 ∧ t.u.dies = s.u.dies) ∧
      (run (.boardwalkLinkLost l) fun t => t.h.elCount = s.h.elCount + 1 ∧
        (t.die (BwLink.die l)).fenceDue = some ((s.die (BwLink.die l)).fenceDue.getD .link)))

/-- Sessions open, are acknowledged and close; a request lands on its admit die and is admitted or refused; responses depart
-/
def Obligations.PostingTransport : Prop :=
  ∀ (s : State) (n : PortId) (m : Lpt) (ms : List Lpt) (d : DieId) (p : PartId),
    let z := s.port n
    let s0 := s.updPort n fun x => { x with inbox := ms }
    let run (i : Instr) (f : State → Prop) : Prop := ∃ t, exec i s = .next t ∧ f t
    (z.inbox = m :: ms →
      (m.type = 1 → s0.admits = true → s.paramN 56 n 0 ≠ 2 → s0.tableBase n m.peer = 0 → (∀ e ∈ z.sessions, e.2.isOpen = false) →
        0 < s.paramN 49 n 16384 → run (.open_ n) fun t =>
          let x := t.session n 0
          x.isOpen = true ∧ x.peer = m.peer ∧ x.nonce = m.sid ∧ x.base = m.seq ∧ x.gen = (s.session n 0).gen ∧ (t.port n).inbox = ms) ∧
      (m.type = 1 → s0.admits = false → (∀ e ∈ z.sessions, e.2.isOpen = false) → run (.open_ n) fun t =>
        (t.port n).cnt.refused = z.cnt.refused + 1 ∧ (t.port n).inbox = ms ∧ ∀ i, (t.session n i).isOpen = false) ∧
      (m.type = 3 → s0.msgSession n m = none → run (.request n) fun t =>
        (t.port n).cnt.noSession = z.cnt.noSession + 1 ∧ (t.port n).cnt.refused = z.cnt.refused + 1 ∧ (t.port n).inbox = ms) ∧
      (∀ x a, m.type = 3 → s0.msgSession n m = some x → s0.reqRow n m = .land p a →
        let s1 := (s0.updSession n (s0.msgKey n m) fun y => { y with lastTick := s0.tick }).clientAck n m x
        let tick := (s.die (n / 4)).o.tick
        let at_ : Position := { tick := tick, port := BitVec.ofNat 6 n, seq := BitVec.ofNat 18 (if z.seqTick = tick then z.seq else 0) }
        (∃ s2 ptr, s1.reserveFrame a p m.octets.length = some (s2, ptr) ∧
          let s3 := ((s2.updSession n (s0.msgKey n m) fun y => y.setNum m.seq .inflight).stampPort n).1
          exec (.request n) s =
            .next (s3.land (n / 4) a { (s3.requestSlot n { m with peer := x.peer } p at_) with place := some ptr })) ∧
        (n / 4 ≠ a.val → run (.request n) fun t => ∃ v, Msg.copy a v false none ∈ t.msgs ∧ v.part = p ∧ v.pos = at_ ∧
          v.octets = m.octets ∧ v.org.sid = m.sid ∧ v.org.seq = m.seq)) ∧
      (∀ x, m.type = 6 → s0.msgSession n m = some x → 2 ^ 31 ≤ (m.ack - x.base).toNat → run (.ack n) fun t =>
        (t.port n).inbox = ms ∧ (t.session n (s0.msgKey n m)).lastTick = s.tick ∧
        ∀ e ∈ (t.port n).cached, e.departed = true → e.sid = m.sid → (e.seq - m.ack).toNat < 2 ^ 31) ∧
      (∀ x, m.type = 8 → s0.msgSession n m = some x → run (.close_ n) fun t =>
        t.session n (s0.msgKey n m) = x.freed ∧ (t.port n).inbox = ms)) ∧
    (∀ i, (s.session n i).isOpen = true →
      exec (.lptSessionIdle n i) s = .next (s.setSession n i (s.session n i).freed) ∧
      (i < 16384 → (s.session n i).ackDue = true → s.adopted n (s.session n i).peer = false → s.paramN 52 n 20 ≠ 0 → s.mute n = false →
        run (.lptAckDelay n i) fun t => (t.session n i).ackDue = false ∧ (t.port n).out.length = z.out.length + 1)) ∧
    (∀ sid seq e, s.cachedFor n sid seq = some e →
      (s.paramN 53 n 0 ≠ 0 → e.sends < s.paramN 54 n 2 → e.due = 0 → s.mute n = false → run (.lptResend n sid seq) fun t =>
        (t.port n).cnt.resent = z.cnt.resent + 1 ∧ { e with sends := e.sends + 1, due := 1 } ∈ (t.port n).cached ∧
        (t.port n).out = z.out) ∧
      (s.paramN 54 n 2 ≤ e.sends → exec (.lptResend n sid seq) s = .next s) ∧
      (run (.lptHoldExpiry n sid seq) fun t => (t.port n).cached = z.cached.erase e)) ∧
    (∀ v rest s1 ptr,
      takeMsg (fun m => match m with | .copy e _ _ _ => decide (e = d) | _ => false) [] s.msgs = some (.copy d v false none, rest) →
      let x := { s with msgs := rest }
      let q := s.queue d v.part 0
      let w : Slot := { v with chars := x.landed (if v.org.host then 4 * d.val else v.org.port) q v.octets, dense := q.dense }
      s.alive d = true → s.tandemOf v.part = none → x.landPacket d w 1 = some (s1, ptr) →
      (s1.admitRefusal d v.part v.octets.length = none → ∃ t k, exec (.frameCopyArrive d) s = .next t ∧
        (s.slot d k).st = .free ∧ t.slot d k = { w with st := .queued, place := some ptr } ∧
        (t.partn v.part).cnt.admitted = (s.partn v.part).cnt.admitted + 1 ∧
        (∃ g ∈ (t.partn v.part).txns, g.pos = v.pos ∧ g.curfew = v.curfew ∧ g.outcome = none) ∧ ∀ j, j ≠ k → t.slot d j = s.slot d j) ∧
      (∀ reason, s1.admitRefusal d v.part v.octets.length = some reason → ∃ t, exec (.frameCopyArrive d) s = .next t ∧
        (t.partn v.part).cnt.refused = (s.partn v.part).cnt.refused + 1 ∧ (t.die d).o.slots = (s.die d).o.slots)) ∧
    (n.val < 32 → s.alive (n / 4) = true → s.mute n = false →
      (s.departing n p = [] → exec (.departurePass n p) s = .next s) ∧
      (∀ e, s.departing n p = [e] → (s.slot e.die e.slot).org.port / 4 = n / 4 →
        run (.departurePass n p) fun t => { e with due := 1 } ∈ (t.port n).cached ∧ (t.port n).out = z.out) ∧
      (∀ e, z.up = true → s.portExists n = true → z.nextOut = none → z.nextResponse = some e →
        (s.packetRead (n / 4) e.part (4 + n % 4) e.ptr).2 = false →
        run (.frameTransmit n) fun t => (∃ f, t.sent = s.sent ++ [.frame n f]) ∧
          { e with departed := true, due := e.due - 1, tick := (s.die (n / 4)).o.tick } ∈ (t.port n).cached ∧
          (e.departed = false → (t.slot e.die e.slot).departed = true ∨ (t.slot e.die e.slot).st = .free)))

/-- Digests are sent when an epoch is done; a difference starts a re-execution; a fence stops the die and drops its traffic
-/
def Obligations.TandemCommands : Prop :=
  ∀ (s : State) (d : DieId) (p : PartId),
    let q := s.partn p
    let e := s.nextDigest d p q.visible (q.digests.length + s.msgs.length)
    (s.h.mirror.role ≠ 2 → s.h.sd.opened = true → s.alive d = true → s.runs p d = true →
      tickLe (s.lastTick e) (s.dieHorizon d) = true →
      (s.epochDone d p e = true → exec (.digestSend d p) s = .next (s.post (.digest d p e (s.digest d p e).1 (s.digest d p e).2)).edgePassed) ∧
      (s.epochDone d p e = false → exec (.digestSend d p) s = .next s)) ∧
    (s.alive d = false → exec (.digestSend d p) s = .next s) ∧
    (let x := s.takeDigests p
     (q.st = .stopped ∨ q.st = .joining → exec (.digestCompare p) s = .next x.edgePassed) ∧
     (∀ k a b, q.st = .normal → s.tandemOf p = some k → s.alive (2 * k) = true → s.alive (2 * k + 1) = true →
      (x.partn p).digestOf (2 * k) (epochNext q.sealed) = some a → (x.partn p).digestOf (2 * k + 1) (epochNext q.sealed) = some b →
      a ≠ b → s.beforePlan p = false → ∃ t, exec (.digestCompare p) s = .next t ∧ (t.partn p).st = .reexec ∧
        (t.partn p).stEpoch = epochNext q.released ∧ (t.partn p).released = q.released)) ∧
    ((s.die d).fenceDue = none → exec (.dieFence d) s = .next s) ∧
    (∀ c, (s.die d).fenceDue = some c → exec (.dieFence d) s = .next (s.fenceDie d c)) ∧
    (∀ c, s.tandemPair (d / 2) = false → (∀ n < 16, s.tandemOf n = none ∧ (∀ h ∈ (s.planPart n).homes, h ≠ d.val) ∧
        ∀ a ∈ (s.planPart n).admitDie, a ≠ d.val) →
      let t := s.fenceDie d c
      (t.die d).fenced = true ∧ t.alive d = false ∧ (∀ n : CoreId, coreDie n = d.val → (t.core n).running = false) ∧
      (∀ i < 13, t.domain (13 * d + i) = false) ∧ (∀ m ∈ t.msgs, m.toDie d = false) ∧
      (∀ a ∈ t.accesses, coreDie a.core ≠ d.val) ∧ (∀ n : CoreId, coreDie n ≠ d.val → t.core n = s.core n) ∧
      t.h.elCount = s.h.elCount + 1)

/-- Mirror frames: stale ones are dropped; logs are held and acknowledged; fetches answered; joins, lost peers, takeover -/
def Obligations.MirrorGroup : Prop :=
  ∀ (s : State) (p : PartId) (d l e j : Nat) (i : Fin 4) (f : MFrame) (fs : List MFrame) (tag : BitVec 32) (t2 : Int) (b : Bool),
    let m := s.h.mirror
    let s0 := s.updMirror fun m => { m with inbox := fs }
    let q := s.partn p
    let run (i : Instr) (f : State → Prop) : Prop := ∃ t, exec i s = .next t ∧ f t
    (run .heartSend fun t => t.u.dies = s.u.dies ∧ t.u.cores = s.u.cores ∧ ∀ n ∈ s.peerIds,
      (s.port (32 + (s.member n).primary)).up = true →
      .frame (32 + (s.member n).primary) (s.mirrorOctets n (s.heartFor n)) ∈ t.sent) ∧
    (m.inbox = f :: fs → f.term < m.term → (∀ y ∈ s.msgs, s.partnerReady y = false ∧ y.isLineAnswer = false) →
      ∀ x ∈ [(Instr.log, MPayload.isLog), (.mirrorAck, MPayload.isAck), (.heart t2, MPayload.isHeart),
        (.line, MPayload.isLine), (.take, MPayload.isTake), (.joined, MPayload.isJoined), (.fetch .clean, s.fetchReady)],
      x.2 f.body = true → exec x.1 s = .next (s0.updMirror fun m => { m with drop := m.drop + 1 })) ∧
    (m.inbox = f :: fs → f.term = m.term →
      (∀ first last seg entries total o u, f.body = .log p first last seg e entries total o u → m.role = 2 → m.lead = some f.src →
        (q.st = .following → epochLe e q.heldTo = true → exec .log s = .next (s0.sendFollowAck p)) ∧
        (q.st = .joining → q.joinEpoch.isSome = true → m.taking = false → epochLe e q.heldTo = false →
          (∀ g ∈ Sparse.get [] q.held e, g.1 ≠ seg) → run .log fun t => (seg, entries) ∈ Sparse.get [] (t.partn p).held e)) ∧
      (∀ applied, f.body = .ack p e applied [] → m.role = 1 → epochLe e (Sparse.get 0 q.acked f.src) = false →
        run .mirrorAck fun t => Sparse.get 0 (t.partn p).acked f.src = e ∧ t.sent = s.sent) ∧
      (∀ role flags heard sd t1 t3 t4 es, f.body = .heart role flags heard sd t1 t3 t4 es →
        let x := s0.updMPeer f.src fun y => { y with role := role, flags := flags, leadHeard := flags.testBit 0, lastT1 := t1,
                                                     lastT4 := t2.toNat % 2 ^ 72, epochs := es }
        (m.role = 1 → role ≠ 0 → exec (.heart t2) s = .next x) ∧
        (m.role = 1 → role = 0 → f.src.val ∈ s.followers → run (.heart t2) fun t =>
          t.h.mirror.dropped.getLsbD f.src = true ∧ t.h.elCount = s.h.elCount + 1) ∧
        (m.role = 2 → role = 1 → m.taking = false → m.lead = some f.src →
          exec (.heart t2) s = .next ((x.heartMeasure t1 t3 t4 t2).leadHeart f.src flags))) ∧
      (f.body = .fetch p.val d l e tag → d < 8 → (∀ y ∈ s.msgs, s.partnerReady y = false) →
        (epochAfter e (s.appliedOf p) = true → (∀ g ∈ fs, s.fetchReady g.body = false) → exec (.fetch .clean) s = .next s) ∧
        (epochAfter e (s.appliedOf p) = false → s.alive d = true →
          (∃ r ∈ s.regions, r.part = p.val ∧ s.regionAt d l = some r) →
          (epochAfter q.visible e = true → exec (.fetch .clean) s = .next (s0.sendMirror f.src (.line p d l e tag 1 0 (zeros 72)))) ∧
          (epochAfter q.visible e = false → s.outerWaits d l = false → (∀ g, s.imageAfter d l e = some g → g.hurt = []) →
            (s.lineInfo d l).poison = false → (s.lineAsOf d l e).2.poison = false →
            exec (.fetch .clean) s = .next (s0.sendMirror f.src (.line p d l e tag 0
              (metaOctet ((s.lineAsOf d l e).2.key.getD (s.initialKey d l)) (s.lineAsOf d l e).2.capline)
              (lineOctets (s.lineAsOf d l e).1)))))) ∧
      (∀ info data, f.body = .line p.val d l e tag 0 info data → (∀ y ∈ s.msgs, y.isLineAnswer = false) →
        (tag = 0 → m.role = 2 → q.st = .joining → q.joinEpoch = some e → exec .line s = .next ((s0.copies p d).foldl
          (fun y n => y.putLine n l (charsOfOctets data) (y.takenInfo n l info)) s0)) ∧
        (∀ r, tag ≠ 0 → (s.die d).m.repairs = [r] → r.line = l → r.epoch = e → r.partner = false →
          exec .line s = .next (s0.repaired d l (charsOfOctets data) (s0.takenInfo d l info) 2))) ∧
      (∀ held, f.body = .take m.id.val held → m.role = 2 → m.lead = some f.src → m.taking = false →
        exec .take s = .next s0.startTakeover) ∧
      (f.body = .join p → m.role = 1 → q.joinEpoch = none → exec .join s = .next (s0.startJoin p f.src)) ∧
      (m.role = 2 → q.st = .joining → m.lead = some f.src →
        (f.body = .joined p j 0 → run .joined fun t => (t.partn p).joinEpoch = some j ∧ (t.partn p).applied = j ∧
          (t.partn p).released = j ∧ (t.partn p).visible = j ∧ (t.partn p).st = .joining ∧
          ∀ n < 8, Sparse.get 0 (t.die n).o.visible p = j) ∧
        (f.body = .joined p j 2 → exec .joined s = .next (s0.askJoin p)))) ∧
    (m.inbox = [] → m.role = 1 → q.joinEpoch = some j → (∀ n : PartId, n < p → (s.partn n).joinEpoch = none) → run .join fun t =>
      (t.partn p).joinEpoch = none ∧ t.h.mirror.dropped.getLsbD q.joinTo = false ∧ t.h.elCount = s.h.elCount + 1) ∧
    (i.val ∈ s.followers → (epochLe e (Sparse.get 0 q.acked i) = false →
        exec (.logResend p e i) s = .next (s.shipTo p e i fun _ => true)) ∧
      (epochLe e (Sparse.get 0 q.acked i) = true → exec (.logResend p e i) s = .next s) ∧
      run (.followerDropped i) fun t => t.h.mirror.dropped.getLsbD i = true ∧ t.h.elCount = s.h.elCount + 1 ∧
        ∀ n : PartId, (s.partn n).joinTo = i.val → (t.partn n).joinEpoch = none) ∧
    (m.role = 2 → m.lead = some i → run .leadLost fun t =>
      t.h.mirror.leadLost = true ∧ (t.mpeer i).heard = false ∧ t.u = s.u ∧ t.sent = s.sent) ∧
    (m.leadLost = true → m.taking = false → s.selfEligible = true → s.leadElsewhere = false → s.firstInLine (Config.peerHeld s.free) = true →
      let x := { s with free := s.free + 1 }
      (s.paramN 18 0 0 = 1 → exec .takeover s = .next x.startTakeover) ∧
      (s.paramN 18 0 0 ≠ 1 → exec .takeover s = .next x)) ∧
    (s.allApplied = false → let t := s.startTakeover
      t.h.mirror.term = (m.term + 1) % 2 ^ 32 ∧ t.h.mirror.taking = true ∧ t.h.mirror.lead = none ∧ t.u.dies = s.u.dies ∧ t.u.cores = s.u.cores) ∧
    (run (.peerHeardExpiry i) fun t => (t.mpeer i).heard = false ∧ t.u = s.u ∧ ∀ n : Fin 4, n ≠ i → t.mpeer n = s.mpeer n) ∧
    (i.val ∈ s.peerIds → run (.secondaryPortSwitch i) fun t => (t.mpeer i).secondary = true ∧ t.u = s.u) ∧
    ((s.port (32 + bit b)).up = false → run (.mirrorLinkFallback b) fun t =>
      t.h.mirror.slow.getLsbD (bit b) = !m.slow.getLsbD (bit b)) ∧
    ((s.port (32 + bit b)).up = true → exec (.mirrorLinkFallback b) s = .next s)

/-- Host resets, windows and their refusals, the space 2 view, hub messages, MSI-X masks, queues, injections and responses -/
def Obligations.HostInterface : Prop :=
  ∀ (s : State) (f : HostFn) (p : PartId) (off : Nat) (x : BitVec 64) (v : BitVec 32) (b : Bool) (k : Fin 64) (c : CoreId) (w : Word),
    let h := s.h.host
    let z := s.win p
    let pa := z.address off
    let r := s.hostQueue k
    let run (i : Instr) (f : State → Prop) : Prop := ∃ t, exec i s = .next t ∧ f t
    (run .perst fun t => t.h.host.linkUp = false ∧ t.h.host.busMaster = false ∧ t.h.host.numVfs = 0 ∧ t.h.host.mbx = .reset ∧
      t.h.host.win = h.win ∧ t.h.host.q = h.q ∧ t.u = s.u ∧ t.sent = s.sent) ∧
    (run .pfFlr fun t => t.h.host.linkUp = false ∧ t.h.host.numVfs = 0 ∧ t.h.host.msix = [] ∧ t.h.host.win = [] ∧ t.h.host.q = [] ∧
      t.h.host.g = .reset ∧ t.h.host.mbx = .reset ∧ t.u = s.u) ∧
    (p.val < h.numVfs → run (.vfFlr p) fun t => (∀ i < 4, (t.hostQueue (4 * p + i)).en = false) ∧
      (∀ i, i / 4 ≠ p.val → t.hostQueue i = s.hostQueue i) ∧
      ∀ i < 128, Sparse.get MsixVec.reset t.h.host.msix (2048 + 128 * p + i) = .reset) ∧
    (s.fnReaches f p = false → exec (.windowRead f p off .clean) s = .next s ∧ exec (.windowWrite f p off [(255, x)] .clean) s = .next s) ∧
    (s.fnReaches f p = true →
      (z.en = false → run (.windowRead f p off .clean) fun t => t.sent = s.sent ++ [.completion [noWord] h.g.epPoison] ∧
        (h.winErr.valid = false → t.h.host.winErr.valid = true ∧ t.h.host.winErr.reason = 1 ∧ t.h.host.winErr.addr = pa % 2 ^ 40)) ∧
      (∀ y, (s.winCheck f p pa false).2 = some y → spaceOf pa = 1 →
        let g := s.ramFetch (pa % 2 ^ 37 / 2 ^ 34) (pa % 2 ^ 32) 4 p 0 4
        exec (.windowRead f p off .clean) s = .next (g.1.emit (.completion [(Word.ofChars g.2).zeroExtend 64] false))) ∧
      (∀ y, (s.winCheck f p pa false).2 = some y → spaceOf pa = 0 → let d := (y.line pa).1
        let l := (y.line pa).2
        s.outerWaits d l = false → keyMatches z.key (s.lineKey d l) = true → s.imageAfter d l (s.partn p).visible = none →
        (s.lineInfo d l).poison = false → exec (.windowRead f p off .clean) s = .next (s.emit (.completion
          [(Word.ofChars (((s.lineChars d l).drop (pa % 64)).take 4)).zeroExtend 64] false))) ∧
      (∀ y, (s.winCheck f p pa true).2 = some y → spaceOf pa = 1 →
        (z.we = true → exec (.windowWrite f p off [(255, x)] .clean) s =
          .next (s.ramWrite (pa % 2 ^ 37 / 2 ^ 34) (pa % 2 ^ 32) (wordChars x))) ∧
        (z.we = false → exec (.windowWrite f p off [(255, x)] .clean) s =
          .next ((s.violation { y with reason := 5 } 6 (hostSource p z.key.toNat 0 z.sys) pa).winFail 5 p f true pa)) ∧
        (∀ e : BitVec 8, e ≠ 0 → e ≠ 255 → exec (.windowWrite f p off [(e, x)] .clean) s = .next (s.winFail 6 p f true pa)))) ∧
    (s.fnAnswers .pf = true → run (.windowRuleWrite .pf p 0 v) fun t =>
      t.win p = { z with en := v.getLsbD 31, sys := v.getLsbD 30, we := v.getLsbD 29, key := v.extractLsb' 20 4 }) ∧
    (s.fnReaches (.vf p) p = true → run (.windowRuleWrite (.vf p) p 0 v) fun t =>
      t.win p = if z.key = 0 then { z with key := v.extractLsb' 20 4 } else z) ∧
    (s.fnReaches f p = true → run (.windowRuleWrite f p 1 v) fun t => t.win p = { z with base := v.truncate 16 }) ∧
    (s.fnAnswers .pf = true → let cc := off / 8 * 4
     let verdict (q : Right) := s.verdict { part := 0, die := 0, sys := true, anyPart := true } (2 * 2 ^ 37 + cc) q true
     (off % 8 ≠ 0 → run (.space2ViewAccess off 8 none) fun t => t.h.host.g.err.getLsbD 0 = true ∧ t.u = s.u ∧
       t.sent = s.sent ++ [.completion [0] false]) ∧
     (off % 8 = 0 → cc ≤ 3145724 →
       ((verdict .rd).reason = 0 → (verdict .rd).dflt = false → exec (.space2ViewAccess off 8 none) s =
         .next ((s.space2Read cc).1.emit (.completion [(s.space2Read cc).2.zeroExtend 64] false))) ∧
       ((verdict .wr).reason = 0 → (verdict .wr).dflt = false →
         exec (.space2ViewAccess off 8 (some x)) s = .next (s.space2Write cc (x.truncate 36))))) ∧
    (s.present (coreDie c) = true → run (.hubMsgWrite c w) fun t => Sparse.get 0 (t.die (coreDie c)).hubMsg (c % 64) = w) ∧
    (s.present (coreDie c) = false → exec (.hubMsgWrite c w) s = .next s) ∧
    (s.fnAnswers .pf = true → run .bar0BadAccess fun t => t.h.host.g.err = h.g.err ||| 1 ∧ t.u = s.u ∧
      t.sent = s.sent ++ [.completion [0] false]) ∧
    (s.fnAnswers .pf = true → run (.registerWrite .bar0Bad) fun t => t.h.host.g.err = h.g.err ||| 1 ∧ t.u = s.u ∧ t.sent = s.sent) ∧
    (s.fnReaches f (k / 4) = true → r.en = true →
      (isSubmission k = true → r.used + (v.toNat % 2 ^ (r.size + 1) + 2 ^ (r.size + 1) - r.wptr) % 2 ^ (r.size + 1) ≤ 2 ^ r.size →
        run (.doorbellWrite f k v) fun t => (t.hostQueue k).wptr = v.toNat % 2 ^ (r.size + 1) ∧ (t.hostQueue k).qerr = r.qerr) ∧
      (isSubmission k = false → r.used < (v.toNat % 2 ^ (r.size + 1) + 2 ^ (r.size + 1) - r.rptr) % 2 ^ (r.size + 1) →
        run (.doorbellWrite f k v) fun t => (t.hostQueue k).rptr = r.rptr ∧ (t.hostQueue k).qerr = true)) ∧
    (s.fnWritesQueue f k = true → run (.qCtlWrite f k v) fun t => let t := t.hostQueue k
      t.en = v.getLsbD 31 ∧ t.ien = v.getLsbD 11 ∧ t.vector = (v.extractLsb' 0 11).toNat ∧ t.base = r.base ∧
      (r.en = false → t.size = min (max (v.extractLsb' 24 5).toNat 6) 20 ∧ (t.en = true → t.wptr = 0 ∧ t.rptr = 0)) ∧
      (r.en = true → t.size = r.size ∧ t.wptr = r.wptr ∧ t.rptr = r.rptr)) ∧
    (∀ l : List Octet, isSubmission k = true → r.en = true → r.stopped = false → r.used ≠ 0 →
      let n := (x.extractLsb' 0 16).toNat
      let to_ := (r.rptr + 1 + ceilDiv n 8) % 2 ^ (r.size + 1)
      (exec (.hostInjection k noWord (.octets l)) s = .next (s.setHostQueue k { r with pend := true })) ∧
      (x ≠ noWord → run (.hostInjection k x .failed) fun t => (t.hostQueue k).dmaErr = true ∧ (t.hostQueue k).stopped = true ∧
        (t.hostQueue k).rptr = r.rptr) ∧
      (x ≠ noWord → 1 + ceilDiv n 8 ≤ r.used → n ≠ 0 → n ≤ l.length →
        ((x.extractLsb' 56 8).toNat = 1 → exec (.hostInjection k x (.octets l)) s =
          .next ((s.setHostQueue k { r with rptr := to_, pend := false }).inject k (x.extractLsb' 32 16) (l.take n))) ∧
        ((x.extractLsb' 56 8).toNat = 2 → exec (.hostInjection k x (.octets l)) s =
          .next (s.setHostQueue k { r with rptr := to_, pend := false })) ∧
        (2 < (x.extractLsb' 56 8).toNat → exec (.hostInjection k x (.octets l)) s =
          .next (s.setHostQueue k { r with rptr := to_, pend := false, qerr := true })))) ∧
    (∀ y ys, Sparse.get [] h.resp p = y :: ys → s.respReady p y = true → let o := s.hostQueue y.q
      let body := unitsOf (ceilDiv y.payload.length 8) y.payload
      (o.en = false → run (.hostResponseWrite p) fun t => Sparse.get [] t.h.host.resp p = ys ∧
        (t.hostQueue y.q).drops = o.drops + 1 ∧ t.sent = s.sent) ∧
      (o.en = true → s.hostSends = false → run (.hostResponseWrite p) fun t => Sparse.get [] t.h.host.resp p = y :: ys ∧
        (t.hostQueue y.q).dmaErr = true ∧ (t.hostQueue y.q).wptr = o.wptr) ∧
      (o.en = true → s.hostSends = true → run (.hostResponseWrite p) fun t => Sparse.get [] t.h.host.resp p = ys ∧
        (t.hostQueue y.q).wptr = (o.wptr + 1 + body.length) % 2 ^ (o.size + 1) ∧
        ((s.writeUnits o (o.wptr + 1) body).writeUnits o o.wptr [octetsLE 8 y.header]).sent <+: t.sent)) ∧
    ((Sparse.get [] h.resp p).find? (s.respReady p) = none → exec (.hostResponseWrite p) s = .next s) ∧
    (∀ width rate, (b = true → s.up 106 4 = true) →
      exec (.hostLinkStateChange b width rate) s = .next (s.updHost fun y => { y with linkUp := b, g := { y.g with
        width := if b = true ∧ s.up 107 4 = true then width else 0, rate := if b then if s.h.pwr.st = .night then 1 else rate else 0 } }).progress) ∧
    (∀ width rate, s.up 106 4 = false → exec (.hostLinkStateChange true width rate) s = .next s) ∧
    (run (.configurationSpaceWrite (.busMaster b)) fun t => t.h.host.busMaster = b ∧ t.u = s.u) ∧
    (run (.configurationSpaceWrite (.numVfs off)) fun t => t.h.host.numVfs = min off 16 ∧ t.u = s.u ∧
      ∀ q i, off ≤ q → i < 128 → Sparse.get MsixVec.reset t.h.host.msix (2048 + 128 * q + i) = .reset) ∧
    (s.hasFn f = true → run (.configurationSpaceWrite (.powerState f b)) fun t => (t.fnCfg (fnIndex f)).d3hot = b ∧ t.u = s.u) ∧
    (∀ m, s.hasFn f = true → run (.configurationSpaceWrite (.msixControl f b m)) fun t =>
      (t.fnCfg (fnIndex f)).msixEn = b ∧ (t.fnCfg (fnIndex f)).msixMask = m ∧ t.u = s.u) ∧
    (∀ i : Fin 3, run (.configurationSpaceWrite (.bar b i x)) fun t => ((Sparse.get 0 t.h.host.cfg.bars (barKey b i)).toNat =
      x.toNat / 2 ^ barBits b i * 2 ^ barBits b i) ∧ t.u = s.u) ∧
    (∀ n : Fin 2048, let key := if n / 128 < h.numVfs then 2048 + n.val else n.val
      let held := (Sparse.get MsixVec.reset h.msix key).pending
      let quiet := (s.fnCfg (msixOwner key)).silent
      run (.msiXUnmask n) fun t => (Sparse.get MsixVec.reset t.h.host.msix key).masked = false ∧
        (Sparse.get MsixVec.reset t.h.host.msix key).pending = (held && quiet) ∧
        t.sent = s.sent ++ if held && !quiet then [.msix (msixName key).1 (msixName key).2] else [])

/-- Mailbox commands: when they begin, the states that allow them, their effects and statuses, and completion -/
def Obligations.MailboxCommands : Prop :=
  ∀ (s : State) (tag code : BitVec 8) (o : List Octet) (vpgm : Bool) (v : BitVec 32),
    let x := s.settled
    let a (i : Nat) : Nat := x.arg i
    let running (code : BitVec 8) (m : Mailbox) : Mailbox :=
      { m with done := false, tag := tag, code := code, status := 0, res := [], waiting := none }
    let y (code : BitVec 8) : State := x.updHost fun z => { z with mbx := running code z.mbx }
    let table : List (Instr × BitVec 8 × List Nat) := [(.mailboxNop tag, 0, [1, 2, 3, 4, 5, 6]), (.planWithdraw tag, 3, [4]),
      (.planRead tag, 4, [3, 4, 5, 6]), (.takeoverCommand tag, 5, [4]), (.fence tag, 6, [3, 4, 5]), (.retire tag, 7, [3, 4]),
      (.restart tag, 8, [3, 4]), (.rowRepair tag, 9, [3, 4]), (.calSet tag, 0x0B, [1, 2, 3, 4, 5, 6]),
      (.planLoad tag .host (.octets o), 2, [2, 4, 5])]
    let done (i : Instr) (code status : BitVec 8) (res : List (BitVec 32)) (t : State) : Prop :=
      exec i s = .next (t.mbxResult code status res)
    (x.h.pwr.hubDead = false → x.pkgState ≠ 0 → x.h.host.mbx.done = false → ∀ e ∈ table, exec e.1 s = .next (x.hostErr 2)) ∧
    (x.pkgState = 0 → ∀ e ∈ table, exec e.1 s = .next x) ∧
    (s.h.pwr.hubDead = false → s.h.host.mbx.done = false → exec (.mbxCmdWhileBusy v) s = .next (s.hostErr 2)) ∧
    (x.h.pwr.hubDead = false → x.pkgState ≠ 0 → x.h.host.mbx.done = true →
      (∀ e ∈ table, x.pkgState ∉ e.2.2 → done e.1 e.2.1 1 [] (y e.2.1)) ∧
      (x.pkgState ≤ 6 → done (.mailboxNop tag) 0 0 [] (y 0)) ∧
      (11 < code.toNat → x.pkgState ≤ 6 → done (.unknownMailboxCode tag code) code 3 [] (y code)) ∧
      (x.pkgState = 4 →
        (∀ z, x.h.plan.staged = some z → z.committed = false →
          done (.planWithdraw tag) 3 0 [(y 3).withdrawStaged.hpStatus] (y 3).withdrawStaged) ∧
        (x.h.plan.staged = none → done (.planWithdraw tag) 3 1 [] (y 3)) ∧
        (x.h.mirror.taking = false → x.selfEligible = true → exec (.takeoverCommand tag) s = .next (y 5).startTakeover) ∧
        (x.h.mirror.taking = false → x.selfEligible = false → done (.takeoverCommand tag) 5 1 [] (y 5)) ∧
        (s.h.pwr.st ≠ .night →
          (a 0 = 0 → x.powerState = .dusk → exec (.power tag) s =
            .next ((y 0x0A).updPwr fun p => { p with clockTo := some (.noon, epochNext x.h.sd.g.epoch) })) ∧
          (a 0 = 1 → x.powerState = .noon → exec (.power tag) s =
            .next ((y 0x0A).updPwr fun p => { p with clockTo := some (.dusk, epochNext x.h.sd.g.epoch) })) ∧
          (a 0 = 2 → x.mayEnterNight = true → exec (.power tag) s =
            .next ((y 0x0A).updPwr fun p => { p with nightAt := some (epochNext x.h.sd.g.epoch) })) ∧
          (a 0 = 2 → x.mayEnterNight = false → done (.power tag) 0x0A 1 [] (y 0x0A)))) ∧
      (x.pkgState = 3 ∨ x.pkgState = 4 →
        (∀ n, BitVec.ofNat 32 x.effImage.length = n → (a 2 < x.effImage.length → done (.planRead tag) 4 5 [n] (y 4)) ∧
          (x.effImage.length ≤ a 2 →
            done (.planRead tag) 4 0 [n] ((y 4).emit (.memWrite (a 0 + a 1 * 2 ^ 32) x.effImage)))) ∧
        (8 ≤ a 0 → done (.fence tag) 6 2 [] (y 6)) ∧
        (a 0 < 8 → x.alive (a 0) = false → done (.fence tag) 6 1 [] (y 6)) ∧
        (a 0 < 8 → x.alive (a 0) = true → done (.fence tag) 6 0 [] ((y 6).decideFence (a 0) .host)) ∧
        (64 ≤ a 0 → done (.retire tag) 7 2 [] (y 7) ∧ done (.restart tag) 8 2 [] (y 8)) ∧
        (a 0 < 64 → x.commandable (a 0) = false → done (.retire tag) 7 1 [] (y 7) ∧ done (.restart tag) 8 1 [] (y 8)) ∧
        (a 0 < 64 → x.commandable (a 0) = true →
          exec (.retire tag) s = .next (((y 7).retire (a 0) 2).mbxResult 7 0 []).progress ∧
          (let z := (iter 8 (fun k q => q.dropTxn (8 * a 0 + k)) (y 8)).clusterOff (a 0)
           exec (.restart tag) s =
            .next (((z.requestOn [clusterDomain (a 0)]).toStart (1#64 <<< a 0)).mbxResult 8 0 []).progress)) ∧
        (a 0 < 8 → a 1 < 32 → (x.remap (a 0) (a 1) (a 2) (a 3) = none → done (.rowRepair tag) 9 1 [] (y 9)) ∧
          (∀ b, (x.die (a 0)).m.remaps = [(a 1, a 2, a 3, b)] → done (.rowRepair tag) 9 0 [] ((y 9).updDie (a 0) fun z =>
            { z with m := { z.m with remaps := [(a 1, a 2, a 3, true)] } })))) ∧
      (x.pkgState = 2 ∨ x.pkgState = 5 →
        (a 3 % 2 = 1 → x.h.plan.staged = none → exec (.planLoad tag .host (.octets o)) s =
          .next ((y 2).askChain ⟨a 3 / 4 % 4, Nat.mod_lt _ (by decide)⟩)) ∧
        (a 3 % 2 = 0 → done (.planLoad tag .host .failed) 2 6 [] (y 2)) ∧
        (a 3 % 2 = 0 → imageScope (o.take (a 2)) = 0 → x.h.plan.staged = none →
          exec (.planLoad tag .host (.octets o)) s = .next ((y 2).loadImage 2 (o.take (a 2))))) ∧
      (∀ ulo uhi lo hi, x.pkgState ≤ 6 → a 0 / 65536 % 32768 = 0 → x.calItem (a 0 % 65536) = some (ulo, uhi, lo, hi) →
        let user := Sparse.set 0 x.h.calUser (a 0 % 65536) (clamp3 ulo uhi (BitVec.ofNat 32 (a 1)).toInt)
        let z : State := if a 0 < 2 ^ 31 then { y 0x0B with h := { (y 0x0B).h with calUser := user } } else y 0x0B
        done (.calSet tag) 0x0B 0 [BitVec.ofInt 32 (z.calValue (a 0 % 65536) lo hi)] z) ∧
      (s.h.pwr.st = .night → x.pkgState = 6 → (2 ≤ a 0 → done (.wake tag) 0x0A 1 [] (y 0x0A)) ∧
        (a 0 < 2 → let z := y 0x0A
          let owned : BitVec 64 := z.effPlan.parts.foldl (fun m e => m ||| e.2.clusters) 0
          exec (.wake tag) s = .next (((z.requestOn (z.wakeOrder z.effPlan)).toStart owned).updPwr fun p =>
            { p with after := .wake, clockTo := some (if a 0 = 0 then .noon else .dusk, 0) }).progress)) ∧
      (s.fromHost = true ∨ 3 < s.h.pwr.bootStep → x.pkgState ≠ 1 → done (.patchLoad tag (.octets o) vpgm) 1 1 [] (y 1)) ∧
      (s.fromHost = true ∨ 3 < s.h.pwr.bootStep → x.pkgState = 1 → x.h.burning = none →
        (a 2 = 0 → exec (.patchLoad tag (.octets o) vpgm) s = .next (y 1).patchDone) ∧
        (a 2 ≠ 0 → exec (.patchLoad tag (.octets o) vpgm) s = .next ((y 1).takePatch (o.take (a 2)) vpgm 2)) ∧
        (a 2 ≠ 0 → done (.patchLoad tag .failed vpgm) 1 6 [] (y 1)))) ∧
    (∀ src, let r := x.h.fuses.checkPatch o vpgm
      (r ≠ 0 → x.takePatch o vpgm src = x.patchRejected r) ∧
      (r = 0 → x.h.fuses.patchFields o = [] → x.takePatch o vpgm src =
        State.patchDone { x with h := { x.h with patch := Patch.ofImage x.h.patch o src } })) ∧
    (let z := x.loadBegins 2 o
     (∀ e, z.checkImage o true = some e → x.loadImage 2 o = (z.rejectImage o e).planResult 4) ∧
     (z.checkImage o true = none → imageScope o ≠ 1 → let q := z.acceptImage o (z.clampsOf o)
       x.loadImage 2 o = (q.applyPlan (z.planOf o) [o]).progress) ∧
     (z.checkImage o true = none → imageScope o = 1 → let q := z.acceptImage o (z.clampsOf o)
       x.loadImage 2 o = (q.stage o (z.planOf o)).planResult 0)) ∧
    (∀ status res, s.h.host.mbx.done = false → s.h.host.mbx.waiting = some (status, res) → s.h.burning = none →
      ∃ t, exec .mbxComplete s = .next t ∧ t.h.host.mbx.done = true ∧ t.h.host.mbx.status = status ∧
        t.h.host.mbx.waiting = none ∧ t.h.host.g.evt.getLsbD 4 = true ∧ t.u = s.u)

/-- Staged images commit and take effect; package resets keep the fuses; domains, self-check, clock switch, Night, thermal
faults -/
def Obligations.PlanAndPower : Prop :=
  ∀ (s : State) (lands : StrapLands) (rails fuses hot : Bool) (cl : ClusterId) (fails : BitVec 8) (d : DieId) (pc bank row : Nat),
    let run (i : Instr) (f : State → Prop) : Prop := ∃ t, exec i s = .next t ∧ f t
    let w := s.h.pwr
    (∀ z, s.h.plan.staged = some z → z.committed = false → let last := epochPrev z.epoch
      (tickLe (s.lastTick last) s.tick = false → exec .stagingDeadline s = .next s) ∧
      (tickLe (s.lastTick last) s.tick = true →
        (∀ e, s.checkStructure z.plan (imageSecs z.octets) = some e →
          exec .stagingDeadline s = .next (s.undoStaging.rejectImage z.octets e)) ∧
        (s.checkStructure z.plan (imageSecs z.octets) = none → s.stagingDone z = false → exec .stagingDeadline s =
          .next (s.undoStaging.rejectImage z.octets { reason := 20, section_ := 0, hdr := false, off := none })) ∧
        (s.checkStructure z.plan (imageSecs z.octets) = none → s.stagingDone z = true → (s.partn z.part).st = .normal →
          s.curfewClear z.part z.epoch = true → exec .stagingDeadline s =
            .next (((s.logEvent z.part last 5 { tick := s.lastTick last, port := 35, seq := 0 } ⟨0, 0, 0⟩ z.octets).updPlan fun y =>
              { y with staged := some { z with committed := true } }).setLast 6)))) ∧
    (∀ z, s.h.plan.staged = some z → s.h.mirror.role ≠ 2 →
      (z.committed = true → epochLe z.epoch s.h.sd.g.epoch = true → exec .planTakeEffect s = .next (s.atStep 1 fun y => y.takeEffect z)) ∧
      (z.committed = false ∨ epochLe z.epoch s.h.sd.g.epoch = false → exec .planTakeEffect s = .next s)) ∧
    (∀ (g : Gate) rules, (g.swap rules).abank = !g.abank ∧ (g.swap rules).active = g.afterSwap rules ∧ (g.swap rules).swapDone = false) ∧
    (w.pwrOk = false → let x := sampleLands lands s.h.fuses.partCode
      run (.pwrOkRise lands rails fuses) fun t => t.h.pwr.pwrOk = true ∧ t.h.pwr.straps = x ∧ t.h.fuses = s.h.fuses ∧
      t.h.pwr.bootStep = 1 ∧ t.h.pwr.domains = bit128 104 ∧ t.u = State.reset.u ∧ t.pkgState = 0 ∧
      t.h.pwr.stuck = (!rails || !fuses || x.testMode) ∧
      (rails = true → fuses = true → x.testMode = false → t.h.pwr.queue = [105, 106, 107])) ∧
    (w.pwrOk = true → exec (.pwrOkRise lands rails fuses) s = .next s ∧
      (run .pwrOkFall fun t => t = { State.reset with
        pending := s.pending, sent := s.sent, free := s.free, h := { Hub.reset with fuses := s.h.fuses } }) ∧
      run .sysRstN fun t => t.h.pwr.straps = w.straps ∧ t.h.fuses = s.h.fuses ∧ t.h.plan = Hub.reset.plan ∧ t.h.calUser = [] ∧
        t.h.mirror = Hub.reset.mirror ∧ t.u = State.reset.u ∧ t.h.pwr.bootStep = 1) ∧
    (exec .domainPowerGrant s = .next ((w.queue.take 4).foldl (fun y i => y.domainOn i)
      (s.updPwr fun p => { p with queue := p.queue.drop 4 })).progress) ∧
    (∀ i, i < 128 → (s.domainOn i).domain i = true) ∧
    (∀ m i, m.getLsbD i = true → (s.domainsOff m).domain i = false) ∧
    (s.up (clusterDomain cl) 4 = true → (s.cluster cl).selfChecked = false → (s.cluster cl).retired = false →
      (fails ≠ 0 → exec (.romSelfCheck cl fails) s = .next (s.retire cl 1).progress) ∧
      exec (.romSelfCheck cl 0) s = .next (s.updCluster cl fun y => { y with selfChecked := true }).progress) ∧
    (∀ t e, w.clockTo = some (t, e) → w.st ≠ .night →
      (epochLe e s.h.sd.g.epoch = true → s.ticking = true → s.h.sd.edgeStep ≤ 2 → run .clockSwitch fun u => u.h.pwr.st = t ∧ u.h.pwr.clockTo = none ∧ u.u = s.u) ∧
      (epochLe e s.h.sd.g.epoch = false → exec .clockSwitch s = .next s)) ∧
    (∀ e, w.nightAt = some e →
      (s.nightReady e = false → exec .nightEntry s = .next s) ∧
      (s.nightReady e = true → run .nightEntry fun t => t.h.pwr.st = .night ∧ t.h.pwr.nightAt = none ∧ t.h.sd.g.night = true ∧
        t.h.sd.g.admitOpen = false ∧ ∀ i, nightOff.getLsbD i = true → t.domain i = false)) ∧
    (exec (.thermalAlert hot) s = .next (s.updPwr fun p => { p with thermAlert := hot || p.hubDead })) ∧
    (s.alive d = true → (s.die d).fenceDue = none → run (.dieThermalFault d) fun t => (t.die d).fenceDue = some .supply ∧ t.h = s.h) ∧
    (s.alive d = false → exec (.dieThermalFault d) s = .next s) ∧
    (w.pwrOk = true → run .hubThermalFault fun t => t.h.pwr.hubDead = true ∧ t.h.pwr.thermAlert = true ∧ t.h.host.linkUp = false ∧
      ∀ i, i ≠ 104 → t.domain i = false) ∧
    ((pc, bank, row) ∉ (s.die d).m.copying → exec (.spareRowCopyDone d pc bank row) s = .next s) ∧
    ((pc, bank, row) ∈ (s.die d).m.copying →
      (0 < s.sparesLeft d pc → run (.spareRowCopyDone d pc bank row) fun t =>
        (t.die d).m.remaps = (s.die d).m.remaps ++ [(pc, bank, row, false)] ∧ (pc, bank, row) ∉ (t.die d).m.copying ∧
        t.h.elCount = s.h.elCount + 1) ∧
      (s.sparesLeft d pc = 0 → run (.spareRowCopyDone d pc bank row) fun t =>
        (t.die d).m.remaps = (s.die d).m.remaps ∧ t.h.elCount = s.h.elCount + 1)) ∧
    (s.remap d pc bank row = some (pc, bank, row, true) → run (.rowPprDone d pc bank row) fun t =>
      t.remap d pc bank row = none ∧ t.h.elCount = s.h.elCount + 1) ∧
    (s.h.burning = none → exec .vpgmOutOfRange s = .next s) ∧
    (∀ b, s.h.burning = some b → run .vpgmOutOfRange fun t => t.h.burning = none ∧ t.h.patch.reject = 11 ∧ t.u = s.u)

end Statements
end

