-- ==== Sys2Proof/Laws/Kept.lean ====
section
/-! SUPPORT. Frames of the shared operations: every operation of the model but the burning of a patch leaves the queue of commands,
the fuses and a burn under way alone. One lemma per operation, in the order of the files of Machine/; a lemma `f_kept` says
that `f` keeps the three (`State.kept`), a lemma `f_keeps` that every state in an answer does (`Act.Keeps`, `UnitRes.Keeps`). -/

set_option linter.unusedSimpArgs false
set_option linter.unusedTactic false
set_option linter.unreachableTactic false

namespace Sys2Proof.Machine

/-- The queue, the fuses and the burn under way. -/
def State.kept (s : State) : List Instr × Fuses × Option Burning := (s.pending, s.h.fuses, s.h.burning)
@[simp] theorem kept_mk (p u h a n m e f) : (State.mk p u h a n m e f).kept = (p, h.fuses, h.burning) := id rfl
@[simp] theorem kept_eta (s : State) : (s.pending, s.h.fuses, s.h.burning) = s.kept := id rfl
theorem foldl_kept {α : Type} {f : State → α → State} (h : ∀ s a, (f s a).kept = s.kept) (l : List α) (s : State) :
    (l.foldl f s).kept = s.kept := by
  induction l generalizing s with
  | nil => rfl
  | cons a l ih => simp [ih, h]
theorem iter_kept {f : Nat → State → State} (h : ∀ n s, (f n s).kept = s.kept) (n : Nat) (s : State) :
    (iter n f s).kept = s.kept := by
  unfold iter; exact foldl_kept (fun s a => h a s) _ _
@[simp] theorem State.setCore_kept (s : State) (n : Nat) (k : Core) :
    (State.setCore s n k).kept = s.kept := (fun h => h) rfl
@[simp] theorem State.updCore_kept (s : State) (n : Nat) (f : Core → Core) :
    (State.updCore s n f).kept = s.kept := (fun h => h) rfl
@[simp] theorem State.setCluster_kept (s : State) (n : Nat) (k : Cluster) :
    (State.setCluster s n k).kept = s.kept := (fun h => h) rfl
@[simp] theorem State.updCluster_kept (s : State) (n : Nat) (f : Cluster → Cluster) :
    (State.updCluster s n f).kept = s.kept := (fun h => h) rfl
@[simp] theorem State.setDie_kept (s : State) (n : Nat) (k : Die) :
    (State.setDie s n k).kept = s.kept := (fun h => h) rfl
@[simp] theorem State.updDie_kept (s : State) (n : Nat) (f : Die → Die) :
    (State.updDie s n f).kept = s.kept := (fun h => h) rfl
@[simp] theorem State.setGate_kept (s : State) (n : Nat) (k : Gate) :
    (State.setGate s n k).kept = s.kept := (fun h => h) rfl
@[simp] theorem State.updGate_kept (s : State) (n : Nat) (f : Gate → Gate) :
    (State.updGate s n f).kept = s.kept := (fun h => h) rfl
@[simp] theorem State.setPort_kept (s : State) (n : Nat) (k : Port) :
    (State.setPort s n k).kept = s.kept := (fun h => h) rfl
@[simp] theorem State.updPort_kept (s : State) (n : Nat) (f : Port → Port) :
    (State.updPort s n f).kept = s.kept := (fun h => h) rfl
@[simp] theorem State.setPartn_kept (s : State) (n : Nat) (k : Partition) :
    (State.setPartn s n k).kept = s.kept := (fun h => h) rfl
@[simp] theorem State.updPartn_kept (s : State) (n : Nat) (f : Partition → Partition) :
    (State.updPartn s n f).kept = s.kept := (fun h => h) rfl
@[simp] theorem State.setSlot_kept (s : State) (d n : Nat) (v : Slot) :
    (State.setSlot s d n v).kept = s.kept := (fun h => h) rfl
@[simp] theorem State.updSlot_kept (s : State) (d n : Nat) (f : Slot → Slot) :
    (State.updSlot s d n f).kept = s.kept := (fun h => h) rfl
@[simp] theorem State.updSd_kept (s : State) (f : Sundial → Sundial) :
    (State.updSd s f).kept = s.kept := (fun h => h) rfl
@[simp] theorem State.updSdRegs_kept (s : State) (f : SdRegs → SdRegs) :
    (State.updSdRegs s f).kept = s.kept := (fun h => h) rfl
@[simp] theorem State.updHost_kept (s : State) (f : HostIf → HostIf) :
    (State.updHost s f).kept = s.kept := (fun h => h) rfl
@[simp] theorem State.updHostRegs_kept (s : State) (f : HostRegs → HostRegs) :
    (State.updHostRegs s f).kept = s.kept := (fun h => h) rfl
@[simp] theorem State.updMirror_kept (s : State) (f : Mirror → Mirror) :
    (State.updMirror s f).kept = s.kept := (fun h => h) rfl
@[simp] theorem State.updPlan_kept (s : State) (f : PlanState → PlanState) :
    (State.updPlan s f).kept = s.kept := (fun h => h) rfl
@[simp] theorem State.updPwr_kept (s : State) (f : Power → Power) :
    (State.updPwr s f).kept = s.kept := (fun h => h) rfl
@[simp] theorem State.updTs_kept (s : State) (k : Nat) (f : TsPair → TsPair) :
    (State.updTs s k f).kept = s.kept := (fun h => h) rfl
@[simp] theorem State.post_kept (s : State) (m : Msg) :
    (State.post s m).kept = s.kept := (fun h => h) rfl
@[simp] theorem State.emit_kept (s : State) (o : Sent) :
    (State.emit s o).kept = s.kept := (fun h => h) rfl
@[simp] theorem State.fresh_kept (s : State) :
    (State.fresh s).1.kept = s.kept := by
  simp [State.fresh]
@[simp] theorem State.updR_kept (s : State) (c : Nat) (f : CoreRegs → CoreRegs) :
    (State.updR s c f).kept = s.kept := (fun h => h) rfl
@[simp] theorem State.msixKey_kept (s : State) (key : Nat) (o : Sent) :
    (State.msixKey s key o).kept = s.kept := by
  unfold State.msixKey
  simp only []
  (repeat' split) <;> simp
@[simp] theorem State.msix_kept (s : State) (v : Nat) :
    (State.msix s v).kept = s.kept := by
  unfold State.msix
  simp only []
  (repeat' split) <;> simp
@[simp] theorem State.event_kept (s : State) (i : Nat) :
    (State.event s i).kept = s.kept := by
  unfold State.event
  simp only []
  (repeat' split) <;> simp
@[simp] theorem State.logErr_kept (s : State) (code sev die : Nat) (hub : Bool) (part unit : Nat) (w2 w3 : Word) :
    (State.logErr s code sev die hub part unit w2 w3).kept = s.kept := by
  unfold State.logErr
  (repeat' split) <;> simp
@[simp] theorem State.sdError_kept (s : State) (code die : Nat) :
    (State.sdError s code die).kept = s.kept := by
  unfold State.sdError
  (repeat' split) <;> simp
@[simp] theorem State.setQueue_kept (s : State) (d p q : Nat) (v : Queue) :
    (State.setQueue s d p q v).kept = s.kept := (fun h => h) rfl
@[simp] theorem State.updQueue_kept (s : State) (d p q : Nat) (f : Queue → Queue) :
    (State.updQueue s d p q f).kept = s.kept := (fun h => h) rfl
@[simp] theorem State.interrupt_kept (s : State) (c : Nat) (i : Item) :
    (State.interrupt s c i).kept = s.kept := (fun h => h) rfl
@[simp] theorem State.rung_kept (s : State) (c : Nat) :
    (State.rung s c).kept = s.kept := by
  unfold State.rung
  (repeat' split) <;> simp
@[simp] theorem State.clusterOff_kept (s : State) (cl : Nat) :
    (State.clusterOff s cl).kept = s.kept := by
  unfold State.clusterOff
  simp only []
  repeat' (first | (with_reducible rfl) | (intro _ _) | split | (simp; done) | (refine (foldl_kept ?_ _ _).trans ?_) | (refine (iter_kept ?_ _ _).trans ?_))
@[simp] theorem State.dropTxn_kept (s : State) (c : Nat) :
    (State.dropTxn s c).kept = s.kept := by
  unfold State.dropTxn
  (repeat' split) <;> simp
@[simp] theorem State.retire_kept (s : State) (cl reason : Nat) :
    (State.retire s cl reason).kept = s.kept := by
  unfold State.retire
  try simp only []
  repeat' (first | (with_reducible rfl) | (intro _ _) | split | (simp [kept_mk, kept_eta, State.updCluster_kept, State.logErr_kept, State.clusterOff_kept, State.dropTxn_kept, foldl_kept, iter_kept]; done) | (refine (foldl_kept ?_ _ _).trans ?_) | (refine (iter_kept ?_ _ _).trans ?_) | (grind [kept_mk, kept_eta, State.updCluster_kept, State.logErr_kept, State.clusterOff_kept, State.dropTxn_kept, foldl_kept, iter_kept]) | (simp only [kept_mk, kept_eta, State.updCluster_kept, State.logErr_kept, State.clusterOff_kept, State.dropTxn_kept, foldl_kept, iter_kept]))
@[simp] theorem State.cataclysm_kept (s : State) (c reason code : Nat) :
    (State.cataclysm s c reason code).kept = s.kept := by
  unfold State.cataclysm
  (repeat' split) <;> simp
@[simp] theorem State.levelZero_kept (s : State) (c : Nat) (cause : Cause) (epc faddr : Nat) (async : Bool) :
    (State.levelZero s c cause epc faddr async).kept = s.kept := by
  simp [State.levelZero]
@[simp] theorem State.levelOne_kept (s : State) (c : Nat) (cause : Cause) (epc : Nat) (async : Bool) (need : Nat) :
    (State.levelOne s c cause epc async need).kept = s.kept := by
  simp [State.levelOne]
@[simp] theorem State.raise_kept (s : State) (c : Nat) (cause : Cause) (faddr : Nat) :
    (State.raise s c cause faddr).kept = s.kept := by
  unfold State.raise
  simp only []
  (repeat' split) <;> simp
@[simp] theorem State.trap_kept (s : State) (c : Nat) (cause : Cause) (need : Nat) :
    (State.trap s c cause need).kept = s.kept := by
  unfold State.trap
  simp only []
  (repeat' split) <;> simp
@[simp] theorem State.takeItem_kept (s : State) (c : Nat) (i : Item) :
    (State.takeItem s c i).kept = s.kept := by
  unfold State.takeItem
  (repeat' split) <;> simp
@[simp] theorem State.finish_kept (s0 s : State) (c : Nat) (i : Instr) (next : Option Nat) (cc : Nat) :
    (State.finish s0 s c i next cc).kept = s.kept := by
  simp [State.finish]
/-- Every state that an act answers has what s has. -/
def Act.Keeps (s : State) : Act → Prop
  | .stop t _ _ | .done t _ _ | .await t _ _ | .walk t _ _ | .gate t _ | .wait t _ _ | .again t _ | .pause t _ => t.kept = s.kept
  | _ => True
theorem State.settle_kept {s s0 : State} {c : Nat} {i : Instr} {a : Act} (h : a.Keeps s0) (h0 : s.kept = s0.kept) :
    (s.settle c i a).kept = s0.kept := by
  cases a <;> simp only [Act.Keeps] at h <;> simp only [State.settle] <;> (try split) <;>
    simp [h, h0, State.raise_kept, State.trap_kept, State.finish_kept, State.updCore_kept, State.updCluster_kept]
@[simp] theorem State.correctedIn_kept (s : State) (code c unit : Nat) (w2 w3 : Word) :
    (State.correctedIn s code c unit w2 w3).kept = s.kept := by
  simp [State.correctedIn]
@[simp] theorem State.fetchCorrected_kept (s : State) (c n : Nat) :
    (State.fetchCorrected s c n).kept = s.kept := by
  unfold State.fetchCorrected
  simp only []
  repeat' (first | (with_reducible rfl) | (intro _ _) | split | (simp; done) | (refine (foldl_kept ?_ _ _).trans ?_) | (refine (iter_kept ?_ _ _).trans ?_))
theorem State.fetchStop_kept (s : State) (c : Nat) (f : Fetch) (t : State) (h : State.fetchStop s c f = some t) :
    t.kept = s.kept := by
  cases f <;> simp only [State.fetchStop, Option.some.injEq, reduceCtorEq] at h <;> subst h <;>
    simp [State.raise_kept, State.cataclysm_kept, State.logErr_kept]

/-! ### Operands.lean -/

theorem State.start_kept (s : State) (c : CoreId) (i : Instr) {body : Cur → State → Act} (h : ∀ x t, (body x t).Keeps t) :
    (s.start c i body).kept = s.kept := by
  unfold State.start
  simp only []
  split
  · rename_i h1; exact State.fetchStop_kept _ _ _ _ h1
  split
  · rw [State.raise_kept, State.fetchCorrected_kept]
  split
  · split
    · rw [State.raise_kept, State.fetchCorrected_kept]
    · rw [State.settle_kept (h _ _) (Eq.refl (State.kept _))]; exact State.fetchCorrected_kept _ _ _
  · exact State.setCore_kept _ _ _
theorem State.instr_kept (s : State) (c : CoreId) (i : Instr) {body : Cur → State → Act} (h : ∀ x t, (body x t).Keeps t) :
    (s.instr c i body).kept = s.kept := by
  unfold State.instr
  simp only []
  split
  · with_reducible rfl
  split
  · exact State.cataclysm_kept _ _ _ _
  split
  · split
    · exact State.settle_kept (h _ _) (Eq.refl s.kept)
    · with_reducible rfl
  split
  · with_reducible rfl
  · rw [State.start_kept _ _ _ h]; exact State.rung_kept _ _
theorem State.resume_kept (s : State) (c : CoreId) (x : Cur) {body : Cur → State → Act} (h : ∀ x t, (body x t).Keeps t) :
    (s.resume c x body).kept = s.kept := State.settle_kept (h _ _) rfl
@[simp] theorem State.scratchWrite_kept (s : State) (cl off : Nat) (l : List Chr) :
    (State.scratchWrite s cl off l).kept = s.kept := (fun h => h) rfl
@[simp] theorem State.setScratchInfo_kept (s : State) (cl line : Nat) (m : LineMeta) :
    (State.setScratchInfo s cl line m).kept = s.kept := (fun h => h) rfl
@[simp] theorem State.scratchCorrected_kept (s : State) (c a : Nat) :
    (State.scratchCorrected s c a).kept = s.kept := by
  unfold State.scratchCorrected
  simp only []
  (repeat' split) <;> simp
@[simp] theorem State.scratchCheck_kept (s : State) (c : Nat) (need : Need) (p : AccPart) :
    (State.scratchCheck s c need p).1.kept = s.kept := by
  unfold State.scratchCheck
  simp only []
  (repeat' split) <;> simp
@[simp] theorem State.scratchChecks_kept (s : State) (c : Nat) (need : Need) (l : List AccPart) :
    (s.scratchChecks c need l).1.kept = s.kept := by
  induction l generalizing s with
  | nil => rfl
  | cons p ps ih =>
    unfold State.scratchChecks
    have h0 := State.scratchCheck_kept s c need p
    repeat' split
    · rename_i h; rw [h] at h0; exact h0
    · rename_i h; rw [h] at h0; rw [ih]; exact h0
    · exact ih s
@[simp] theorem State.send_kept (s : State) (c : CoreId) (op : AccOp) (posted : Bool) (parts : List AccPart) :
    (State.send s c op posted parts).kept = s.kept := by
  unfold State.send
  split <;> rfl
theorem ite_cases {α : Type} {c : Prop} [Decidable c] {x y z : α} (h : (if c then x else y) = z) : x = z ∨ y = z := by
  by_cases hc : c
  · rw [if_pos hc] at h; exact .inl h
  · rw [if_neg hc] at h; exact .inr h
theorem State.tryRead_kept {s : State} {c : CoreId} {cur : Cur} {n : Nat} {os : List Operand} {a : Act}
    (h : s.tryRead c cur n os = .error a) : a.Keeps s := by
  unfold State.tryRead at h
  split at h
  · cases h
  · split at h
    · cases h; trivial
    · cases h; exact Eq.refl s.kept
    · simp only at h
      split at h
      · cases h; exact Eq.refl s.kept
      · split at h
        · rename_i h1
          have this := (congrArg (fun z => z.1.kept) h1).symm.trans (State.scratchChecks_kept _ _ _ _)
          rcases ite_cases h with h | h
          · cases h; simp only [Act.Keeps, State.send_kept]; exact this
          · cases h; exact this
        · rename_i h1
          have this := (congrArg (fun z => z.1.kept) h1).symm.trans (State.scratchChecks_kept _ _ _ _)
          repeat' split at h
          all_goals first
            | (cases h; done)
            | (cases h; simp only [Act.Keeps, State.send_kept]; exact this)
            | (cases h; exact this)
theorem State.reading_kept {s : State} {c : CoreId} {cur : Cur} {n : Nat} {os : List Operand} {k : Cur → List Chr → Act}
    (h : ∀ x l, (k x l).Keeps s) : (s.reading c cur n os k).Keeps s := by
  unfold State.reading
  split
  · exact h _ _
  · rename_i h1; exact State.tryRead_kept h1
theorem State.tryStore_error_kept {s : State} {c : CoreId} {cur : Cur} {n : Nat} {os : List Operand} {op : AccOp} {precise : Bool}
    {data : List Chr} {a : Act} (h : s.tryStore c cur n os op precise data = .error a) : a.Keeps s := by
  unfold State.tryStore at h
  split at h
  · cases h
  split at h
  · cases h; trivial
  · cases h; exact Eq.refl s.kept
  simp only [] at h
  split at h
  · cases h; exact Eq.refl s.kept
  split at h
  · rename_i h1
    have h2 := (congrArg (fun z => z.1.kept) h1).symm.trans (State.scratchChecks_kept _ _ _ _)
    rcases ite_cases h with h | h
    · cases h; simp only [Act.Keeps, State.send_kept]; exact h2
    · cases h; exact h2
  · rename_i h1
    have h2 := (congrArg (fun z => z.1.kept) h1).symm.trans (State.scratchChecks_kept _ _ _ _)
    split at h
    · cases h
    split at h
    · cases h; simp only [Act.Keeps, State.send_kept]; exact h2
    · cases h
theorem State.tryStore_kept {s : State} {c : CoreId} {cur : Cur} {n : Nat} {os : List Operand} {op : AccOp} {precise : Bool}
    {data : List Chr} {x : Cur} {t : State} (h : s.tryStore c cur n os op precise data = .ok (x, t)) : t.kept = s.kept := by
  unfold State.tryStore at h
  split at h
  · cases h; exact Eq.refl s.kept
  split at h
  · cases h
  · cases h
  simp only [] at h
  split at h
  · cases h
  split at h
  · rcases ite_cases h with h | h <;> cases h
  · rename_i h1
    have h2 := (congrArg (fun z => z.1.kept) h1).symm.trans (State.scratchChecks_kept _ _ _ _)
    split at h
    · cases h
      rw [foldl_kept]
      · exact h2
      · intros; rfl
    split at h
    · cases h
    · cases h
      rw [State.send_kept]; exact h2
theorem State.storing_kept {s : State} {c : CoreId} {cur : Cur} {n : Nat} {os : List Operand} {op : AccOp} {precise : Bool}
    {data : List Chr} {fin : Cur → State → Act} (h : ∀ x t, t.kept = s.kept → (fin x t).Keeps s) :
    (s.storing c cur n os op precise data fin).Keeps s := by
  unfold State.storing
  split
  · rename_i h1; exact h _ _ (State.tryStore_kept h1)
  · rename_i h1; exact State.tryStore_error_kept h1

/-! ### Control.lean -/

@[simp] theorem State.ringCore_kept (s : State) (c : CoreId) (j : Nat) :
    (State.ringCore s c j).kept = s.kept := by
  unfold State.ringCore
  simp only []
  (repeat' split) <;> simp
@[simp] theorem State.writeCode_kept (s : State) (cl a : Nat) (v : Syll) :
    (State.writeCode s cl a v).kept = s.kept := by
  unfold State.writeCode
  repeat' (first | (with_reducible rfl) | (intro _ _) | split | (simp; done) | (refine (foldl_kept ?_ _ _).trans ?_) | (refine (iter_kept ?_ _ _).trans ?_))

/-! ### Packed.lean -/

theorem State.reservePacket_kept (s : State) (d p q n : Nat) :
    ∀ t, (State.reservePacket s d p q n) = some t → t.1.kept = s.kept := by
  simp [State.reservePacket]
@[simp] theorem State.fillPacket_kept (s : State) (d p q ptr : Nat) (x : Word) (payload : List Word) :
    (State.fillPacket s d p q ptr x payload).kept = s.kept := by
  simp [State.fillPacket]
theorem State.putPacket_kept (s : State) (d p q : Nat) (x : Word) (payload : List Word) :
    ∀ t, (State.putPacket s d p q x payload) = some t → t.1.kept = s.kept := by
  intro t h
  unfold State.putPacket at h
  rw [Option.map_eq_some_iff] at h
  obtain ⟨y, h1, rfl⟩ := h
  exact (State.fillPacket_kept _ _ _ _ _ _ _).trans (State.reservePacket_kept _ _ _ _ _ _ h1)
@[simp] theorem State.dropPacket_kept (s : State) (d p q : Nat) :
    (State.dropPacket s d p q).kept = s.kept := by
  simp [State.dropPacket]
@[simp] theorem State.retype_kept (s : State) (d p q v type : Nat) :
    (State.retype s d p q v type).kept = s.kept := by
  simp [State.retype]
@[simp] theorem State.skipHead_kept (s : State) (d p q : Nat) :
    (State.skipHead s d p q).kept = s.kept := by
  simp [State.skipHead]
@[simp] theorem State.retirePacket_kept (s : State) (d p q v : Nat) :
    (State.retirePacket s d p q v).kept = s.kept := by
  simp [State.retirePacket]
@[simp] theorem State.ramCorrected_kept (s : State) (d p unit : Nat) (ls : List Nat) :
    (State.ramCorrected s d p unit ls).kept = s.kept := by
  unfold State.ramCorrected
  simp only []
  repeat' (first | (with_reducible rfl) | (intro _ _) | split | (simp; done) | (refine (foldl_kept ?_ _ _).trans ?_) | (refine (iter_kept ?_ _ _).trans ?_))
@[simp] theorem State.ramLost_kept (s : State) (d p unit code l : Nat) :
    (State.ramLost s d p unit code l).kept = s.kept := by
  simp [State.ramLost]
@[simp] theorem State.packetRead_kept (s : State) (d p q v : Nat) :
    (State.packetRead s d p q v).1.kept = s.kept := by
  unfold State.packetRead
  simp only []
  (repeat' split) <;> simp
@[simp] theorem State.discardAt_kept (s : State) (d l : Nat) :
    (State.discardAt s d l).kept = s.kept := by
  unfold State.discardAt
  simp only []
  repeat' (first | (with_reducible rfl) | (intro _ _) | split | (simp; done) | (refine (foldl_kept ?_ _ _).trans ?_) | (refine (iter_kept ?_ _ _).trans ?_))

/-! ### Txn.lean -/

@[simp] theorem State.copyFrame_kept (s : State) (cl off : Nat) (l : List Chr) :
    (State.copyFrame s cl off l).kept = s.kept := by
  unfold State.copyFrame
  repeat' (first | (with_reducible rfl) | (intro _ _) | split | (simp; done) | (refine (foldl_kept ?_ _ _).trans ?_) | (refine (iter_kept ?_ _ _).trans ?_))
@[simp] theorem State.takeSlot_kept (s : State) (c : CoreId) (d : Reg) (n : Nat) :
    (State.takeSlot s c d n).kept = s.kept := by
  unfold State.takeSlot
  simp only []
  (repeat' split) <;> simp
@[simp] theorem State.nextTaken_kept (s : State) (c : CoreId) (d : Reg) (n : Nat) :
    (State.nextTaken s c d n).kept = s.kept := by
  simp [State.nextTaken]
@[simp] theorem State.declare_kept (s : State) (c : CoreId) (n : Nat) (cs : List ClaimReg) (borrow : Bool) :
    (State.declare s c n cs borrow).kept = s.kept := by
  unfold State.declare
  simp only []
  repeat' (first | (with_reducible rfl) | (intro _ _) | split | (simp; done) | (refine (foldl_kept ?_ _ _).trans ?_) | (refine (iter_kept ?_ _ _).trans ?_))
@[simp] theorem State.evict_kept (s : State) (d p q n k : Nat) : (State.evict s d p q n k).kept = s.kept := by
  induction k generalizing s with
  | zero => unfold State.evict; with_reducible rfl
  | succ k ih =>
    unfold State.evict
    simp only []
    split
    · with_reducible rfl
    · rw [ih, State.updPort_kept, State.retirePacket_kept]
theorem State.placeResponse_kept (s : State) (d n : Nat) (body : List Octet) :
    ∀ t, State.placeResponse s d n body = some t → t.kept = s.kept := by
  intro t h
  unfold State.placeResponse at h
  simp only [] at h
  split at h
  · split at h
    · cases h; exact State.setSlot_kept _ _ _ _
    split at h
    · cases h; exact State.setSlot_kept _ _ _ _
    split at h
    · cases h
    · cases h; rw [State.setSlot_kept, State.updHost_kept]
  · split at h
    · cases h; exact State.setSlot_kept _ _ _ _
    split at h
    · cases h
    split at h
    · cases h
    · rename_i h1
      cases h
      rw [State.setSlot_kept, State.updPort_kept]
      exact (State.putPacket_kept _ _ _ _ _ _ _ h1).trans (State.evict_kept _ _ _ _ _ _)
@[simp] theorem State.putLine_kept (s : State) (d l : Nat) (chars : List Chr) (info : LineMeta) :
    (State.putLine s d l chars info).kept = s.kept := by
  simp [State.putLine]
@[simp] theorem State.releaseClaims_kept (s : State) (d n : Nat) : (State.releaseClaims s d n).kept = s.kept := by
  unfold State.releaseClaims
  simp only []
  rw [State.updSlot_kept, iter_kept, foldl_kept]
  · intro x q
    split
    · split
      · exact State.post_kept _ _
      · with_reducible rfl
    · with_reducible rfl
  · intro k x; exact State.updCluster_kept _ _ _
@[simp] theorem State.freeSlot_kept (s : State) (d n : Nat) :
    (State.freeSlot s d n).kept = s.kept := by
  unfold State.freeSlot
  simp only []
  (repeat' split) <;> simp
@[simp] theorem State.tryFree_kept (s : State) (d n : Nat) :
    (State.tryFree s d n).kept = s.kept := by
  unfold State.tryFree
  simp only []
  (repeat' split) <;> simp
@[simp] theorem State.letGo_kept (s : State) (c : CoreId) (n : Nat) :
    (State.letGo s c n).kept = s.kept := by
  simp [State.letGo]

/-! ### Strings.lean -/

@[simp] theorem State.saveString_kept (s : State) (c : CoreId) (i : Instr) (p : StrProg) :
    (State.saveString s c i p).kept = s.kept := by
  simp [State.saveString]

/-! ### Clock.lean -/

@[simp] theorem State.setTick_kept (s : State) (u : Nat) :
    (State.setTick s u).kept = s.kept := by
  unfold State.setTick
  try simp only []
  repeat' (first | (with_reducible rfl) | (intro _ _) | split | (simp; done) | (refine (foldl_kept ?_ _ _).trans ?_) | (refine (iter_kept ?_ _ _).trans ?_) | (grind [kept_mk, kept_eta, State.updDie_kept, State.updSdRegs_kept, foldl_kept, iter_kept]) | simp)
@[simp] theorem State.setTime_kept (s : State) (t : Pair) :
    (State.setTime s t).kept = s.kept := by
  unfold State.setTime
  simp only []
  (repeat' split) <;> simp
@[simp] theorem State.edgePassed_kept (s : State) :
    (State.edgePassed s).kept = s.kept := by
  simp [State.edgePassed]
@[simp] theorem State.stamp_kept (s : State) (port : Nat) :
    (State.stamp s port).1.kept = s.kept := by
  simp [State.stamp]
@[simp] theorem State.startHorizons_kept (s : State) :
    (State.startHorizons s).kept = s.kept := by
  unfold State.startHorizons
  try simp only []
  repeat' (first | (with_reducible rfl) | (intro _ _) | split | (simp; done) | (refine (foldl_kept ?_ _ _).trans ?_) | (refine (iter_kept ?_ _ _).trans ?_) | (grind [kept_mk, kept_eta, State.updDie_kept, State.updSd_kept, foldl_kept, iter_kept]) | simp)
@[simp] theorem State.openAdmission_kept (s : State) :
    (State.openAdmission s).kept = s.kept := by
  unfold State.openAdmission
  try simp only []
  repeat' (first | (with_reducible rfl) | (intro _ _) | split | (simp [kept_mk, kept_eta, State.updDie_kept, State.updPartn_kept, State.updSd_kept, State.updPwr_kept, State.startHorizons_kept, foldl_kept, iter_kept]; done) | (refine (foldl_kept ?_ _ _).trans ?_) | (refine (iter_kept ?_ _ _).trans ?_) | (grind [kept_mk, kept_eta, State.updDie_kept, State.updPartn_kept, State.updSd_kept, State.updPwr_kept, State.startHorizons_kept, foldl_kept, iter_kept]) | (simp only [kept_mk, kept_eta, State.updDie_kept, State.updPartn_kept, State.updSd_kept, State.updPwr_kept, State.startHorizons_kept, foldl_kept, iter_kept]))
@[simp] theorem State.tryAdmission_kept (s : State) :
    (State.tryAdmission s).kept = s.kept := by
  unfold State.tryAdmission
  simp only []
  (repeat' split) <;> simp
@[simp] theorem State.enterSd_kept (s : State) (st : SdSt) (source : BitVec 3) (which : Bool) (port : BitVec 6) :
    (State.enterSd s st source which port).kept = s.kept := by
  unfold State.enterSd
  simp only []
  (repeat' split) <;> simp
@[simp] theorem State.enterFree_kept (s : State) :
    (State.enterFree s).kept = s.kept := by
  simp [State.enterFree]
@[simp] theorem State.tryFreeRun_kept (s : State) :
    (State.tryFreeRun s).kept = s.kept := by
  unfold State.tryFreeRun
  simp only []
  (repeat' split) <;> simp
@[simp] theorem State.writeSetLo_kept (s : State) (v : Word) :
    (State.writeSetLo s v).kept = s.kept := by
  unfold State.writeSetLo
  (repeat' split) <;> simp
@[simp] theorem State.writeSetHi_kept (s : State) (v : Word) :
    (State.writeSetHi s v).kept = s.kept := by
  unfold State.writeSetHi
  (repeat' split) <;> simp

/-! ### Registers.lean -/

@[simp] theorem State.freeChars_kept (s : State) (n : Nat) : (s.freeChars n).1.kept = s.kept := by
  induction n generalizing s with
  | zero => rfl
  | succ n ih => unfold State.freeChars; exact ih _
@[simp] theorem State.ramFetch_kept (s : State) (d a n part unit code : Nat) :
    (State.ramFetch s d a n part unit code).1.kept = s.kept := by
  unfold State.ramFetch
  simp only []
  (repeat' split) <;> simp
@[simp] theorem State.ramWrite_kept (s : State) (d a : Nat) (l : List Chr) :
    (State.ramWrite s d a l).kept = s.kept := by
  unfold State.ramWrite
  (repeat' split) <;> simp
@[simp] theorem State.space2Read_kept (s : State) (off : Nat) :
    (State.space2Read s off).1.kept = s.kept := by
  unfold State.space2Read
  simp only []
  (repeat' split) <;> simp
@[simp] theorem State.hubMessage_kept (s : State) (c : Nat) (v : Word) :
    (State.hubMessage s c v).kept = s.kept := by
  simp [State.hubMessage]
@[simp] theorem State.space2Write_kept (s : State) (off : Nat) (v : Word) :
    (State.space2Write s off v).kept = s.kept := by
  unfold State.space2Write
  simp only []
  (repeat' split) <;> simp

/-! ### Memory.lean -/

@[simp] theorem State.setLineInfo_kept (s : State) (d l : Nat) (m : LineMeta) :
    (State.setLineInfo s d l m).kept = s.kept := (fun h => h) rfl
@[simp] theorem State.putChars_kept (s : State) (d l at_ : Nat) (data : List Chr) :
    (State.putChars s d l at_ data).kept = s.kept := (fun h => h) rfl
@[simp] theorem State.updAccess_kept (s : State) (id : Nat) (f : Access → Access) :
    (State.updAccess s id f).kept = s.kept := (fun h => h) rfl
@[simp] theorem State.dropAccess_kept (s : State) (id : Nat) :
    (State.dropAccess s id).kept = s.kept := (fun h => h) rfl
@[simp] theorem State.saveImage_kept (s : State) (d l : Nat) (p : PartId) (epoch : Nat) (owner : Option (DieId × Nat)) (join : Bool) :
    (State.saveImage s d l p epoch owner join).kept = s.kept := by
  simp [State.saveImage]
@[simp] theorem State.sendMirrorOn_kept (s : State) (n dst : Nat) (body : MPayload) :
    (State.sendMirrorOn s n dst body).kept = s.kept := by
  unfold State.sendMirrorOn
  (repeat' split) <;> simp
@[simp] theorem State.sendMirror_kept (s : State) (dst : Nat) (body : MPayload) :
    (State.sendMirror s dst body).kept = s.kept := by
  simp [State.sendMirror]
@[simp] theorem State.giveUpJoin_kept (s : State) (p : PartId) :
    (State.giveUpJoin s p).kept = s.kept := by
  unfold State.giveUpJoin
  simp only []
  repeat' (first | (with_reducible rfl) | (intro _ _) | split | (simp; done) | (refine (foldl_kept ?_ _ _).trans ?_) | (refine (iter_kept ?_ _ _).trans ?_))
@[simp] theorem State.joinImage_kept (s : State) (d l : Nat) (p : PartId) :
    (State.joinImage s d l p).kept = s.kept := by
  unfold State.joinImage
  (repeat' split) <;> simp
@[simp] theorem State.countPlain_kept (s : State) (p d l at_ epoch : Nat) (data : List Chr) :
    (State.countPlain s p d l at_ epoch data).kept = s.kept := by
  simp [State.countPlain]
@[simp] theorem State.takeBack_kept (s : State) (d n : Nat) :
    (State.takeBack s d n).kept = s.kept := by
  unfold State.takeBack
  try simp only []
  repeat' (first | (with_reducible rfl) | (intro _ _) | split | (simp [kept_mk, kept_eta, State.updCore_kept, State.updCluster_kept, State.setSlot_kept, State.updSlot_kept, State.interrupt_kept, foldl_kept, iter_kept]; done) | (refine (foldl_kept ?_ _ _).trans ?_) | (refine (iter_kept ?_ _ _).trans ?_) | (grind [kept_mk, kept_eta, State.updCore_kept, State.updCluster_kept, State.setSlot_kept, State.updSlot_kept, State.interrupt_kept, foldl_kept, iter_kept]) | (simp only [kept_mk, kept_eta, State.updCore_kept, State.updCluster_kept, State.setSlot_kept, State.updSlot_kept, State.interrupt_kept, foldl_kept, iter_kept]))
@[simp] theorem State.discardResponses_kept (s : State) (p r d : Nat) :
    (State.discardResponses s p r d).kept = s.kept := by
  unfold State.discardResponses
  simp only []
  repeat' (first | (with_reducible rfl) | (intro _ _) | split | (simp; done) | (refine (foldl_kept ?_ _ _).trans ?_) | (refine (iter_kept ?_ _ _).trans ?_))
@[simp] theorem State.failRow_kept (s : State) (d row u : Nat) :
    (State.failRow s d row u).kept = s.kept := by
  unfold State.failRow
  simp only []
  (repeat' split) <;> simp
@[simp] theorem State.countRowCe_kept (s : State) (d row u n : Nat) :
    (State.countRowCe s d row u n).kept = s.kept := by
  unfold State.countRowCe
  simp only []
  (repeat' split) <;> simp
@[simp] theorem State.skipHeld_kept (s : State) (d l : Nat) :
    (State.skipHeld s d l).kept = s.kept := by
  simp [State.skipHeld]
@[simp] theorem State.poisonKept_kept (s : State) (d l : Nat) :
    (State.poisonKept s d l).kept = s.kept := by
  simp [State.poisonKept]
@[simp] theorem State.askPartner_kept (s : State) (d l e : Nat) :
    (State.askPartner s d l e).kept = s.kept := by
  unfold State.askPartner
  (repeat' split) <;> simp
@[simp] theorem State.startRepair_kept (s : State) (d l : Nat) :
    (State.startRepair s d l).kept = s.kept := by
  unfold State.startRepair
  (repeat' split) <;> simp
@[simp] theorem State.corrected_kept (s : State) (d l : Nat) (at_ : List (Nat × Nat)) :
    (State.corrected s d l at_).kept = s.kept := by
  unfold State.corrected
  try simp only []
  repeat' (first | (with_reducible rfl) | (intro _ _) | split | (simp; done) | (refine (foldl_kept ?_ _ _).trans ?_) | (refine (iter_kept ?_ _ _).trans ?_) | (grind [kept_mk, kept_eta, State.updDie_kept, State.logErr_kept, State.countRowCe_kept, foldl_kept, iter_kept]) | simp)
@[simp] theorem State.correctedArea_kept (s : State) (d row : Nat) (at_ : List (Nat × Nat)) :
    (State.correctedArea s d row at_).kept = s.kept := by
  unfold State.correctedArea
  repeat' (first | (with_reducible rfl) | (intro _ _) | split | (simp; done) | (refine (foldl_kept ?_ _ _).trans ?_) | (refine (iter_kept ?_ _ _).trans ?_))
@[simp] theorem State.areaLost_kept (s : State) (d row part code : Nat) :
    (State.areaLost s d row part code).kept = s.kept := by
  simp [State.areaLost]
@[simp] theorem State.uncorrectable_kept (s : State) (d l code unit : Nat) :
    (State.uncorrectable s d l code unit).kept = s.kept := by
  simp [State.uncorrectable]
@[simp] theorem State.tagLost_kept (s : State) (d l : Nat) :
    (State.tagLost s d l).kept = s.kept := by
  unfold State.tagLost
  simp only []
  repeat' (first | (with_reducible rfl) | (intro _ _) | split | (simp; done) | (refine (foldl_kept ?_ _ _).trans ?_) | (refine (iter_kept ?_ _ _).trans ?_))
@[simp] theorem State.alterTags_kept (s : State) (d l : Nat) (x : List (Nat × BitVec 4)) :
    (State.alterTags s d l x).kept = s.kept := by
  unfold State.alterTags
  try simp only []
  repeat' (first | (with_reducible rfl) | (intro _ _) | split | (simp; done) | (refine (foldl_kept ?_ _ _).trans ?_) | (refine (iter_kept ?_ _ _).trans ?_) | (grind [kept_mk, kept_eta, State.setLineInfo_kept, foldl_kept, iter_kept]) | simp)
@[simp] theorem State.readTags_kept (s : State) (d l : Nat) (e : Ecc) :
    (State.readTags s d l e).1.kept = s.kept := by
  unfold State.readTags
  (repeat' split) <;> simp
@[simp] theorem State.readSymbols_kept (s : State) (d l : Nat) (e : Ecc) (code unit : Nat) :
    (State.readSymbols s d l e code unit).1.kept = s.kept := by
  unfold State.readSymbols
  (repeat' split) <;> simp
@[simp] theorem State.swapImage_kept (s : State) (d : Nat) (g g' : Image) :
    (State.swapImage s d g g').kept = s.kept := by
  simp [State.swapImage]
@[simp] theorem State.imageLost_kept (s : State) (d : Nat) (g : Image) (code : Nat) :
    (State.imageLost s d g code).kept = s.kept := by
  unfold State.imageLost
  (repeat' split) <;> simp
@[simp] theorem State.readImage_kept (s : State) (d : Nat) (g : Image) (x : List (Nat × BitVec 4)) (code : Nat) :
    (State.readImage s d g x code).1.kept = s.kept := by
  unfold State.readImage
  (repeat' split) <;> simp
@[simp] theorem State.restoreFrom_kept (s : State) (d : Nat) (g : Image) :
    (State.restoreFrom s d g).kept = s.kept := by
  unfold State.restoreFrom
  (repeat' split) <;> simp
@[simp] theorem State.restoreOn_kept (s : State) (d n e : Nat) :
    (State.restoreOn s d n e).kept = s.kept := by
  unfold State.restoreOn
  simp only []
  repeat' (first | (with_reducible rfl) | (intro _ _) | split | (simp; done) | (refine (foldl_kept ?_ _ _).trans ?_) | (refine (iter_kept ?_ _ _).trans ?_))
@[simp] theorem State.restoreSlot_kept (s : State) (d n : Nat) :
    (State.restoreSlot s d n).kept = s.kept := by
  unfold State.restoreSlot
  try simp only []
  repeat' (first | (with_reducible rfl) | (intro _ _) | split | (simp [kept_mk, kept_eta, State.updSlot_kept, State.releaseClaims_kept, State.restoreOn_kept, foldl_kept, iter_kept]; done) | (refine (foldl_kept ?_ _ _).trans ?_) | (refine (iter_kept ?_ _ _).trans ?_) | (grind [kept_mk, kept_eta, State.updSlot_kept, State.releaseClaims_kept, State.restoreOn_kept, foldl_kept, iter_kept]) | (simp only [kept_mk, kept_eta, State.updSlot_kept, State.releaseClaims_kept, State.restoreOn_kept, foldl_kept, iter_kept]))
@[simp] theorem State.rollBack_kept (s : State) (p r d : Nat) :
    (State.rollBack s p r d).kept = s.kept := by
  unfold State.rollBack
  simp only []
  repeat' (first | (with_reducible rfl) | (intro _ _) | split | (simp; done) | (refine (foldl_kept ?_ _ _).trans ?_) | (refine (iter_kept ?_ _ _).trans ?_))
@[simp] theorem State.reexecute_kept (s : State) (p : Nat) :
    (State.reexecute s p).kept = s.kept := by
  unfold State.reexecute
  try simp only []
  repeat' (first | (with_reducible rfl) | (intro _ _) | split | (simp [kept_mk, kept_eta, State.updDie_kept, State.updPartn_kept, State.updHost_kept, State.updTs_kept, State.takeBack_kept, State.discardResponses_kept, State.rollBack_kept, foldl_kept, iter_kept]; done) | (refine (foldl_kept ?_ _ _).trans ?_) | (refine (iter_kept ?_ _ _).trans ?_) | (grind [kept_mk, kept_eta, State.updDie_kept, State.updPartn_kept, State.updHost_kept, State.updTs_kept, State.takeBack_kept, State.discardResponses_kept, State.rollBack_kept, foldl_kept, iter_kept]) | (simp only [kept_mk, kept_eta, State.updDie_kept, State.updPartn_kept, State.updHost_kept, State.updTs_kept, State.takeBack_kept, State.discardResponses_kept, State.rollBack_kept, foldl_kept, iter_kept]))
@[simp] theorem State.repaired_kept (s : State) (d l : Nat) (chars : List Chr) (info : LineMeta) (source : Nat) :
    (State.repaired s d l chars info source).kept = s.kept := by
  unfold State.repaired
  simp only []
  (repeat' split) <;> simp
@[simp] theorem State.memErr_kept (s : State) (c : Nat) (slot : Option Nat) :
    (State.memErr s c slot).kept = s.kept := by
  unfold State.memErr
  (repeat' split) <;> simp

/-! ### GateCheck.lean -/

@[simp] theorem State.violation_kept (s : State) (v : Verdict) (kind : Nat) (source : Word) (pa : Nat) :
    (State.violation s v kind source pa).kept = s.kept := by
  simp [State.violation]
@[simp] theorem State.refusePart_kept (s : State) (a : Access) (q : AccPart) (v : Verdict) (lineKey : Nat) :
    (State.refusePart s a q v lineKey).kept = s.kept := by
  simp [State.refusePart]

/-! ### Access.lean -/

@[simp] theorem State.load_kept (s : State) (c : CoreId) (i : Instr) (t : Tail) (n align cc : Nat) (f : CoreRegs → List Chr → CoreRegs) :
    (stateOr s (s.load c i t n align cc f)).kept = s.kept := by
  unfold State.load
  simp only [stateOr]
  exact State.instr_kept _ _ _ fun x y => State.reading_kept fun _ _ => State.updR_kept _ _ _
@[simp] theorem State.store_kept (s : State) (c : CoreId) (i : Instr) (t : Tail) (n align cc : Nat) (f : CoreRegs → List Chr) :
    (stateOr s (s.store c i t n align cc f)).kept = s.kept := by
  unfold State.store
  simp only [stateOr]
  refine State.instr_kept _ _ _ fun _ _ => State.storing_kept fun _ _ h => ?_
  exact h
theorem State.decResult_keeps {s t : State} {c : CoreId} {x : DReg} {v : Int} {cc : Nat} (h : t.kept = s.kept) :
    (t.decResult c x v cc).Keeps s := by
  unfold State.decResult; split
  · exact h
  · trivial
theorem State.startDec_keeps {s t : State} {c : CoreId} {a b : Nat} {l m} (h : t.kept = s.kept) : (t.startDec c a b l m).Keeps s := h
theorem State.decProduct_keeps {s t : State} {c : CoreId} {x : DReg} {p : Int} {cc : Nat} (h : t.kept = s.kept) :
    (t.decProduct c x p cc).Keeps s := h
theorem State.packed_kept (s : State) (c : CoreId) (i : Instr) (t : Tail) (n : BitVec 3) {f : State → Int → Act}
    (h : ∀ x v, (f x v).Keeps x) : (stateOr s (s.packed c i t n f)).kept = s.kept := by
  unfold State.packed
  simp only [stateOr]
  refine State.instr_kept _ _ _ fun x y => State.reading_kept fun _ _ => ?_
  split
  · exact h _ _
  · trivial
theorem State.precheck_keeps {s : State} {c : CoreId} {x : Cur} {o : Operand} {a : Act} (h : a.Keeps s) : (s.precheck c x o a).Keeps s := by
  unfold State.precheck
  repeat' split
  all_goals first | exact h | trivial | exact Eq.refl s.kept
theorem State.fillRead_keeps {s : State} {c : CoreId} {x : Cur} {round : Nat} {k : Cap} {e n : Nat} {f : Cur → List Chr → Act}
    (h : ∀ x l, (f x l).Keeps s) : (s.fillRead c x round k e n f).Keeps s := by
  unfold State.fillRead
  split
  · trivial
  · exact State.reading_kept h
theorem State.strAct_keeps {s : State} {c : CoreId} {x : Cur} {a : Act} (h : a.Keeps s) : (State.strAct c x s a).Keeps s := by
  cases a <;> simp only [State.strAct, Act.Keeps, State.updCore_kept, State.saveString_kept] at h ⊢ <;> assumption
/-- The same for a unit of a string instruction. -/
def UnitRes.Keeps (s : State) : UnitRes → Prop
  | .next _ t _ => t.kept = s.kept
  | .act a => a.Keeps s
  | .own _ _ => True
theorem Act.Keeps.trans {s t : State} {a : Act} (h : a.Keeps t) (ht : t.kept = s.kept) : a.Keeps s := by
  cases a <;> simp only [Act.Keeps] at h ⊢ <;> exact h.trans ht
theorem StrOp.run_keeps {op : StrOp} (hu : ∀ x s, (op.unit x s).Keeps s) (c : CoreId) (n : Nat) (x : Cur) (s : State) :
    (op.run c n x s).Keeps s := by
  induction n generalizing x s with
  | zero => unfold StrOp.run; exact Eq.refl s.kept
  | succ n ih =>
    unfold StrOp.run
    split
    · exact State.updR_kept _ _ _
    have h := hu x s
    split
    · rename_i h1; rw [h1] at h; exact State.strAct_keeps h
    · rename_i h1; split
      · exact State.saveString_kept _ _ _ _
      · trivial
    · rename_i h1; rw [h1] at h
      simp only []
      split
      · exact (State.saveString_kept _ _ _ _).trans h
      · exact (ih _ _).trans h
theorem State.string_kept (s : State) (c : CoreId) (i : Instr) (bound : CoreRegs → Nat) {op : CoreRegs → StrOp}
    (hu : ∀ r x s, ((op r).unit x s).Keeps s) : (stateOr s (s.string c i bound op)).kept = s.kept := by
  unfold State.string
  simp only [stateOr]
  refine State.instr_kept _ _ _ fun x y => ?_
  unfold StrOp.body
  split
  · exact StrOp.run_keeps (hu _) _ _ _ _
  split
  · trivial
  simp only []
  split
  · split
    · trivial
    · exact StrOp.run_keeps (hu _) _ _ _ _
  · split
    · exact State.updCore_kept _ _ _
    · exact (StrOp.run_keeps (hu _) _ _ _ _).trans (State.updCore_kept _ _ _)
theorem storeUnit_keeps {c : CoreId} {x : Cur} {s : State} {r : Nat} {o : Operand} {d : List Chr} {p : StrProg} {n : Nat} :
    (storeUnit c x s r o d p n).Keeps s := by
  unfold storeUnit
  split
  · rename_i h; exact State.tryStore_error_kept h
  · rename_i h; exact State.tryStore_kept h
theorem readUnit_keeps {c : CoreId} {x : Cur} {s : State} {r : Nat} {os : List Operand} {f : Cur → List Chr → UnitRes}
    (h : ∀ x l, (f x l).Keeps s) : (readUnit c x s r os f).Keeps s := by
  unfold readUnit
  split
  · rename_i h; exact State.tryRead_kept h
  · exact h _ _
@[simp] theorem execLdc_kept (c : CoreId) (d : Reg) (t : Tail) (s : State) : (stateOr s (execLdc c d t s)).kept = s.kept := State.load_kept _ _ _ _ _ _ _ _
@[simp] theorem execLdw_kept (c : CoreId) (d : Reg) (t : Tail) (s : State) : (stateOr s (execLdw c d t s)).kept = s.kept := State.load_kept _ _ _ _ _ _ _ _
@[simp] theorem execLdp_kept (c : CoreId) (d : Reg) (t : Tail) (s : State) : (stateOr s (execLdp c d t s)).kept = s.kept := State.load_kept _ _ _ _ _ _ _ _
@[simp] theorem execStc_kept (c : CoreId) (a : Reg) (t : Tail) (s : State) : (stateOr s (execStc c a t s)).kept = s.kept := State.store_kept _ _ _ _ _ _ _ _
@[simp] theorem execStw_kept (c : CoreId) (a : Reg) (t : Tail) (s : State) : (stateOr s (execStw c a t s)).kept = s.kept := State.store_kept _ _ _ _ _ _ _ _
@[simp] theorem execStp_kept (c : CoreId) (a : Reg) (t : Tail) (s : State) : (stateOr s (execStp c a t s)).kept = s.kept := State.store_kept _ _ _ _ _ _ _ _
@[simp] theorem execMac_kept (c : CoreId) (a : Reg) (kb : KReg) (i : Reg) (kc : KReg) (j : Reg) (sa sb : BitVec 6) (s : State) : (stateOr s (execMac c a kb i kc j sa sb s)).kept = s.kept := by
  unfold execMac
  simp only [stateOr]
  refine State.instr_kept _ _ _ ?_
  intro _ _
  try simp only []
  repeat' (first | (with_reducible assumption) | split | (refine State.reading_kept ?_) | (refine State.storing_kept ?_) | (refine State.fillRead_keeps ?_) | (refine State.precheck_keeps ?_) | (intro _ _) | (simp [*, Act.Keeps, State.updR_kept, State.updCore_kept, State.updCluster_kept, State.setScratchInfo_kept, State.send_kept, State.setSlot_kept, State.declare_kept, State.letGo_kept, State.post_kept]; done) | (simp only [Act.Keeps]) | trivial | (rename_i h; exact State.placeResponse_kept _ _ _ _ _ h))
@[simp] theorem execTxnRespond_kept (c : CoreId) (l : Reg) (t : Tail) (s : State) : (stateOr s (execTxnRespond c l t s)).kept = s.kept := by
  unfold execTxnRespond
  simp only [stateOr]
  refine State.instr_kept _ _ _ ?_
  intro _ _
  try simp only []
  repeat' (first | (with_reducible assumption) | split | (refine State.reading_kept ?_) | (refine State.storing_kept ?_) | (refine State.fillRead_keeps ?_) | (refine State.precheck_keeps ?_) | (intro _ _) | (simp [*, Act.Keeps, State.updR_kept, State.updCore_kept, State.updCluster_kept, State.setScratchInfo_kept, State.send_kept, State.setSlot_kept, State.declare_kept, State.letGo_kept, State.post_kept]; done) | (simp only [Act.Keeps]) | trivial | (rename_i h; exact State.placeResponse_kept _ _ _ _ _ h))
@[simp] theorem execTxnClaim_kept (c : CoreId) (t : Tail) (s : State) : (stateOr s (execTxnClaim c t s)).kept = s.kept := by
  unfold execTxnClaim State.claiming
  simp only [stateOr]
  refine State.instr_kept _ _ _ ?_
  intro _ _
  try simp only []
  repeat' (first | (with_reducible assumption) | split | (refine State.reading_kept ?_) | (refine State.storing_kept ?_) | (refine State.fillRead_keeps ?_) | (refine State.precheck_keeps ?_) | (intro _ _) | (simp [*, Act.Keeps, State.updR_kept, State.updCore_kept, State.updCluster_kept, State.setScratchInfo_kept, State.send_kept, State.setSlot_kept, State.declare_kept, State.letGo_kept, State.post_kept]; done) | (simp only [Act.Keeps]) | trivial | (rename_i h; exact State.placeResponse_kept _ _ _ _ _ h))
@[simp] theorem execTxnClaimx_kept (c : CoreId) (t : Tail) (s : State) : (stateOr s (execTxnClaimx c t s)).kept = s.kept := by
  unfold execTxnClaimx State.claiming
  simp only [stateOr]
  refine State.instr_kept _ _ _ ?_
  intro _ _
  try simp only []
  repeat' (first | (with_reducible assumption) | split | (refine State.reading_kept ?_) | (refine State.storing_kept ?_) | (refine State.fillRead_keeps ?_) | (refine State.precheck_keeps ?_) | (intro _ _) | (simp [*, Act.Keeps, State.updR_kept, State.updCore_kept, State.updCluster_kept, State.setScratchInfo_kept, State.send_kept, State.setSlot_kept, State.declare_kept, State.letGo_kept, State.post_kept]; done) | (simp only [Act.Keeps]) | trivial | (rename_i h; exact State.placeResponse_kept _ _ _ _ _ h))
@[simp] theorem execDcas_kept (c : CoreId) (x y : DReg) (w : Reg) (t : Tail) (s : State) : (stateOr s (execDcas c x y w t s)).kept = s.kept := by
  unfold execDcas State.posting
  simp only [stateOr]
  refine State.instr_kept _ _ _ ?_
  intro _ _
  try simp only []
  repeat' (first | (with_reducible assumption) | split | (refine State.reading_kept ?_) | (refine State.storing_kept ?_) | (refine State.fillRead_keeps ?_) | (refine State.precheck_keeps ?_) | (intro _ _) | (simp [*, Act.Keeps, State.updR_kept, State.updCore_kept, State.updCluster_kept, State.setScratchInfo_kept, State.send_kept, State.setSlot_kept, State.declare_kept, State.letGo_kept, State.post_kept]; done) | (simp only [Act.Keeps]) | trivial | (rename_i h; exact State.placeResponse_kept _ _ _ _ _ h))
@[simp] theorem execDpost_kept (c : CoreId) (x : DReg) (w : Reg) (k : KReg) (o : PostOff) (s : State) : (stateOr s (execDpost c x w k o s)).kept = s.kept := by
  unfold execDpost State.posting
  simp only [stateOr]
  refine State.instr_kept _ _ _ ?_
  intro _ _
  try simp only []
  repeat' (first | (with_reducible assumption) | split | (refine State.reading_kept ?_) | (refine State.storing_kept ?_) | (refine State.fillRead_keeps ?_) | (refine State.precheck_keeps ?_) | (intro _ _) | (simp [*, Act.Keeps, State.updR_kept, State.updCore_kept, State.updCluster_kept, State.setScratchInfo_kept, State.send_kept, State.setSlot_kept, State.declare_kept, State.letGo_kept, State.post_kept]; done) | (simp only [Act.Keeps]) | trivial | (rename_i h; exact State.placeResponse_kept _ _ _ _ _ h))
@[simp] theorem execDacc_kept (c : CoreId) (x : DReg) (w : Reg) (k : KReg) (o : PostOff) (s : State) : (stateOr s (execDacc c x w k o s)).kept = s.kept := by
  unfold execDacc
  simp only [stateOr]
  refine State.instr_kept _ _ _ ?_
  intro _ _
  try simp only []
  repeat' (first | (with_reducible assumption) | split | (refine State.reading_kept ?_) | (refine State.storing_kept ?_) | (refine State.fillRead_keeps ?_) | (refine State.precheck_keeps ?_) | (intro _ _) | (simp [*, Act.Keeps, State.updR_kept, State.updCore_kept, State.updCluster_kept, State.setScratchInfo_kept, State.send_kept, State.setSlot_kept, State.declare_kept, State.letGo_kept, State.post_kept]; done) | (simp only [Act.Keeps]) | trivial | (rename_i h; exact State.placeResponse_kept _ _ _ _ _ h))
@[simp] theorem execFspill_kept (c : CoreId) (s : State) : (stateOr s (execFspill c s)).kept = s.kept := by
  unfold execFspill
  simp only [stateOr]
  refine State.instr_kept _ _ _ ?_
  intro _ _
  try simp only []
  repeat' (first | (with_reducible assumption) | split | (refine State.reading_kept ?_) | (refine State.storing_kept ?_) | (refine State.fillRead_keeps ?_) | (refine State.precheck_keeps ?_) | (intro _ _) | (simp [*, Act.Keeps, State.updR_kept, State.updCore_kept, State.updCluster_kept, State.setScratchInfo_kept, State.send_kept, State.setSlot_kept, State.declare_kept, State.letGo_kept, State.post_kept]; done) | (simp only [Act.Keeps]) | trivial | (rename_i h; exact State.placeResponse_kept _ _ _ _ _ h))
@[simp] theorem execFfill_kept (c : CoreId) (s : State) : (stateOr s (execFfill c s)).kept = s.kept := by
  unfold execFfill
  simp only [stateOr]
  refine State.instr_kept _ _ _ ?_
  intro _ _
  try simp only []
  repeat' (first | (with_reducible assumption) | split | (refine State.reading_kept ?_) | (refine State.storing_kept ?_) | (refine State.fillRead_keeps ?_) | (refine State.precheck_keeps ?_) | (intro _ _) | (simp [*, Act.Keeps, State.updR_kept, State.updCore_kept, State.updCluster_kept, State.setScratchInfo_kept, State.send_kept, State.setSlot_kept, State.declare_kept, State.letGo_kept, State.post_kept]; done) | (simp only [Act.Keeps]) | trivial | (rename_i h; exact State.placeResponse_kept _ _ _ _ _ h))
@[simp] theorem execDldw_kept (c : CoreId) (x : DReg) (n : BitVec 3) (t : Tail) (s : State) : (stateOr s (execDldw c x n t s)).kept = s.kept :=
  State.packed_kept _ _ _ _ _ fun x _ => State.updR_kept x _ _
@[simp] theorem execDstw_kept (c : CoreId) (x : DReg) (n : BitVec 3) (t : Tail) (s : State) : (stateOr s (execDstw c x n t s)).kept = s.kept := by
  unfold execDstw
  simp only [stateOr]
  refine State.instr_kept _ _ _ ?_
  intro _ _
  try simp only []
  repeat' (first | (with_reducible assumption) | split | (refine State.reading_kept ?_) | (refine State.storing_kept ?_) | (refine State.fillRead_keeps ?_) | (refine State.precheck_keeps ?_) | (intro _ _) | (simp [*, Act.Keeps, State.updR_kept, State.updCore_kept, State.updCluster_kept, State.setScratchInfo_kept, State.send_kept, State.setSlot_kept, State.declare_kept, State.letGo_kept, State.post_kept]; done) | (simp only [Act.Keeps]) | trivial | (rename_i h; exact State.placeResponse_kept _ _ _ _ _ h))
@[simp] theorem execDaddm_kept (c : CoreId) (x : DReg) (n : BitVec 3) (t : Tail) (s : State) : (stateOr s (execDaddm c x n t s)).kept = s.kept :=
  State.packed_kept _ _ _ _ _ fun x _ => State.decResult_keeps (Eq.refl x.kept)
@[simp] theorem execDsubm_kept (c : CoreId) (x : DReg) (n : BitVec 3) (t : Tail) (s : State) : (stateOr s (execDsubm c x n t s)).kept = s.kept :=
  State.packed_kept _ _ _ _ _ fun x _ => State.decResult_keeps (Eq.refl x.kept)
@[simp] theorem execDcmpm_kept (c : CoreId) (d : Reg) (x : DReg) (n : BitVec 3) (t : Tail) (s : State) : (stateOr s (execDcmpm c d x n t s)).kept = s.kept :=
  State.packed_kept _ _ _ _ _ fun x _ => State.updR_kept x _ _
@[simp] theorem execDmulm_kept (c : CoreId) (x : DReg) (n : BitVec 3) (t : Tail) (s : State) : (stateOr s (execDmulm c x n t s)).kept = s.kept :=
  State.packed_kept _ _ _ _ _ fun x _ => State.decProduct_keeps (Eq.refl x.kept)
@[simp] theorem execCvcd_kept (c : CoreId) (x : DReg) (w : Reg) (k : KReg) (wx : Reg) (s : State) : (stateOr s (execCvcd c x w k wx s)).kept = s.kept := by
  unfold execCvcd
  simp only [stateOr]
  refine State.instr_kept _ _ _ ?_
  intro _ _
  try simp only []
  repeat' (first | (with_reducible assumption) | split | (refine State.reading_kept ?_) | (refine State.storing_kept ?_) | (refine State.fillRead_keeps ?_) | (refine State.precheck_keeps ?_) | (intro _ _) | (simp [*, Act.Keeps, State.updR_kept, State.updCore_kept, State.updCluster_kept, State.setScratchInfo_kept, State.send_kept, State.setSlot_kept, State.declare_kept, State.letGo_kept, State.post_kept]; done) | (simp only [Act.Keeps]) | trivial | (rename_i h; exact State.placeResponse_kept _ _ _ _ _ h))
@[simp] theorem execCvdc_kept (c : CoreId) (x : DReg) (w : Reg) (k : KReg) (wx : Reg) (s : State) : (stateOr s (execCvdc c x w k wx s)).kept = s.kept := by
  unfold execCvdc
  simp only [stateOr]
  refine State.instr_kept _ _ _ ?_
  intro _ _
  try simp only []
  repeat' (first | (with_reducible assumption) | split | (refine State.reading_kept ?_) | (refine State.storing_kept ?_) | (refine State.fillRead_keeps ?_) | (refine State.precheck_keeps ?_) | (intro _ _) | (simp [*, Act.Keeps, State.updR_kept, State.updCore_kept, State.updCluster_kept, State.setScratchInfo_kept, State.send_kept, State.setSlot_kept, State.declare_kept, State.letGo_kept, State.post_kept]; done) | (simp only [Act.Keeps]) | trivial | (rename_i h; exact State.placeResponse_kept _ _ _ _ _ h))
@[simp] theorem execMovc_kept (c : CoreId) (kd : KReg) (wd : Reg) (ks : KReg) (ws wl : Reg) (s : State) : (stateOr s (execMovc c kd wd ks ws wl s)).kept = s.kept := by
  refine State.string_kept _ _ _ _ fun _ _ _ => ?_
  simp only [movcOp]
  repeat' (first | trivial | (exact storeUnit_keeps) | (refine readUnit_keeps ?_) | (intro _ _) | split | (exact Eq.refl (State.kept _)) | (simp only [UnitRes.Keeps]))
@[simp] theorem execFillc_kept (c : CoreId) (kd : KReg) (wd wl wf : Reg) (s : State) : (stateOr s (execFillc c kd wd wl wf s)).kept = s.kept := by
  refine State.string_kept _ _ _ _ fun _ _ _ => ?_
  simp only [fillcOp]
  repeat' (first | trivial | (exact storeUnit_keeps) | (refine readUnit_keeps ?_) | (intro _ _) | split | (exact Eq.refl (State.kept _)) | (simp only [UnitRes.Keeps]))
@[simp] theorem execMovem_kept (c : CoreId) (kd : KReg) (wd : Reg) (ks : KReg) (ws wl : Reg) (skip strip pad : Bool) (s : State) : (stateOr s (execMovem c kd wd ks ws wl skip strip pad s)).kept = s.kept := by
  refine State.string_kept _ _ _ _ fun _ _ _ => ?_
  simp only [movemOp]
  repeat' (first | trivial | (exact storeUnit_keeps) | (refine readUnit_keeps ?_) | (intro _ _) | split | (exact Eq.refl (State.kept _)) | (simp only [UnitRes.Keeps]))
@[simp] theorem execTr_kept (c : CoreId) (kd : KReg) (wd : Reg) (ks : KReg) (ws wl : Reg) (kt : KReg) (tmark : Bool) (s : State) : (stateOr s (execTr c kd wd ks ws wl kt tmark s)).kept = s.kept := by
  refine State.string_kept _ _ _ _ fun _ _ _ => ?_
  simp only [trOp]
  repeat' (first | trivial | (exact storeUnit_keeps) | (refine readUnit_keeps ?_) | (intro _ _) | split | (exact Eq.refl (State.kept _)) | (simp only [UnitRes.Keeps]))
@[simp] theorem execScan_kept (c : CoreId) (wr : Reg) (ks : KReg) (ws wl : Reg) (m : ScanMode) (s : State) : (stateOr s (execScan c wr ks ws wl m s)).kept = s.kept := by
  refine State.string_kept _ _ _ _ fun _ _ _ => ?_
  simp only [scanOp]
  repeat' (first | trivial | (exact storeUnit_keeps) | (refine readUnit_keeps ?_) | (intro _ _) | split | (exact Eq.refl (State.kept _)) | (simp only [UnitRes.Keeps]))
@[simp] theorem execCmpc_kept (c : CoreId) (ka : KReg) (wa : Reg) (kb : KReg) (wb wl : Reg) (s : State) : (stateOr s (execCmpc c ka wa kb wb wl s)).kept = s.kept := by
  refine State.string_kept _ _ _ _ fun _ _ _ => ?_
  simp only [cmpcOp]
  repeat' (first | trivial | (exact storeUnit_keeps) | (refine readUnit_keeps ?_) | (intro _ _) | split | (exact Eq.refl (State.kept _)) | (simp only [UnitRes.Keeps]))
@[simp] theorem execEdit_kept (c : CoreId) (x : DReg) (kd : KReg) (wd : Reg) (kp : KReg) (wp wl : Reg) (s : State) : (stateOr s (execEdit c x kd wd kp wp wl s)).kept = s.kept := by
  refine State.string_kept _ _ _ _ fun _ _ _ => ?_
  simp only [editOp]
  repeat' (first | trivial | (exact storeUnit_keeps) | (refine readUnit_keeps ?_) | (intro _ _) | split | (exact Eq.refl (State.kept _)) | (simp only [UnitRes.Keeps]))
@[simp] theorem execCld_kept (c : CoreId) (kd : CapNum) (t : Tail) (s : State) : (stateOr s (execCld c kd t s)).kept = s.kept := by
  unfold execCld
  simp only [stateOr]
  refine State.instr_kept _ _ _ ?_
  intro _ _
  try simp only []
  repeat' (first | (with_reducible assumption) | split | (refine State.reading_kept ?_) | (refine State.storing_kept ?_) | (refine State.fillRead_keeps ?_) | (refine State.precheck_keeps ?_) | (intro _ _) | (simp [*, Act.Keeps, State.updR_kept, State.updCore_kept, State.updCluster_kept, State.setScratchInfo_kept, State.send_kept, State.setSlot_kept, State.declare_kept, State.letGo_kept, State.post_kept]; done) | (simp only [Act.Keeps]) | trivial | (rename_i h; exact State.placeResponse_kept _ _ _ _ _ h))
@[simp] theorem execCst_kept (c : CoreId) (ks : CapNum) (t : Tail) (s : State) : (stateOr s (execCst c ks t s)).kept = s.kept := by
  unfold execCst
  simp only [stateOr]
  refine State.instr_kept _ _ _ ?_
  intro _ _
  try simp only []
  repeat' (first | (with_reducible assumption) | split | (refine State.reading_kept ?_) | (refine State.storing_kept ?_) | (refine State.fillRead_keeps ?_) | (refine State.precheck_keeps ?_) | (intro _ _) | (simp [*, Act.Keeps, State.updR_kept, State.updCore_kept, State.updCluster_kept, State.setScratchInfo_kept, State.send_kept, State.setSlot_kept, State.declare_kept, State.letGo_kept, State.post_kept]; done) | (simp only [Act.Keeps]) | trivial | (rename_i h; exact State.placeResponse_kept _ _ _ _ _ h))
@[simp] theorem execCapln_kept (c : CoreId) (t : Tail) (s : State) : (stateOr s (execCapln c t s)).kept = s.kept := by
  unfold execCapln State.wholeLine
  simp only [stateOr]
  refine State.instr_kept _ _ _ ?_
  intro _ _
  try simp only []
  repeat' (first | (with_reducible assumption) | split | (refine State.reading_kept ?_) | (refine State.storing_kept ?_) | (refine State.fillRead_keeps ?_) | (refine State.precheck_keeps ?_) | (intro _ _) | (simp [*, Act.Keeps, State.updR_kept, State.updCore_kept, State.updCluster_kept, State.setScratchInfo_kept, State.send_kept, State.setSlot_kept, State.declare_kept, State.letGo_kept, State.post_kept]; done) | (simp only [Act.Keeps]) | trivial | (rename_i h; exact State.placeResponse_kept _ _ _ _ _ h))
@[simp] theorem execDataln_kept (c : CoreId) (t : Tail) (s : State) : (stateOr s (execDataln c t s)).kept = s.kept := by
  unfold execDataln State.wholeLine
  simp only [stateOr]
  refine State.instr_kept _ _ _ ?_
  intro _ _
  try simp only []
  repeat' (first | (with_reducible assumption) | split | (refine State.reading_kept ?_) | (refine State.storing_kept ?_) | (refine State.fillRead_keeps ?_) | (refine State.precheck_keeps ?_) | (intro _ _) | (simp [*, Act.Keeps, State.updR_kept, State.updCore_kept, State.updCluster_kept, State.setScratchInfo_kept, State.send_kept, State.setSlot_kept, State.declare_kept, State.letGo_kept, State.post_kept]; done) | (simp only [Act.Keeps]) | trivial | (rename_i h; exact State.placeResponse_kept _ _ _ _ _ h))
@[simp] theorem execSetkey_kept (c : CoreId) (a : Reg) (t : Tail) (s : State) : (stateOr s (execSetkey c a t s)).kept = s.kept := by
  unfold execSetkey
  simp only [stateOr]
  refine State.instr_kept _ _ _ ?_
  intro _ _
  try simp only []
  repeat' (first | (with_reducible assumption) | split | (refine State.reading_kept ?_) | (refine State.storing_kept ?_) | (refine State.fillRead_keeps ?_) | (refine State.precheck_keeps ?_) | (intro _ _) | (simp [*, Act.Keeps, State.updR_kept, State.updCore_kept, State.updCluster_kept, State.setScratchInfo_kept, State.send_kept, State.setSlot_kept, State.declare_kept, State.letGo_kept, State.post_kept]; done) | (simp only [Act.Keeps]) | trivial | (rename_i h; exact State.placeResponse_kept _ _ _ _ _ h))
@[simp] theorem execGetkey_kept (c : CoreId) (d : Reg) (t : Tail) (s : State) : (stateOr s (execGetkey c d t s)).kept = s.kept := by
  unfold execGetkey
  simp only [stateOr]
  refine State.instr_kept _ _ _ ?_
  intro _ _
  try simp only []
  repeat' (first | (with_reducible assumption) | split | (refine State.reading_kept ?_) | (refine State.storing_kept ?_) | (refine State.fillRead_keeps ?_) | (refine State.precheck_keeps ?_) | (intro _ _) | (simp [*, Act.Keeps, State.updR_kept, State.updCore_kept, State.updCluster_kept, State.setScratchInfo_kept, State.send_kept, State.setSlot_kept, State.declare_kept, State.letGo_kept, State.post_kept]; done) | (simp only [Act.Keeps]) | trivial | (rename_i h; exact State.placeResponse_kept _ _ _ _ _ h))
@[simp] theorem execTlbLock_kept (c : CoreId) (a : Reg) (s : State) : (stateOr s (execTlbLock c a s)).kept = s.kept := by
  unfold execTlbLock State.tlbOp
  simp only [stateOr]
  refine State.instr_kept _ _ _ ?_
  intro _ _
  try simp only []
  repeat' (first | (with_reducible assumption) | split | (refine State.reading_kept ?_) | (refine State.storing_kept ?_) | (refine State.fillRead_keeps ?_) | (refine State.precheck_keeps ?_) | (intro _ _) | (simp [*, Act.Keeps, State.updR_kept, State.updCore_kept, State.updCluster_kept, State.setScratchInfo_kept, State.send_kept, State.setSlot_kept, State.declare_kept, State.letGo_kept, State.post_kept]; done) | (simp only [Act.Keeps]) | trivial | (rename_i h; exact State.placeResponse_kept _ _ _ _ _ h))
@[simp] theorem execTxnCommit_kept (c : CoreId) (ws : Reg) (s : State) : (stateOr s (execTxnCommit c ws s)).kept = s.kept := by
  unfold execTxnCommit State.resolving
  simp only [stateOr]
  refine State.instr_kept _ _ _ ?_
  intro _ _
  try simp only []
  repeat' (first | (with_reducible assumption) | split | (refine State.reading_kept ?_) | (refine State.storing_kept ?_) | (refine State.fillRead_keeps ?_) | (refine State.precheck_keeps ?_) | (intro _ _) | (simp [*, Act.Keeps, State.updR_kept, State.updCore_kept, State.updCluster_kept, State.setScratchInfo_kept, State.send_kept, State.setSlot_kept, State.declare_kept, State.letGo_kept, State.post_kept]; done) | (simp only [Act.Keeps]) | trivial | (rename_i h; exact State.placeResponse_kept _ _ _ _ _ h))
@[simp] theorem execTxnAbort_kept (c : CoreId) (ws : Reg) (s : State) : (stateOr s (execTxnAbort c ws s)).kept = s.kept := by
  unfold execTxnAbort State.resolving
  simp only [stateOr]
  refine State.instr_kept _ _ _ ?_
  intro _ _
  try simp only []
  repeat' (first | (with_reducible assumption) | split | (refine State.reading_kept ?_) | (refine State.storing_kept ?_) | (refine State.fillRead_keeps ?_) | (refine State.precheck_keeps ?_) | (intro _ _) | (simp [*, Act.Keeps, State.updR_kept, State.updCore_kept, State.updCluster_kept, State.setScratchInfo_kept, State.send_kept, State.setSlot_kept, State.declare_kept, State.letGo_kept, State.post_kept]; done) | (simp only [Act.Keeps]) | trivial | (rename_i h; exact State.placeResponse_kept _ _ _ _ _ h))
@[simp] theorem State.failAccess_kept (s : State) (a : Access) (cause : Cause) (va : Nat) :
    (State.failAccess s a cause va).kept = s.kept := by
  simp [State.failAccess]
@[simp] theorem State.setPart_kept (s : State) (id k : Nat) (f : AccPart → AccPart) :
    (State.setPart s id k f).kept = s.kept := by
  simp [State.setPart]
@[simp] theorem State.partDone_kept (s : State) (id k : Nat) (l : List Chr) :
    (State.partDone s id k l).kept = s.kept := by
  unfold State.partDone
  simp only []
  (repeat' split) <;> simp
@[simp] theorem State.hostWrite_kept (s : State) (pa : Nat) (l : List Chr) :
    (State.hostWrite s pa l).kept = s.kept := by
  unfold State.hostWrite
  (repeat' split) <;> simp
@[simp] theorem State.sideWrite_kept (s : State) (q : AccPart) (dflt : Bool) (l : List Chr) :
    (State.sideWrite s q dflt l).kept = s.kept := by
  unfold State.sideWrite
  (repeat' split) <;> simp
@[simp] theorem State.sideRead_kept (s : State) (a : Access) (q : AccPart) (dflt : Bool) :
    (State.sideRead s a q dflt).1.kept = s.kept := by
  unfold State.sideRead
  simp only []
  (repeat' split) <;> simp
@[simp] theorem State.sidePart_kept (s : State) (a : Access) (k : Nat) (q : AccPart) :
    (State.sidePart s a k q).kept = s.kept := by
  unfold State.sidePart
  (repeat' split) <;> simp
@[simp] theorem State.hostReads_kept (s : State) (l : List AccPart) : (s.hostReads l).kept = s.kept := by
  induction s, l using State.hostReads.induct with
  | case1 => rfl
  | case2 s p => rfl
  | case3 s p q ps h ih => unfold State.hostReads; rw [if_pos h, ih]; rfl
  | case4 s p q ps h ih => unfold State.hostReads; rw [if_neg h, ih]; rfl
@[simp] theorem State.sideAll_kept (s : State) (a : Access) (l : List (AccPart × Nat)) : (s.sideAll a l).kept = s.kept := by
  induction s, l using State.sideAll.induct (a := a) with
  | case1 => rfl
  | case2 s e h => unfold State.sideAll; rw [if_pos h]; exact State.sidePart_kept _ _ _ _
  | case3 s e h => unfold State.sideAll; rw [if_neg h]
  | case4 s e f l h ih =>
    unfold State.sideAll; rw [if_pos h, ih, State.partDone_kept, State.partDone_kept, State.hostWrite_kept]
  | case5 s e f l h ih =>
    unfold State.sideAll; rw [if_neg h, ih]; split
    · exact State.sidePart_kept _ _ _ _
    · rfl
@[simp] theorem State.sideParts_kept (s : State) (id : Nat) : (State.sideParts s id).kept = s.kept := by
  unfold State.sideParts
  split
  · with_reducible rfl
  split
  · with_reducible rfl
  split
  · exact State.failAccess_kept _ _ _ _
  · try simp only []
    split
    · exact (State.hostReads_kept _ _).trans (State.sideAll_kept _ _ _)
    · exact State.sideAll_kept _ _ _
@[simp] theorem State.gateParts_kept (s : State) (a : Access) (l : List AccPart) : (s.gateParts a l).1.kept = s.kept := by
  induction l generalizing s with
  | nil => unfold State.gateParts; with_reducible rfl
  | cons q qs ih =>
    unfold State.gateParts
    split
    · exact ih s
    · try simp only []
      split
      · exact ih s
      · exact (ih _).trans (State.refusePart_kept _ _ _ _ _)
@[simp] theorem State.performStore_kept (s : State) (a : Access) (q : AccPart) (d l : Nat) :
    (State.performStore s a q d l).kept = s.kept := by
  unfold State.performStore
  simp only []
  (repeat' split) <;> simp
@[simp] theorem State.countImageWait_kept (s : State) (p : Nat) :
    (State.countImageWait s p).kept = s.kept := by
  simp [State.countImageWait]
@[simp] theorem State.storePart_kept (s : State) (a : Access) (k : Nat) (q : AccPart) (d l : Nat) :
    (State.storePart s a k q d l).kept = s.kept := by
  unfold State.storePart
  (repeat' split) <;> simp
@[simp] theorem State.lostStore_kept (s : State) (a : Access) (k : Nat) (q : AccPart) :
    (State.lostStore s a k q).kept = s.kept := by
  unfold State.lostStore
  (repeat' split) <;> simp
@[simp] theorem State.storeAccess_kept (s : State) (a : Access) (k : Nat) (q : AccPart) (d l : Nat) (e : Ecc) :
    (State.storeAccess s a k q d l e).kept = s.kept := by
  unfold State.storeAccess
  simp only []
  (repeat' split) <;> simp
@[simp] theorem State.loadAccess_kept (s : State) (a : Access) (k : Nat) (q : AccPart) (d l : Nat) (e : Ecc) :
    (State.loadAccess s a k q d l e).kept = s.kept := by
  unfold State.loadAccess
  try simp only []
  repeat' (first | (with_reducible rfl) | (intro _ _) | split | (simp; done) | (refine (foldl_kept ?_ _ _).trans ?_) | (refine (iter_kept ?_ _ _).trans ?_) | (grind [kept_mk, kept_eta, State.readTags_kept, State.readSymbols_kept, State.readImage_kept, State.memErr_kept, State.refusePart_kept, State.failAccess_kept, State.partDone_kept, State.sideParts_kept, foldl_kept, iter_kept]) | simp)
@[simp] theorem State.again_kept (s : State) (i : Instr) : (State.again s i).kept = s.kept := by
  unfold State.again
  cases i with
  | ldc c d t => exact execLdc_kept c d t s
  | ldw c d t => exact execLdw_kept c d t s
  | ldp c d t => exact execLdp_kept c d t s
  | stc c d t => exact execStc_kept c d t s
  | stw c d t => exact execStw_kept c d t s
  | stp c d t => exact execStp_kept c d t s
  | mac c a kb x kc y m n => exact execMac_kept c a kb x kc y m n s
  | txnRespond c l t => exact execTxnRespond_kept c l t s
  | txnClaim c t => exact execTxnClaim_kept c t s
  | txnClaimx c t => exact execTxnClaimx_kept c t s
  | dcas c x y w t => exact execDcas_kept c x y w t s
  | dpost c x w k o => exact execDpost_kept c x w k o s
  | dacc c x w k o => exact execDacc_kept c x w k o s
  | fspill c => exact execFspill_kept c s
  | ffill c => exact execFfill_kept c s
  | dldw c x n t => exact execDldw_kept c x n t s
  | dstw c x n t => exact execDstw_kept c x n t s
  | daddm c x n t => exact execDaddm_kept c x n t s
  | dsubm c x n t => exact execDsubm_kept c x n t s
  | dcmpm c d x n t => exact execDcmpm_kept c d x n t s
  | dmulm c x n t => exact execDmulm_kept c x n t s
  | cvcd c x w k wx => exact execCvcd_kept c x w k wx s
  | cvdc c x w k wx => exact execCvdc_kept c x w k wx s
  | movc c kd wd ks ws wl => exact execMovc_kept c kd wd ks ws wl s
  | fillc c kd wd wl wf => exact execFillc_kept c kd wd wl wf s
  | movem c kd wd ks ws wl x y z => exact execMovem_kept c kd wd ks ws wl x y z s
  | tr c kd wd ks ws wl kt m => exact execTr_kept c kd wd ks ws wl kt m s
  | scan c wr ks ws wl m => exact execScan_kept c wr ks ws wl m s
  | cmpc c ka wa kb wb wl => exact execCmpc_kept c ka wa kb wb wl s
  | edit c x kd wd kp wp wl => exact execEdit_kept c x kd wd kp wp wl s
  | cld c kd t => exact execCld_kept c kd t s
  | cst c ks t => exact execCst_kept c ks t s
  | capln c t => exact execCapln_kept c t s
  | dataln c t => exact execDataln_kept c t s
  | setkey c a t => exact execSetkey_kept c a t s
  | getkey c d t => exact execGetkey_kept c d t s
  | tlbLock c a => exact execTlbLock_kept c a s
  | txnCommit c w => exact execTxnCommit_kept c w s
  | txnAbort c w => exact execTxnAbort_kept c w s
  | _ => exact Eq.refl s.kept
@[simp] theorem State.goOn_kept (s : State) (c : Nat) (cur : Cur) (cc : Nat) :
    (State.goOn s c cur cc).kept = s.kept := by
  simp [State.goOn]
@[simp] theorem State.awaitFault_kept (s : State) (c : CoreId) (cur : Cur) (cc : Nat) (cause : Cause) (va : Nat) :
    (State.awaitFault s c cur cc cause va).kept = s.kept := by
  unfold State.awaitFault
  try simp only []
  refine State.settle_kept ?_ (State.updCore_kept _ _ _)
  split
  · exact (State.strAct_keeps (a := .fault cause va) trivial).trans (State.updCore_kept _ _ _)
  · trivial
@[simp] theorem State.deliver_kept (s : State) (a : Access) (cc : Nat) :
    (State.deliver s a cc).kept = s.kept := by
  unfold State.deliver
  try simp only []
  repeat' (first | (with_reducible rfl) | (intro _ _) | split | (simp; done) | (refine (foldl_kept ?_ _ _).trans ?_) | (refine (iter_kept ?_ _ _).trans ?_) | (grind [kept_mk, kept_eta, State.scratchWrite_kept, State.dropAccess_kept, State.goOn_kept, foldl_kept, iter_kept]) | simp)
def WalkStep.Keeps (s : State) : WalkStep → Prop
  | .word t _ | .fault t _ => t.kept = s.kept
  | .waits => True
theorem State.walkRead_kept (s : State) (c p pa : Nat) (e : Ecc) : (s.walkRead c p pa e).Keeps s := by
  unfold State.walkRead
  simp only []
  repeat' split
  all_goals first
    | exact Eq.refl s.kept
    | trivial
    | exact (State.readSymbols_kept _ _ _ _ _ _).trans (State.readTags_kept _ _ _ _)
theorem State.walkRead_keeps {s : State} {c p pa : Nat} {e : Ecc} {o : WalkStep} (h : s.walkRead c p pa e = o) : o.Keeps s :=
  h ▸ State.walkRead_kept s c p pa e
theorem State.walk_kept (s : State) (c p va : Nat) (x1 x2 : Ecc) :
    ∀ t, (State.walk s c p va x1 x2) = some t → t.1.kept = s.kept := by
  intro t h
  unfold State.walk at h
  simp only [] at h
  split at h
  · cases h
  · rename_i e; cases h; exact State.walkRead_keeps e
  · rename_i e
    have h1 := State.walkRead_keeps e
    rcases ite_cases h with h | h
    · cases h; exact h1
    · split at h
      · cases h
      · rename_i e2; cases h; exact Eq.trans (State.walkRead_keeps e2) h1
      · rename_i e2
        rcases ite_cases h with h | h <;> cases h <;> exact Eq.trans (State.walkRead_keeps e2) h1

/-! ### Posting.lean -/

theorem State.receive_kept (s : State) (sel : Msg → Bool) {f : State → Msg → State} (h : ∀ x m, (f x m).kept = x.kept) :
    (s.receive sel f).kept = s.kept := by
  unfold State.receive
  split
  · with_reducible rfl
  · exact h _ _
@[simp] theorem State.claimRead_kept (s : State) (d : DieId) (c : Claim) :
    (State.claimRead s d c).1.kept = s.kept := by
  unfold State.claimRead
  (repeat' split) <;> simp
@[simp] theorem State.tryGrant_kept (s : State) (d : DieId) (line : Nat) :
    (State.tryGrant s d line).kept = s.kept := by
  unfold State.tryGrant
  simp only []
  (repeat' split) <;> simp
@[simp] theorem State.postAt_kept (s : State) (a : Access) (q : AccPart) (d l fw : Nat) (r : Nat × Int × Option Int) :
    (State.postAt s a q d l fw r).kept = s.kept := by
  unfold State.postAt
  simp only []
  (repeat' split) <;> simp
@[simp] theorem State.dropDacc_kept (s : State) (d : Nat) (e : CoreId × Nat × PartId × DaccEntry) :
    (State.dropDacc s d e).kept = s.kept := by
  simp [State.dropDacc]
@[simp] theorem State.daccRefused_kept (s : State) (d : Nat) (e : CoreId × Nat × PartId × DaccEntry) (v : Verdict) (lineKey : Nat) :
    (State.daccRefused s d e v lineKey).kept = s.kept := by
  simp [State.daccRefused]
@[simp] theorem State.daccAdd_kept (s : State) (d : Nat) (e : CoreId × Nat × PartId × DaccEntry) :
    (State.daccAdd s d e).kept = s.kept := by
  unfold State.daccAdd
  simp only []
  (repeat' split) <;> simp
@[simp] theorem State.addRecord_kept (s : State) (d n : Nat) (o : Outcome) :
    (State.addRecord s d n o).kept = s.kept := by
  simp [State.addRecord]
@[simp] theorem State.logEvent_kept (s : State) (p epoch kind : Nat) (pos target : Position) (data : List Octet) :
    (State.logEvent s p epoch kind pos target data).kept = s.kept := by
  simp [State.logEvent]
@[simp] theorem State.decide__kept (s : State) (p : Nat) (pos : Position) (epoch : Nat) (o : Outcome) :
    (State.decide_ s p pos epoch o).kept = s.kept := by
  unfold State.decide_
  (repeat' split) <;> simp
@[simp] theorem State.noticeAll_kept (s : State) (p : Nat) (pos : Position) (o : Outcome) :
    (State.noticeAll s p pos o).kept = s.kept := by
  unfold State.noticeAll
  try simp only []
  repeat' (first | (with_reducible rfl) | (intro _ _) | split | (simp; done) | (refine (foldl_kept ?_ _ _).trans ?_) | (refine (iter_kept ?_ _ _).trans ?_) | (grind [kept_mk, kept_eta, State.post_kept, foldl_kept, iter_kept]) | simp)
@[simp] theorem State.discardResponse_kept (s : State) (d n : Nat) : (State.discardResponse s d n).kept = s.kept := by
  unfold State.discardResponse
  try simp only []
  rw [State.updSlot_kept, State.updHost_kept, iter_kept]
  intro g x
  split
  · with_reducible rfl
  · rw [State.skipHead_kept, State.updPort_kept, foldl_kept]
    intro y e
    exact State.retype_kept _ _ _ _ _ _
@[simp] theorem State.hostOutcome_kept (s : State) (d n outcome : Nat) :
    (State.hostOutcome s d n outcome).kept = s.kept := by
  unfold State.hostOutcome
  simp only []
  (repeat' split) <;> simp
@[simp] theorem State.commitSlot_kept (s : State) (d n : Nat) :
    (State.commitSlot s d n).kept = s.kept := by
  unfold State.commitSlot
  try simp only []
  repeat' (first | (with_reducible rfl) | (intro _ _) | split | (simp [kept_mk, kept_eta, State.updDie_kept, State.updSlot_kept, State.releaseClaims_kept, State.addRecord_kept, State.hostOutcome_kept, foldl_kept, iter_kept]; done) | (refine (foldl_kept ?_ _ _).trans ?_) | (refine (iter_kept ?_ _ _).trans ?_) | (grind [kept_mk, kept_eta, State.updDie_kept, State.updSlot_kept, State.releaseClaims_kept, State.addRecord_kept, State.hostOutcome_kept, foldl_kept, iter_kept]) | (simp only [kept_mk, kept_eta, State.updDie_kept, State.updSlot_kept, State.releaseClaims_kept, State.addRecord_kept, State.hostOutcome_kept, foldl_kept, iter_kept]))
@[simp] theorem State.abortSlot_kept (s : State) (d n : Nat) (o : Outcome) :
    (State.abortSlot s d n o).kept = s.kept := by
  unfold State.abortSlot
  (repeat' split) <;> simp
@[simp] theorem State.gateDone_kept (s : State) (c : CoreId) (cc : Nat) :
    (State.gateDone s c cc).kept = s.kept := by
  unfold State.gateDone
  (repeat' split) <;> simp
@[simp] theorem State.repairClaims_kept (s : State) (d n : Nat) :
    (State.repairClaims s d n).kept = s.kept := by
  unfold State.repairClaims
  repeat' (first | (with_reducible rfl) | (intro _ _) | split | (simp; done) | (refine (foldl_kept ?_ _ _).trans ?_) | (refine (iter_kept ?_ _ _).trans ?_))

/-! ### Order.lean -/

@[simp] theorem State.holdTime_kept (s : State) :
    (State.holdTime s).kept = s.kept := by
  simp [State.holdTime]
@[simp] theorem State.runOn_kept (s : State) :
    (State.runOn s).kept = s.kept := by
  unfold State.runOn
  simp only []
  (repeat' split) <;> simp
theorem State.atStep_kept (s : State) (n : Nat) {f : State → State} (h : ∀ x, (f x).kept = x.kept) : (s.atStep n f).kept = s.kept := by
  unfold State.atStep
  split
  · exact h _
  · with_reducible rfl
theorem State.dieStep_kept (s : State) (d n : Nat) {f : State → State} (h : ∀ x, (f x).kept = x.kept) : (s.dieStep d n f).kept = s.kept := by
  unfold State.dieStep
  split
  · exact h _
  · with_reducible rfl
@[simp] theorem State.clearDead_kept (s : State) (t : GateTxn) :
    (State.clearDead s t).kept = s.kept := by
  unfold State.clearDead
  simp only []
  repeat' (first | (with_reducible rfl) | (intro _ _) | split | (simp; done) | (refine (foldl_kept ?_ _ _).trans ?_) | (refine (iter_kept ?_ _ _).trans ?_))
@[simp] theorem State.readLog_kept (s : State) (p e : Nat) :
    (State.readLog s p e).kept = s.kept := by
  unfold State.readLog
  (repeat' split) <;> simp
@[simp] theorem State.shipTo_kept (s : State) (p : PartId) (e dst : Nat) (pick : Nat → Bool) :
    (State.shipTo s p e dst pick).kept = s.kept := by
  unfold State.shipTo
  repeat' (first | (with_reducible rfl) | (intro _ _) | split | (simp; done) | (refine (foldl_kept ?_ _ _).trans ?_) | (refine (iter_kept ?_ _ _).trans ?_))
@[simp] theorem State.takeDigests_kept (s : State) (p : Nat) :
    (State.takeDigests s p).kept = s.kept := by
  simp [State.takeDigests]
@[simp] theorem State.shipSealed_kept (s : State) (p : PartId) :
    (State.shipSealed s p).kept = s.kept := by
  unfold State.shipSealed
  simp only []
  repeat' (first | (with_reducible rfl) | (intro _ _) | split | (simp; done) | (refine (foldl_kept ?_ _ _).trans ?_) | (refine (iter_kept ?_ _ _).trans ?_))
@[simp] theorem State.sealFrom_kept (s : State) (p n : Nat) : (s.sealFrom p n).kept = s.kept := by
  induction n generalizing s with
  | zero => unfold State.sealFrom; with_reducible rfl
  | succ n ih =>
    unfold State.sealFrom
    try simp only []
    split
    · rw [ih, State.updPartn_kept]
    · with_reducible rfl
@[simp] theorem State.releaseFrom_kept (s : State) (p : PartId) (n : Nat) : (s.releaseFrom p n).kept = s.kept := by
  induction n generalizing s with
  | zero => unfold State.releaseFrom; with_reducible rfl
  | succ n ih =>
    unfold State.releaseFrom
    try simp only []
    split
    · rw [ih, foldl_kept, State.updPartn_kept]
      intro x d
      split
      · exact State.post_kept _ _
      · with_reducible rfl
    · with_reducible rfl
@[simp] theorem State.switchVisible_kept (s : State) (d : DieId) (p : PartId) (e : Nat) :
    (State.switchVisible s d p e).kept = s.kept := by
  unfold State.switchVisible
  simp only []
  repeat' (first | (with_reducible rfl) | (intro _ _) | split | (simp; done) | (refine (foldl_kept ?_ _ _).trans ?_) | (refine (iter_kept ?_ _ _).trans ?_))
@[simp] theorem State.forget_kept (s : State) (p e : Nat) :
    (State.forget s p e).kept = s.kept := by
  unfold State.forget
  try simp only []
  repeat' (first | (with_reducible rfl) | (intro _ _) | split | (simp [kept_mk, kept_eta, State.updDie_kept, State.updPartn_kept, foldl_kept, iter_kept]; done) | (refine (foldl_kept ?_ _ _).trans ?_) | (refine (iter_kept ?_ _ _).trans ?_) | (grind [kept_mk, kept_eta, State.updDie_kept, State.updPartn_kept, foldl_kept, iter_kept]) | (simp only [kept_mk, kept_eta, State.updDie_kept, State.updPartn_kept, foldl_kept, iter_kept]))
@[simp] theorem State.scrubUnit_kept (s : State) (d row u : Nat) (e : Ecc) :
    (State.scrubUnit s d row u e).kept = s.kept := by
  unfold State.scrubUnit
  (repeat' split) <;> simp
@[simp] theorem State.scrubNext_kept (s : State) (d row : Nat) (e : Ecc) :
    (State.scrubNext s d row e).kept = s.kept := by
  simp [State.scrubNext]
@[simp] theorem State.sendHorizon_kept (s : State) (u : HzUnit) (t : BitVec 48) :
    (State.sendHorizon s u t).kept = s.kept := by
  unfold State.sendHorizon
  simp only []
  repeat' (first | (with_reducible rfl) | (intro _ _) | split | (simp; done) | (refine (foldl_kept ?_ _ _).trans ?_) | (refine (iter_kept ?_ _ _).trans ?_))

/-! ### Sundial.lean -/

@[simp] theorem State.stepTo_kept (s : State) (second : Bool) (offset : Int) :
    (State.stepTo s second offset).kept = s.kept := by
  unfold State.stepTo
  simp only []
  (repeat' split) <;> simp
@[simp] theorem State.selectSd_kept (s : State) (st : SdSt) (second : Bool) :
    (State.selectSd s st second).kept = s.kept := by
  simp [State.selectSd]
@[simp] theorem State.enterHoldover_kept (s : State) :
    (State.enterHoldover s).kept = s.kept := by
  simp [State.enterHoldover]
@[simp] theorem State.lockFreq_kept (s : State) (second : Bool) (y : Int) :
    (State.lockFreq s second y).kept = s.kept := by
  unfold State.lockFreq
  (repeat' split) <;> simp
@[simp] theorem State.takeOffset_kept (s : State) (second : Bool) (offset : Int) :
    (State.takeOffset s second offset).kept = s.kept := by
  unfold State.takeOffset
  (repeat' split) <;> simp
@[simp] theorem State.lockTo_kept (s : State) (second : Bool) :
    (State.lockTo s second).kept = s.kept := by
  simp [State.lockTo]
@[simp] theorem State.loseSelected_kept (s : State) :
    (State.loseSelected s).kept = s.kept := by
  unfold State.loseSelected
  simp only []
  (repeat' split) <;> simp
@[simp] theorem State.relock_kept (s : State) :
    (State.relock s).kept = s.kept := by
  unfold State.relock
  (repeat' split) <;> simp
@[simp] theorem State.measure_kept (s : State) (second : Bool) (time loc : Nat) (gapMs : Nat) (y : Int) :
    (State.measure s second time loc gapMs y).kept = s.kept := by
  unfold State.measure
  simp only []
  (repeat' split) <;> simp
@[simp] theorem State.servoTake_kept (s : State) (second : Bool) (m : Int) :
    (State.servoTake s second m).1.kept = s.kept := by
  unfold State.servoTake
  (repeat' split) <;> simp
@[simp] theorem State.ppsFor_kept (s : State) (second : Bool) (loc : Nat) :
    (State.ppsFor s second loc).kept = s.kept := by
  unfold State.ppsFor
  simp only []
  (repeat' split) <;> simp

/-! ### Wire.lean -/

@[simp] theorem State.queueOut_kept (s : State) (n prio part : Nat) (o : List Octet) :
    (State.queueOut s n prio part o).kept = s.kept := by
  unfold State.queueOut
  (repeat' split) <;> simp
@[simp] theorem State.udpFrame_kept (s : State) (n : Nat) (p : Peer) (sport : Nat) (body : List Octet) :
    (State.udpFrame s n p sport body).1.kept = s.kept := by
  simp [State.udpFrame]
@[simp] theorem State.sendUdp_kept (s : State) (n prio part : Nat) (p : Peer) (sport : Nat) (body : List Octet) :
    (State.sendUdp s n prio part p sport body).kept = s.kept := by
  simp [State.sendUdp]

/-! ### Lpt.lean -/

@[simp] theorem State.setSession_kept (s : State) (n i : Nat) (x : Session) :
    (State.setSession s n i x).kept = s.kept := (fun h => h) rfl
@[simp] theorem State.updSession_kept (s : State) (n i : Nat) (f : Session → Session) :
    (State.updSession s n i f).kept = s.kept := (fun h => h) rfl
@[simp] theorem State.lptFrame_kept (s : State) (n type : Nat) (retx : Bool) (sid seq tag : BitVec 32) (p : Peer) (body : List Octet) :
    (State.lptFrame s n type retx sid seq tag p body).1.kept = s.kept := by
  unfold State.lptFrame
  simp only []
  (repeat' split) <;> simp
@[simp] theorem State.sendLpt_kept (s : State) (n prio part type : Nat) (retx : Bool) (sid seq tag : BitVec 32) (p : Peer) (body : List Octet) :
    (State.sendLpt s n prio part type retx sid seq tag p body).kept = s.kept := by
  simp [State.sendLpt]
@[simp] theorem State.sendRefused_kept (s : State) (n : Nat) (m : Lpt) (reason : Nat) :
    (State.sendRefused s n m reason).kept = s.kept := by
  unfold State.sendRefused
  simp only []
  (repeat' split) <;> simp
@[simp] theorem State.sendAck_kept (s : State) (n : Nat) (sid seq tag : BitVec 32) (p : Peer) :
    (State.sendAck s n sid seq tag p).kept = s.kept := by
  simp [State.sendAck]
theorem State.takeLpt_kept (s : State) (n type : Nat) {f : State → Lpt → State} (h : ∀ x m, (f x m).kept = x.kept) :
    (s.takeLpt n type f).kept = s.kept := by
  unfold State.takeLpt
  split
  · split
    · exact h _ _
    · with_reducible rfl
  · with_reducible rfl
@[simp] theorem State.sendOpened_kept (s : State) (n i : Nat) (m : Lpt) (x : Session) :
    (State.sendOpened s n i m x).kept = s.kept := by
  simp [State.sendOpened]
@[simp] theorem State.uncache_kept (s : State) (n : Nat) (e : Cached) :
    (State.uncache s n e).kept = s.kept := by
  simp [State.uncache]
@[simp] theorem State.clientAck_kept (s : State) (n : Nat) (m : Lpt) (x : Session) :
    (State.clientAck s n m x).kept = s.kept := by
  unfold State.clientAck
  simp only []
  repeat' (first | (with_reducible rfl) | (intro _ _) | split | (simp; done) | (refine (foldl_kept ?_ _ _).trans ?_) | (refine (iter_kept ?_ _ _).trans ?_))
@[simp] theorem State.resend_kept (s : State) (n : Nat) (e : Cached) (timed : Bool) :
    (State.resend s n e timed).kept = s.kept := by
  simp [State.resend]
theorem State.landPacket_kept (s : State) (d : Nat) (v : Slot) (type : Nat) :
    ∀ t, State.landPacket s d v type = some t → t.1.kept = s.kept := by
  intro t h
  unfold State.landPacket at h
  simp only [] at h
  split at h
  · cases h
  split at h
  · cases h; exact State.fillPacket_kept _ _ _ _ _ _ _
  · exact State.putPacket_kept _ _ _ _ _ _ _ h
@[simp] theorem State.discardPacket_kept (s : State) (d p q ptr : Nat) :
    (State.discardPacket s d p q ptr).kept = s.kept := by
  simp [State.discardPacket]
@[simp] theorem State.takeFreeSlot_kept (s : State) (d : Nat) (v : Slot) (ptr : Nat) :
    (State.takeFreeSlot s d v ptr).1.kept = s.kept := by
  simp [State.takeFreeSlot]
@[simp] theorem State.enterGate_kept (s : State) (d : DieId) (n : Nat) (v : Slot) :
    (State.enterGate s d n v).kept = s.kept := by
  simp [State.enterGate]
@[simp] theorem State.setNumber_kept (s : State) (v : Slot) (f : Session → Session) :
    (State.setNumber s v f).kept = s.kept := by
  unfold State.setNumber
  (repeat' split) <;> simp
@[simp] theorem State.hostRefused_kept (s : State) (v : Slot) (outcome : Nat) (pos : Position) :
    (State.hostRefused s v outcome pos).kept = s.kept := by
  simp [State.hostRefused]
@[simp] theorem State.refuseStamped_kept (s : State) (v : Slot) (reason : Nat) (counted : Bool) :
    (State.refuseStamped s v reason counted).kept = s.kept := by
  unfold State.refuseStamped
  (repeat' split) <;> simp
@[simp] theorem State.arrive_kept (s : State) (d : DieId) (v : Slot) : (State.arrive s d v).kept = s.kept := by
  unfold State.arrive
  try simp only []
  split
  · rw [State.refuseStamped_kept, State.dropPacket_kept]
  · rename_i h
    have h1 := State.landPacket_kept _ _ _ _ _ h
    split
    · rw [State.refuseStamped_kept, State.discardPacket_kept]; exact h1
    · try simp only []
      split
      · rw [State.enterGate_kept, State.takeFreeSlot_kept]; exact h1
      · rw [State.setNumber_kept, State.enterGate_kept, State.takeFreeSlot_kept]; exact h1
@[simp] theorem State.arrivePartner_kept (s : State) (d : DieId) (v : Slot) (admitted : Bool) :
    (State.arrivePartner s d v admitted).kept = s.kept := by
  unfold State.arrivePartner
  try simp only []
  split
  · exact State.dropPacket_kept _ _ _ _
  · rename_i h
    have h1 := State.landPacket_kept _ _ _ _ _ h
    split
    · rw [State.discardPacket_kept]; exact h1
    · rw [State.takeFreeSlot_kept]; exact h1
@[simp] theorem State.copyToPartner_kept (s : State) (d : Nat) (v : Slot) (admitted : Bool) :
    (State.copyToPartner s d v admitted).kept = s.kept := by
  unfold State.copyToPartner
  simp only []
  (repeat' split) <;> simp
@[simp] theorem State.land_kept (s : State) (d : Nat) (a : DieId) (v : Slot) :
    (State.land s d a v).kept = s.kept := by
  unfold State.land
  (repeat' split) <;> simp
@[simp] theorem State.stampPort_kept (s : State) (n : Nat) :
    (State.stampPort s n).1.kept = s.kept := by
  simp [State.stampPort]
theorem State.reserveFrame_kept (s : State) (a p n : Nat) :
    ∀ t, (State.reserveFrame s a p n) = some t → t.1.kept = s.kept := by
  unfold State.reserveFrame
  try simp only []
  repeat' (first | (with_reducible rfl) | (intro _ _) | split | (simp; done) | (refine (foldl_kept ?_ _ _).trans ?_) | (refine (iter_kept ?_ _ _).trans ?_) | (grind [kept_mk, kept_eta, State.reservePacket_kept, foldl_kept, iter_kept]) | simp)
@[simp] theorem State.markDeparted_kept (s : State) (p : Nat) (pos : Position) :
    (State.markDeparted s p pos).kept = s.kept := by
  unfold State.markDeparted
  repeat' (first | (with_reducible rfl) | (intro _ _) | split | (simp; done) | (refine (foldl_kept ?_ _ _).trans ?_) | (refine (iter_kept ?_ _ _).trans ?_))
@[simp] theorem State.cachePacket_kept (s : State) (d p q ptr : Nat) (t : BitVec 48) :
    (State.cachePacket s d p q ptr t).kept = s.kept := by
  simp [State.cachePacket]
@[simp] theorem State.setPacketEpoch_kept (s : State) (d p q ptr e : Nat) :
    (State.setPacketEpoch s d p q ptr e).kept = s.kept := by
  simp [State.setPacketEpoch]
@[simp] theorem State.respGone_kept (s : State) (e : Cached) :
    (State.respGone s e).kept = s.kept := by
  simp [State.respGone]
@[simp] theorem State.depart_kept (s : State) (n : Nat) (e : Cached) :
    (State.depart s n e).kept = s.kept := by
  unfold State.depart
  simp only []
  (repeat' split) <;> simp
@[simp] theorem State.sendResponse_kept (s : State) (n : Nat) (e : Cached) :
    (State.sendResponse s n e).1.kept = s.kept := by
  unfold State.sendResponse
  simp only []
  (repeat' split) <;> simp

/-! ### Ports.lean -/

@[simp] theorem State.replyEth_kept (s : State) (n : Nat) (e : Eth) (body : List Octet) :
    (State.replyEth s n e body).kept = s.kept := by
  simp [State.replyEth]
@[simp] theorem State.replyIp_kept (s : State) (n : Nat) (e : Eth) (i : Ip) (src : Nat) (body : List Octet) :
    (State.replyIp s n e i src body).kept = s.kept := by
  simp [State.replyIp]
@[simp] theorem State.answerArp_kept (s : State) (n : Nat) (e : Eth) :
    (State.answerArp s n e).kept = s.kept := by
  simp [State.answerArp]
@[simp] theorem State.answerEcho_kept (s : State) (n : Nat) (e : Eth) (i : Ip) :
    (State.answerEcho s n e i).kept = s.kept := by
  unfold State.answerEcho
  simp only []
  (repeat' split) <;> simp
@[simp] theorem State.answerNeighbour_kept (s : State) (n : Nat) (e : Eth) (i : Ip) :
    (State.answerNeighbour s n e i).kept = s.kept := by
  simp [State.answerNeighbour]
@[simp] theorem State.landSide_kept (s : State) (d p n type cls : Nat) (o : List Octet) : (State.landSide s d p n type cls o).kept = s.kept := by
  unfold State.landSide
  try simp only []
  split
  · exact State.dropPacket_kept _ _ _ _
  · rename_i h; exact State.putPacket_kept _ _ _ _ _ _ _ h
@[simp] theorem State.sideFrame_kept (s : State) (n type cls : Nat) (o : List Octet) :
    (State.sideFrame s n type cls o).kept = s.kept := by
  unfold State.sideFrame
  simp only []
  (repeat' split) <;> simp
@[simp] theorem State.countPort_kept (s : State) (n : Nat) (f : PortCnt → PortCnt) :
    (State.countPort s n f).kept = s.kept := (fun h => h) rfl
@[simp] theorem State.failedFrame_kept (s : State) (n : Nat) (o : List Octet) (e : Eth) : (State.failedFrame s n o e).kept = s.kept := by
  unfold State.failedFrame
  split
  · exact State.sideFrame_kept _ _ _ _ _
  · split
    · with_reducible rfl
    split
    · with_reducible rfl
    split
    · try simp only []
      split
      · rename_i h; rw [State.skipHead_kept]; exact State.putPacket_kept _ _ _ _ _ _ _ h
      · with_reducible rfl
    · with_reducible rfl
  · with_reducible rfl
@[simp] theorem State.portFrame_kept (s : State) (n : Nat) (o : List Octet) (e : Eth) :
    (State.portFrame s n o e).kept = s.kept := by
  unfold State.portFrame
  (repeat' split) <;> simp
@[simp] theorem State.ledgerFrame_kept (s : State) (n : Nat) (o : List Octet) (ok : Bool) :
    (State.ledgerFrame s n o ok).kept = s.kept := by
  unfold State.ledgerFrame
  simp only []
  (repeat' split) <;> simp
@[simp] theorem State.mirrorSide_kept (s : State) (n : Nat) (e : Eth) (o : List Octet) :
    (State.mirrorSide s n e o).kept = s.kept := by
  unfold State.mirrorSide
  (repeat' split) <;> simp
@[simp] theorem State.hearMirror_kept (s : State) (n : Nat) (f : MFrame) :
    (State.hearMirror s n f).kept = s.kept := by
  simp [State.hearMirror]
@[simp] theorem State.mirrorFrame_kept (s : State) (n : Nat) (o : List Octet) (ok : Bool) :
    (State.mirrorFrame s n o ok).kept = s.kept := by
  unfold State.mirrorFrame
  (repeat' split) <;> simp
@[simp] theorem State.cleanSide_kept (s : State) (d p n : Nat) : (s.cleanSide d p n).kept = s.kept := by
  induction n generalizing s with
  | zero => unfold State.cleanSide; with_reducible rfl
  | succ n ih =>
    unfold State.cleanSide
    try simp only []
    split
    · with_reducible rfl
    · rw [ih, State.setQueue_kept]
theorem State.takeSide_kept (s : State) (d p g : Nat) :
    ∀ t, (State.takeSide s d p g) = some t → t.1.kept = s.kept := by
  unfold State.takeSide
  simp only []
  (repeat' split) <;> simp
@[simp] theorem State.ptpMeasure_kept (s : State) (n : Nat) :
    (State.ptpMeasure s n).kept = s.kept := by
  unfold State.ptpMeasure
  simp only []
  repeat' (first | (with_reducible rfl) | (intro _ _) | split | (simp; done) | (refine (foldl_kept ?_ _ _).trans ?_) | (refine (iter_kept ?_ _ _).trans ?_))
@[simp] theorem State.updPtp_kept (s : State) (n : Nat) (f : PtpClient → PtpClient) :
    (State.updPtp s n f).kept = s.kept := by
  simp [State.updPtp]
@[simp] theorem State.ptpTake_kept (s : State) (n : Nat) (m : PtpMsg) :
    (State.ptpTake s n m).kept = s.kept := by
  unfold State.ptpTake
  simp only []
  (repeat' split) <;> simp
@[simp] theorem State.ptpNote_kept (s : State) (n : Nat) (e : Eth) (o : List Octet) :
    (State.ptpNote s n e o).kept = s.kept := by
  unfold State.ptpNote
  (repeat' split) <;> simp
@[simp] theorem State.ptpFrame_kept (s : State) (n : Nat) (e : Eth) (rx tx : Int) :
    (State.ptpFrame s n e rx tx).kept = s.kept := by
  unfold State.ptpFrame
  simp only []
  (repeat' split) <;> simp

/-! ### Queues.lean -/

@[simp] theorem State.holdQueueBits_kept (s : State) (p : Nat) :
    (State.holdQueueBits s p).kept = s.kept := by
  unfold State.holdQueueBits
  try simp only []
  repeat' (first | (with_reducible rfl) | (intro _ _) | split | (simp; done) | (refine (foldl_kept ?_ _ _).trans ?_) | (refine (iter_kept ?_ _ _).trans ?_) | (grind [kept_mk, kept_eta, State.setCore_kept, foldl_kept, iter_kept]) | simp)
@[simp] theorem State.decideFence_kept (s : State) (d : Nat) (c : FenceCause) :
    (State.decideFence s d c).kept = s.kept := by
  unfold State.decideFence
  (repeat' split) <;> simp

/-! ### Tandem.lean -/

@[simp] theorem State.stopPartition_kept (s : State) (p : Nat) :
    (State.stopPartition s p).kept = s.kept := by
  unfold State.stopPartition
  (repeat' split) <;> simp
@[simp] theorem State.dropSlots_kept (s : State) (p r d : Nat) :
    (State.dropSlots s p r d).kept = s.kept := by
  unfold State.dropSlots
  repeat' (first | (with_reducible rfl) | (intro _ _) | split | (simp; done) | (refine (foldl_kept ?_ _ _).trans ?_) | (refine (iter_kept ?_ _ _).trans ?_))
@[simp] theorem State.discardUnreleased_kept (s : State) (p : Nat) :
    (State.discardUnreleased s p).kept = s.kept := by
  unfold State.discardUnreleased
  try simp only []
  repeat' (first | (with_reducible rfl) | (intro _ _) | split | (simp [kept_mk, kept_eta, State.updDie_kept, State.updPartn_kept, State.updHost_kept, State.discardResponses_kept, State.rollBack_kept, State.dropSlots_kept, foldl_kept, iter_kept]; done) | (refine (foldl_kept ?_ _ _).trans ?_) | (refine (iter_kept ?_ _ _).trans ?_) | (grind [kept_mk, kept_eta, State.updDie_kept, State.updPartn_kept, State.updHost_kept, State.discardResponses_kept, State.rollBack_kept, State.dropSlots_kept, foldl_kept, iter_kept]) | (simp only [kept_mk, kept_eta, State.updDie_kept, State.updPartn_kept, State.updHost_kept, State.discardResponses_kept, State.rollBack_kept, State.dropSlots_kept, foldl_kept, iter_kept]))
@[simp] theorem State.setRole_kept (s : State) (r : BitVec 2) :
    (State.setRole s r).kept = s.kept := by
  unfold State.setRole
  (repeat' split) <;> simp
@[simp] theorem State.setLast_kept (s : State) (n : BitVec 3) :
    (State.setLast s n).kept = s.kept := by
  unfold State.setLast
  (repeat' split) <;> simp
@[simp] theorem State.undoStaging_kept (s : State) :
    (State.undoStaging s).kept = s.kept := by
  unfold State.undoStaging
  try simp only []
  repeat' (first | (with_reducible rfl) | (intro _ _) | split | (simp; done) | (refine (foldl_kept ?_ _ _).trans ?_) | (refine (iter_kept ?_ _ _).trans ?_) | (grind [kept_mk, kept_eta, State.updPlan_kept, State.updPwr_kept, State.clusterOff_kept, foldl_kept, iter_kept]) | simp)
@[simp] theorem State.withdrawStaged_kept (s : State) :
    (State.withdrawStaged s).kept = s.kept := by
  unfold State.withdrawStaged
  (repeat' split) <;> simp
@[simp] theorem State.becomeStale_kept (s : State) :
    (State.becomeStale s).kept = s.kept := by
  unfold State.becomeStale
  try simp only []
  repeat' (first | (with_reducible rfl) | (intro _ _) | split | (simp [kept_mk, kept_eta, State.updPort_kept, State.updSdRegs_kept, State.logErr_kept, State.discardUnreleased_kept, State.setRole_kept, State.withdrawStaged_kept, foldl_kept, iter_kept]; done) | (refine (foldl_kept ?_ _ _).trans ?_) | (refine (iter_kept ?_ _ _).trans ?_) | (grind [kept_mk, kept_eta, State.updPort_kept, State.updSdRegs_kept, State.logErr_kept, State.discardUnreleased_kept, State.setRole_kept, State.withdrawStaged_kept, foldl_kept, iter_kept]) | (simp only [kept_mk, kept_eta, State.updPort_kept, State.updSdRegs_kept, State.logErr_kept, State.discardUnreleased_kept, State.setRole_kept, State.withdrawStaged_kept, foldl_kept, iter_kept]))
@[simp] theorem State.failOver_kept (s : State) (p : Nat) :
    (State.failOver s p).kept = s.kept := by
  unfold State.failOver
  (repeat' split) <;> simp
@[simp] theorem State.compared_kept (s : State) (p e : Nat) (g : BitVec 64) (differ : Bool) (again : Nat) :
    (State.compared s p e g differ again).kept = s.kept := by
  unfold State.compared
  (repeat' split) <;> simp
@[simp] theorem State.blame_kept (s : State) (p r : Nat) :
    (State.blame s p r).kept = s.kept := by
  unfold State.blame
  simp only []
  (repeat' split) <;> simp
@[simp] theorem State.compareRerun_kept (s : State) (p e n : Nat) : (s.compareRerun p e n).kept = s.kept := by
  induction n generalizing s e with
  | zero => unfold State.compareRerun; simp only []; rw [State.logErr_kept, State.updPartn_kept]
  | succ n ih =>
    unfold State.compareRerun
    try simp only []
    split
    · with_reducible rfl
    · split
      · rw [ih, State.compared_kept]
      · rw [State.blame_kept, State.compared_kept]
@[simp] theorem State.comparePair_kept (s : State) (p k e n : Nat) : (s.comparePair p k e n).kept = s.kept := by
  induction n generalizing s e with
  | zero => unfold State.comparePair; with_reducible rfl
  | succ n ih =>
    unfold State.comparePair
    try simp only []
    split
    · split
      · rw [ih, State.compared_kept]
      · split
        · rw [State.failOver_kept, State.compared_kept]
        · rw [State.reexecute_kept, State.compared_kept]
    · with_reducible rfl
@[simp] theorem State.announce_kept (s : State) (n : Nat) (v4 v6 : List Nat) :
    (State.announce s n v4 v6).kept = s.kept := by
  unfold State.announce
  simp only []
  repeat' (first | (with_reducible rfl) | (intro _ _) | split | (simp; done) | (refine (foldl_kept ?_ _ _).trans ?_) | (refine (iter_kept ?_ _ _).trans ?_))
@[simp] theorem State.adoptPort_kept (s : State) (m n : Nat) :
    (State.adoptPort s m n).kept = s.kept := by
  simp [State.adoptPort]
@[simp] theorem State.afterFence_kept (s : State) (d p : Nat) :
    (State.afterFence s d p).kept = s.kept := by
  unfold State.afterFence
  simp only []
  (repeat' split) <;> simp
@[simp] theorem State.dropResponses_kept (s : State) (d : Nat) :
    (State.dropResponses s d).kept = s.kept := by
  unfold State.dropResponses
  simp only []
  repeat' (first | (with_reducible rfl) | (intro _ _) | split | (simp; done) | (refine (foldl_kept ?_ _ _).trans ?_) | (refine (iter_kept ?_ _ _).trans ?_))
@[simp] theorem State.fenceDie_kept (s : State) (d : Nat) (c : FenceCause) :
    (State.fenceDie s d c).kept = s.kept := by
  unfold State.fenceDie
  try simp only []
  repeat' (first | (with_reducible rfl) | (intro _ _) | split | (simp; done) | (refine (foldl_kept ?_ _ _).trans ?_) | (refine (iter_kept ?_ _ _).trans ?_) | (grind [kept_mk, kept_eta, State.updDie_kept, State.updGate_kept, State.updPort_kept, State.updSd_kept, State.updPwr_kept, State.updTs_kept, State.logErr_kept, State.clusterOff_kept, State.adoptPort_kept, State.afterFence_kept, State.dropResponses_kept, foldl_kept, iter_kept]) | simp)

/-! ### PlanCheck.lean -/

@[simp] theorem State.withPlan_kept (s : State) (pl : Plan) :
    (State.withPlan s pl).kept = s.kept := by
  simp [State.withPlan]

/-! ### Domains.lean -/

@[simp] theorem State.rowOff_kept (s : State) (d row : Nat) :
    (State.rowOff s d row).kept = s.kept := by
  simp [State.rowOff]
@[simp] theorem State.dieOff_kept (s : State) (m : BitVec 128) (d : Nat) : (State.dieOff s m d).kept = s.kept := by
  have h1 : (iter 8 (fun c x => if m.getLsbD (13 * d + c) && x.domain (13 * d + c) then
      (iter 8 (fun k y => y.dropTxn (64 * d + 8 * c + k)) x).clusterOff (8 * d + c) else x) s).kept = s.kept := by
    refine iter_kept ?_ _ _
    intro c x
    split
    · rw [State.clusterOff_kept, iter_kept]
      intro k y; exact State.dropTxn_kept _ _
    · with_reducible rfl
  have h4 (x : State) : (iter 4 (fun g x => (x.updPort (4 * d + g) fun _ => Port.reset).updGate (16 + 4 * d + g) fun _ => Gate.reset) x).kept
      = x.kept := iter_kept (fun _ _ => (State.updGate_kept _ _ _).trans (State.updPort_kept _ _ _)) _ _
  have h5 (x : State) : (iter 2 (fun row x => if m.getLsbD (13 * d + (8 + row)) then x.rowOff d row else x) x).kept = x.kept := by
    refine iter_kept ?_ _ _
    intro r y
    split
    · exact State.rowOff_kept _ _ _
    · with_reducible rfl
  have h2 (x : State) (f : Die → Die) (g : List Msg) (a : List Access) : ({ x.updDie d f with msgs := g, accesses := a } : State).kept = x.kept :=
    (fun h => h) rfl
  have hi {b : Bool} {x y : State} (hx : x.kept = s.kept) (hy : y.kept = s.kept) : (if b = true then x else y).kept = s.kept := by
    split
    · exact hx
    · exact hy
  unfold State.dieOff
  dsimp only
  repeat' with_reducible (first | (exact h1) | (refine hi ?_ ?_) | (refine (h2 _ _ _ _).trans ?_) | (refine (State.updDie_kept _ _ _).trans ?_) | (refine (h4 _).trans ?_) | (refine (h5 _).trans ?_) | (refine (State.updSd_kept _ _).trans ?_))
@[simp] theorem State.blocksOff_kept (s : State) :
    (State.blocksOff s).kept = s.kept := by
  unfold State.blocksOff
  simp only []
  repeat' (first | (with_reducible rfl) | (intro _ _) | split | (simp; done) | (refine (foldl_kept ?_ _ _).trans ?_) | (refine (iter_kept ?_ _ _).trans ?_))
@[simp] theorem State.linksOff_kept (s : State) (m : BitVec 128) :
    (State.linksOff s m).kept = s.kept := by
  unfold State.linksOff
  (repeat' split) <;> simp
@[simp] theorem State.domainsOff_kept (s : State) (m0 : BitVec 128) :
    (State.domainsOff s m0).kept = s.kept := by
  unfold State.domainsOff
  try simp only []
  repeat' (first | (with_reducible rfl) | (intro _ _) | split | (simp; done) | (refine (foldl_kept ?_ _ _).trans ?_) | (refine (iter_kept ?_ _ _).trans ?_) | (grind [kept_mk, kept_eta, State.updPartn_kept, State.updHost_kept, State.updMirror_kept, State.updPwr_kept, State.dieOff_kept, State.blocksOff_kept, State.linksOff_kept, foldl_kept, iter_kept]) | simp)
@[simp] theorem State.requestOn_kept (s : State) (l : List Nat) :
    (State.requestOn s l).kept = s.kept := by
  simp [State.requestOn]
@[simp] theorem State.joinDie_kept (s : State) (d : Nat) :
    (State.joinDie s d).kept = s.kept := by
  simp [State.joinDie]
@[simp] theorem State.domainOn_kept (s : State) (i : Nat) :
    (State.domainOn s i).kept = s.kept := by
  unfold State.domainOn
  try simp only []
  repeat' (first | (with_reducible rfl) | (intro _ _) | split | (simp; done) | (refine (foldl_kept ?_ _ _).trans ?_) | (refine (iter_kept ?_ _ _).trans ?_) | (grind [kept_mk, kept_eta, State.updCluster_kept, State.updPwr_kept, State.joinDie_kept, foldl_kept, iter_kept]) | simp)
@[simp] theorem State.loadGates_kept (s : State) :
    (State.loadGates s).kept = s.kept := by
  unfold State.loadGates
  simp only []
  repeat' (first | (with_reducible rfl) | (intro _ _) | split | (simp; done) | (refine (foldl_kept ?_ _ _).trans ?_) | (refine (iter_kept ?_ _ _).trans ?_))
@[simp] theorem State.clearRegion_kept (s : State) (r : Region) (d : Nat) :
    (State.clearRegion s r d).kept = s.kept := by
  simp [State.clearRegion]
@[simp] theorem State.writeData_kept (s : State) (x : PlanData) :
    (State.writeData s x).kept = s.kept := by
  unfold State.writeData
  repeat' (first | (with_reducible rfl) | (intro _ _) | split | (simp; done) | (refine (foldl_kept ?_ _ _).trans ?_) | (refine (iter_kept ?_ _ _).trans ?_))
@[simp] theorem State.loadQueues_kept (s : State) (fresh : Bool) :
    (State.loadQueues s fresh).kept = s.kept := by
  unfold State.loadQueues
  simp only []
  repeat' (first | (with_reducible rfl) | (intro _ _) | split | (simp; done) | (refine (foldl_kept ?_ _ _).trans ?_) | (refine (iter_kept ?_ _ _).trans ?_))
@[simp] theorem State.loadCluster_kept (s : State) (cl : Nat) :
    (State.loadCluster s cl).kept = s.kept := by
  unfold State.loadCluster
  simp only []
  repeat' (first | (with_reducible rfl) | (intro _ _) | split | (simp; done) | (refine (foldl_kept ?_ _ _).trans ?_) | (refine (iter_kept ?_ _ _).trans ?_))
@[simp] theorem State.startCore_kept (s : State) (c : Nat) (q : PlanPart) :
    (State.startCore s c q).kept = s.kept := by
  unfold State.startCore
  simp only []
  (repeat' split) <;> simp
@[simp] theorem State.startCluster_kept (s : State) (cl : Nat) :
    (State.startCluster s cl).kept = s.kept := by
  unfold State.startCluster
  simp only []
  repeat' (first | (with_reducible rfl) | (intro _ _) | split | (simp; done) | (refine (foldl_kept ?_ _ _).trans ?_) | (refine (iter_kept ?_ _ _).trans ?_))
@[simp] theorem State.toStart_kept (s : State) (m : BitVec 64) :
    (State.toStart s m).kept = s.kept := by
  simp [State.toStart]
@[simp] theorem State.startReady_kept (s : State) :
    (State.startReady s).kept = s.kept := by
  unfold State.startReady
  try simp only []
  repeat' (first | (with_reducible rfl) | (intro _ _) | split | (simp; done) | (refine (foldl_kept ?_ _ _).trans ?_) | (refine (iter_kept ?_ _ _).trans ?_) | (grind [kept_mk, kept_eta, State.updPwr_kept, State.startCluster_kept, foldl_kept, iter_kept]) | simp)

/-! ### Apply.lean -/

@[simp] theorem State.loadBegins_kept (s : State) (src : BitVec 2) (o : List Octet) :
    (State.loadBegins s src o).kept = s.kept := by
  simp [State.loadBegins]
@[simp] theorem State.rejectImage_kept (s : State) (o : List Octet) (e : PlanErr) :
    (State.rejectImage s o e).kept = s.kept := by
  simp [State.rejectImage]
@[simp] theorem State.acceptImage_kept (s : State) (o : List Octet) (clamps : List Nat) :
    (State.acceptImage s o clamps).kept = s.kept := by
  simp [State.acceptImage]
@[simp] theorem State.mbxResult_kept (s : State) (code status : BitVec 8) (res : List (BitVec 32)) :
    (State.mbxResult s code status res).kept = s.kept := by
  unfold State.mbxResult
  (repeat' split) <;> simp
@[simp] theorem State.planResult_kept (s : State) (status : BitVec 8) :
    (State.planResult s status).kept = s.kept := by
  simp [State.planResult]
@[simp] theorem State.resync_kept (s : State) :
    (State.resync s).kept = s.kept := by
  simp [State.resync]
@[simp] theorem State.askJoin_kept (s : State) (p : PartId) :
    (State.askJoin s p).kept = s.kept := by
  unfold State.askJoin
  (repeat' split) <;> simp
@[simp] theorem State.joinAll_kept (s : State) :
    (State.joinAll s).kept = s.kept := by
  unfold State.joinAll
  repeat' (first | (with_reducible rfl) | (intro _ _) | split | (simp; done) | (refine (foldl_kept ?_ _ _).trans ?_) | (refine (iter_kept ?_ _ _).trans ?_))
@[simp] theorem State.discardAll_kept (s : State) :
    (State.discardAll s).kept = s.kept := by
  unfold State.discardAll
  try simp only []
  repeat' (first | (with_reducible rfl) | (intro _ _) | split | (simp [kept_mk, kept_eta, State.updCluster_kept, State.updDie_kept, State.updPort_kept, State.updPartn_kept, foldl_kept, iter_kept]; done) | (refine (foldl_kept ?_ _ _).trans ?_) | (refine (iter_kept ?_ _ _).trans ?_) | (grind [kept_mk, kept_eta, State.updCluster_kept, State.updDie_kept, State.updPort_kept, State.updPartn_kept, foldl_kept, iter_kept]) | (simp only [kept_mk, kept_eta, State.updCluster_kept, State.updDie_kept, State.updPort_kept, State.updPartn_kept, foldl_kept, iter_kept]))
@[simp] theorem State.loadParams_kept (s : State) :
    (State.loadParams s).kept = s.kept := by
  unfold State.loadParams
  try simp only []
  repeat' (first | (with_reducible rfl) | (intro _ _) | split | (simp [kept_mk, kept_eta, State.updPartn_kept, State.updSdRegs_kept, State.updMirror_kept, State.updTs_kept, State.setTime_kept, State.setRole_kept, State.resync_kept, foldl_kept, iter_kept]; done) | (refine (foldl_kept ?_ _ _).trans ?_) | (refine (iter_kept ?_ _ _).trans ?_) | (grind [kept_mk, kept_eta, State.updPartn_kept, State.updSdRegs_kept, State.updMirror_kept, State.updTs_kept, State.setTime_kept, State.setRole_kept, State.resync_kept, foldl_kept, iter_kept]) | (simp only [kept_mk, kept_eta, State.updPartn_kept, State.updSdRegs_kept, State.updMirror_kept, State.updTs_kept, State.setTime_kept, State.setRole_kept, State.resync_kept, foldl_kept, iter_kept]))
@[simp] theorem State.applyPlan_kept (s : State) (pl : Plan) (images : List (List Octet)) :
    (State.applyPlan s pl images).kept = s.kept := by
  unfold State.applyPlan
  try simp only []
  repeat' (first | (with_reducible rfl) | (intro _ _) | split | (simp [kept_mk, kept_eta, State.updPlan_kept, State.updPwr_kept, State.domainsOff_kept, State.requestOn_kept, State.loadGates_kept, State.clearRegion_kept, State.writeData_kept, State.loadQueues_kept, State.toStart_kept, State.discardAll_kept, State.loadParams_kept, foldl_kept, iter_kept]; done) | (refine (foldl_kept ?_ _ _).trans ?_) | (refine (iter_kept ?_ _ _).trans ?_) | (grind [kept_mk, kept_eta, State.updPlan_kept, State.updPwr_kept, State.domainsOff_kept, State.requestOn_kept, State.loadGates_kept, State.clearRegion_kept, State.writeData_kept, State.loadQueues_kept, State.toStart_kept, State.discardAll_kept, State.loadParams_kept, foldl_kept, iter_kept]) | (simp only [kept_mk, kept_eta, State.updPlan_kept, State.updPwr_kept, State.domainsOff_kept, State.requestOn_kept, State.loadGates_kept, State.clearRegion_kept, State.writeData_kept, State.loadQueues_kept, State.toStart_kept, State.discardAll_kept, State.loadParams_kept, foldl_kept, iter_kept]))
@[simp] theorem State.finishApply_kept (s : State) :
    (State.finishApply s).kept = s.kept := by
  unfold State.finishApply
  simp only []
  (repeat' split) <;> simp
@[simp] theorem State.finishWake_kept (s : State) :
    (State.finishWake s).kept = s.kept := by
  unfold State.finishWake
  simp only []
  (repeat' split) <;> simp
@[simp] theorem State.bootOn_kept (s : State) :
    (State.bootOn s).kept = s.kept := by
  unfold State.bootOn
  simp only []
  (repeat' split) <;> simp
@[simp] theorem State.progress_kept (s : State) :
    (State.progress s).kept = s.kept := by
  unfold State.progress
  simp only []
  (repeat' split) <;> simp
@[simp] theorem State.stage_kept (s : State) (o : List Octet) (pl : Plan) :
    (State.stage s o pl).kept = s.kept := by
  have h1 (x : PlanData) (y : State) (n : Nat) :
      (x.lines.zipIdx.foldl (fun z k => z.putLine n (x.line + k.2) k.1.chars k.1.info) y).kept = y.kept :=
    foldl_kept (fun _ _ => State.putLine_kept _ _ _ _ _) _ _
  unfold State.stage
  simp only [State.setLast_kept, State.requestOn_kept]
  refine (foldl_kept (fun x d => ?_) _ _).trans ((foldl_kept (fun x r => ?_) _ _).trans (State.updPlan_kept _ _))
  · split
    · with_reducible rfl
    · exact foldl_kept (fun y n => h1 d y n) _ _
  · exact foldl_kept (fun _ _ => State.clearRegion_kept _ _ _) _ _
@[simp] theorem State.markTlbs_kept (s : State) :
    (State.markTlbs s).kept = s.kept := by
  simp [State.markTlbs]
@[simp] theorem State.rekey_kept (s : State) (old : List Region) (p : Nat) :
    (State.rekey s old p).kept = s.kept := by
  unfold State.rekey
  simp only []
  repeat' (first | (with_reducible rfl) | (intro _ _) | split | (simp; done) | (refine (foldl_kept ?_ _ _).trans ?_) | (refine (iter_kept ?_ _ _).trans ?_))
@[simp] theorem State.takeEffect_kept (s : State) (x : Staged) :
    (State.takeEffect s x).kept = s.kept := by
  unfold State.takeEffect
  try simp only []
  repeat' (first | (with_reducible rfl) | (intro _ _) | split | (simp; done) | (refine (foldl_kept ?_ _ _).trans ?_) | (refine (iter_kept ?_ _ _).trans ?_) | (grind [kept_mk, kept_eta, State.updCluster_kept, State.updGate_kept, State.updPartn_kept, State.updPlan_kept, State.clusterOff_kept, State.setLast_kept, State.loadQueues_kept, State.toStart_kept, State.startReady_kept, State.markTlbs_kept, State.rekey_kept, foldl_kept, iter_kept]) | simp)
@[simp] theorem State.applyChain_kept (s : State) (o : List Octet) (id : Fin 4) :
    (State.applyChain s o id).kept = s.kept := by
  unfold State.applyChain
  simp only []
  (repeat' split) <;> simp

/-! ### Mirror.lean -/

@[simp] theorem State.updMPeer_kept (s : State) (i : Nat) (f : MPeer → MPeer) :
    (State.updMPeer s i f).kept = s.kept := (fun h => h) rfl
@[simp] theorem State.adopt_kept (s : State) (f : MFrame) :
    (State.adopt s f).kept = s.kept := by
  unfold State.adopt
  (repeat' split) <;> simp
theorem State.takeMirror_kept (s : State) (sel : MPayload → Bool) {f : State → MFrame → State} (h : ∀ x m, (f x m).kept = x.kept) :
    (s.takeMirror sel f).kept = s.kept := by
  unfold State.takeMirror
  split
  · with_reducible rfl
  · try simp only []
    split
    · rw [State.updMirror_kept, State.updMirror_kept]
    · rw [h, State.adopt_kept, State.updMirror_kept]
@[simp] theorem State.sendFollowAck_kept (s : State) (p : PartId) :
    (State.sendFollowAck s p).kept = s.kept := by
  unfold State.sendFollowAck
  (repeat' split) <;> simp
@[simp] theorem State.followSession_kept (s : State) (n : Nat) (m : Lpt) :
    (State.followSession s n m).kept = s.kept := by
  unfold State.followSession
  simp only []
  (repeat' split) <;> simp
theorem State.followSlot_kept (s : State) (d : Nat) (v : Slot) (marks : List Bool) :
    ∀ t, State.followSlot s d v marks = some t → t.1.kept = s.kept := by
  intro t h
  unfold State.followSlot at h
  simp only [] at h
  split at h
  · cases h
  · simp only [Option.map_eq_some_iff] at h
    obtain ⟨r, hr, h⟩ := h
    cases h
    simp only [State.takeFreeSlot_kept]
    exact State.landPacket_kept _ _ _ _ _ hr
@[simp] theorem State.followOutcome_kept (s : State) (p : PartId) (pos : Position) (o : Outcome) :
    (State.followOutcome s p pos o).kept = s.kept := by
  unfold State.followOutcome
  (repeat' split) <;> simp
theorem State.followTxn_kept (s : State) (p : PartId) (d : Nat) (v : Slot) (marks : List Bool) :
    ∀ t, State.followTxn s p d v marks = some t → t.kept = s.kept := by
  intro t h
  unfold State.followTxn at h
  split at h
  · simp only [] at h
    split at h
    · cases h
    · rename_i hd _ s1 n w h1
      have h2 : s1.kept = s.kept := State.followSlot_kept _ _ _ _ _ h1
      have h4 : ∀ x : State, x.kept = s.kept → (match (s.partn p).eventFor v.pos with
          | some o => x.followOutcome p v.pos o
          | none => x).kept = s.kept := by
        intro x hx
        split
        · rw [State.followOutcome_kept]; exact hx
        · exact hx
      have h5 : ∀ x : State, x.kept = s.kept → (if v.org.host then x else x.followSession v.org.port v.lpt).kept = s.kept := by
        intro x hx
        split
        · exact hx
        · rw [State.followSession_kept]; exact hx
      have h6 := h4 _ (h5 _ ((State.enterGate_kept s1 ⟨d, hd⟩ n w).trans h2))
      split at h
      · simp only [Option.map_eq_some_iff] at h
        obtain ⟨r, hr, h⟩ := h
        cases h
        exact (State.followSlot_kept _ _ _ _ _ hr).trans (h6)
      · cases h; exact h6
  · cases h; with_reducible rfl
@[simp] theorem State.followPlan_kept (s : State) (e : Nat) (o : List Octet) :
    (State.followPlan s e o).kept = s.kept := by
  simp [State.followPlan]
@[simp] theorem State.keepEntry_kept (s : State) (p e : Nat) (x : LogEntry) :
    (State.keepEntry s p e x).kept = s.kept := by
  simp [State.keepEntry]
theorem State.feedOne_kept (s : State) (p : PartId) (e : Nat) (x : LogEntry) :
    ∀ t, (State.feedOne s p e x) = some t → t.kept = s.kept := by
  unfold State.feedOne
  try simp only []
  repeat' (first | (with_reducible rfl) | (intro _ _) | split | (simp; done) | (refine (foldl_kept ?_ _ _).trans ?_) | (refine (iter_kept ?_ _ _).trans ?_) | (grind [kept_mk, kept_eta, State.followOutcome_kept, State.followTxn_kept, State.followPlan_kept, State.keepEntry_kept, foldl_kept, iter_kept]) | simp)
@[simp] theorem State.noteReplayed_kept (s : State) (t : BitVec 48) :
    (State.noteReplayed s t).kept = s.kept := by
  simp [State.noteReplayed]
@[simp] theorem State.feed_kept (s : State) (p : PartId) (n : Nat) : (s.feed p n).kept = s.kept := by
  induction n generalizing s with
  | zero => unfold State.feed; with_reducible rfl
  | succ n ih =>
    unfold State.feed
    split
    · with_reducible rfl
    · split
      · with_reducible rfl
      split
      · with_reducible rfl
      · rename_i h
        rw [ih, State.updPartn_kept, State.noteReplayed_kept]
        exact State.feedOne_kept _ _ _ _ _ h
@[simp] theorem State.applyHeld_kept (s : State) (p : PartId) (n : Nat) : (s.applyHeld p n).kept = s.kept := by
  induction n generalizing s with
  | zero => unfold State.applyHeld; with_reducible rfl
  | succ n ih =>
    unfold State.applyHeld
    try simp only []
    split
    · with_reducible rfl
    split
    · rw [ih]
      split
      · rw [State.updPartn_kept]
      · rw [State.logErr_kept, State.updMirror_kept, State.updPartn_kept]
    · with_reducible rfl
@[simp] theorem State.releaseOne_kept (s : State) (p : PartId) (e : Nat) :
    (State.releaseOne s p e).kept = s.kept := by
  unfold State.releaseOne
  simp only []
  repeat' (first | (with_reducible rfl) | (intro _ _) | split | (simp; done) | (refine (foldl_kept ?_ _ _).trans ?_) | (refine (iter_kept ?_ _ _).trans ?_))
@[simp] theorem State.followRelease_kept (s : State) (p : PartId) :
    (State.followRelease s p).kept = s.kept := by
  unfold State.followRelease
  simp only []
  repeat' (first | (with_reducible rfl) | (intro _ _) | split | (simp; done) | (refine (foldl_kept ?_ _ _).trans ?_) | (refine (iter_kept ?_ _ _).trans ?_))
@[simp] theorem State.followOn_kept (s : State) (p : PartId) : (State.followOn s p).kept = s.kept := by
  unfold State.followOn
  split
  · with_reducible rfl
  · rw [State.followRelease_kept, State.applyHeld_kept, State.feed_kept]
@[simp] theorem State.ownSources_kept (s : State) :
    (State.ownSources s).kept = s.kept := by
  unfold State.ownSources
  (repeat' split) <;> simp
@[simp] theorem State.departLate_kept (s : State) (p r n : Nat) :
    (State.departLate s p r n).kept = s.kept := by
  unfold State.departLate
  simp only []
  repeat' (first | (with_reducible rfl) | (intro _ _) | split | (simp; done) | (refine (foldl_kept ?_ _ _).trans ?_) | (refine (iter_kept ?_ _ _).trans ?_))
@[simp] theorem State.leadPart_kept (s : State) (p : PartId) :
    (State.leadPart s p).kept = s.kept := by
  unfold State.leadPart
  try simp only []
  repeat' (first | (with_reducible rfl) | (intro _ _) | split | (simp [kept_mk, kept_eta, State.updPartn_kept, State.releaseOne_kept, State.departLate_kept, foldl_kept, iter_kept]; done) | (refine (foldl_kept ?_ _ _).trans ?_) | (refine (iter_kept ?_ _ _).trans ?_) | (grind [kept_mk, kept_eta, State.updPartn_kept, State.releaseOne_kept, State.departLate_kept, foldl_kept, iter_kept]) | (simp only [kept_mk, kept_eta, State.updPartn_kept, State.releaseOne_kept, State.departLate_kept, foldl_kept, iter_kept]))
@[simp] theorem State.becomeLead_kept (s : State) :
    (State.becomeLead s).kept = s.kept := by
  have h5 (x : State) (hx : x.kept = s.kept) : (if x.h.sd.g.st = .unset then x
      else x.startHorizons.updSd fun x => { x with opened := true, g := { x.g with admitOpen := true } }).kept = s.kept := by
    split
    · exact hx
    · rw [State.updSd_kept, State.startHorizons_kept]; exact hx
  unfold State.becomeLead
  simp only []
  rw [State.mbxResult_kept, State.logErr_kept]
  refine h5 _ ?_
  refine (iter_kept (fun n x => ?_) _ _).trans ?_
  · split
    · exact State.announce_kept _ _ _ _
    · with_reducible rfl
  rw [State.updMirror_kept]
  refine (foldl_kept (fun x p => State.leadPart_kept _ _) _ _).trans ?_
  rw [State.ownSources_kept, State.updMirror_kept, State.setRole_kept, State.updMirror_kept]
@[simp] theorem State.endTakeover_kept (s : State) :
    (State.endTakeover s).kept = s.kept := by
  unfold State.endTakeover
  (repeat' split) <;> simp
@[simp] theorem State.startTakeover_kept (s : State) :
    (State.startTakeover s).kept = s.kept := by
  unfold State.startTakeover
  try simp only []
  repeat' (first | (with_reducible rfl) | (intro _ _) | split | (simp; done) | (refine (foldl_kept ?_ _ _).trans ?_) | (refine (iter_kept ?_ _ _).trans ?_) | (grind [kept_mk, kept_eta, State.updMirror_kept, State.sendMirror_kept, State.endTakeover_kept, foldl_kept, iter_kept]) | simp)
@[simp] theorem State.followed_kept (s t : State) (p : PartId) :
    (State.followed s t p).kept = t.kept := by
  unfold State.followed
  simp only []
  (repeat' split) <;> simp
@[simp] theorem State.endJoin_kept (s : State) (p : Nat) :
    (State.endJoin s p).kept = s.kept := by
  unfold State.endJoin
  simp only []
  repeat' (first | (with_reducible rfl) | (intro _ _) | split | (simp; done) | (refine (foldl_kept ?_ _ _).trans ?_) | (refine (iter_kept ?_ _ _).trans ?_))
@[simp] theorem State.dropFollower_kept (s : State) (i : Nat) : (State.dropFollower s i).kept = s.kept := by
  unfold State.dropFollower
  split
  · with_reducible rfl
  · rw [State.logErr_kept, iter_kept, State.updMirror_kept]
    intro p x
    split
    · exact State.endJoin_kept _ _
    · with_reducible rfl
@[simp] theorem State.heartMeasure_kept (s : State) (t1 t3 t4 : Nat) (t2 : Int) :
    (State.heartMeasure s t1 t3 t4 t2).kept = s.kept := by
  simp [State.heartMeasure]
@[simp] theorem State.leadHeart_kept (s : State) (src : Fin 4) (flags : Nat) :
    (State.leadHeart s src flags).kept = s.kept := by
  unfold State.leadHeart
  simp only []
  repeat' (first | (with_reducible rfl) | (intro _ _) | split | (simp; done) | (refine (foldl_kept ?_ _ _).trans ?_) | (refine (iter_kept ?_ _ _).trans ?_))
@[simp] theorem State.holdSegment_kept (s : State) (p : PartId) (last : Bool) (seg e : Nat) (entries : List LogEntry) (total : Nat) (o u : BitVec 64) :
    (State.holdSegment s p last seg e entries total o u).kept = s.kept := by
  unfold State.holdSegment
  simp only []
  (repeat' split) <;> simp
@[simp] theorem State.chainLine_kept (s : State) (dst die line : Nat) (tag : BitVec 32) :
    (State.chainLine s dst die line tag).kept = s.kept := by
  unfold State.chainLine
  simp only []
  (repeat' split) <;> simp
@[simp] theorem State.readAsOf_kept (s : State) (d l e : Nat) (ecc : Ecc) :
    (State.readAsOf s d l e ecc).1.kept = s.kept := by
  unfold State.readAsOf
  simp only []
  (repeat' split) <;> simp
@[simp] theorem State.answerFetch_kept (s : State) (dst p die line e : Nat) (tag : BitVec 32) (ecc : Ecc) :
    (State.answerFetch s dst p die line e tag ecc).kept = s.kept := by
  unfold State.answerFetch
  simp only []
  (repeat' split) <;> simp
@[simp] theorem State.peerFetch_kept (s : State) (ecc : Ecc) :
    (State.peerFetch s ecc).kept = s.kept := by
  unfold State.peerFetch
  try simp only []
  repeat' (first | (with_reducible rfl) | (intro _ _) | split | (simp; done) | (refine (foldl_kept ?_ _ _).trans ?_) | (refine (iter_kept ?_ _ _).trans ?_) | (grind [kept_mk, kept_eta, State.sendMirror_kept, State.takeMirror_kept, State.chainLine_kept, State.answerFetch_kept, foldl_kept, iter_kept]) | simp)
@[simp] theorem State.partnerFetch_kept (s : State) (ecc : Ecc) :
    (State.partnerFetch s ecc).kept = s.kept := by
  unfold State.partnerFetch
  refine State.receive_kept _ _ (fun x m => ?_)
  split
  · simp only []
    split
    · exact State.post_kept _ _
    · split
      · exact State.post_kept _ _
      · split <;> exact (State.post_kept _ _).trans (State.readAsOf_kept _ _ _ _ _)
  · with_reducible rfl
@[simp] theorem State.chainTaken_kept (s : State) (src : Nat) (line status : Nat) (tag : BitVec 32) (data : List Octet) :
    (State.chainTaken s src line status tag data).kept = s.kept := by
  unfold State.chainTaken
  simp only []
  (repeat' split) <;> simp
@[simp] theorem State.repairTaken_kept (s : State) (src die line e status : Nat) (info : Octet) (data : List Octet) :
    (State.repairTaken s src die line e status info data).kept = s.kept := by
  unfold State.repairTaken
  (repeat' split) <;> simp
@[simp] theorem State.partnerTaken_kept (s : State) (d line e status : Nat) (k : BitVec 4) (capline : Bool) (chars : List Chr) :
    (State.partnerTaken s d line e status k capline chars).kept = s.kept := by
  unfold State.partnerTaken
  (repeat' split) <;> simp
@[simp] theorem State.peerLine_kept (s : State) :
    (State.peerLine s).kept = s.kept := by
  unfold State.peerLine
  try simp only []
  repeat' (first | (with_reducible rfl) | (intro _ _) | split | (simp; done) | (refine (foldl_kept ?_ _ _).trans ?_) | (refine (iter_kept ?_ _ _).trans ?_) | (grind [kept_mk, kept_eta, State.putLine_kept, State.takeMirror_kept, State.chainTaken_kept, State.repairTaken_kept, foldl_kept, iter_kept]) | simp)
@[simp] theorem State.joinStart_kept (s : State) (p : PartId) (j d : Nat) :
    (State.joinStart s p j d).kept = s.kept := by
  simp [State.joinStart]
@[simp] theorem State.startJoin_kept (s : State) (p : PartId) (i : Nat) :
    (State.startJoin s p i).kept = s.kept := by
  unfold State.startJoin
  try simp only []
  repeat' (first | (with_reducible rfl) | (intro _ _) | split | (simp; done) | (refine (foldl_kept ?_ _ _).trans ?_) | (refine (iter_kept ?_ _ _).trans ?_) | (grind [kept_mk, kept_eta, State.updPartn_kept, State.sendMirror_kept, State.giveUpJoin_kept, State.shipTo_kept, State.endJoin_kept, State.joinStart_kept, foldl_kept, iter_kept]) | simp)
@[simp] theorem State.streamJoin_kept (s : State) (p : PartId) (j : Nat) :
    (State.streamJoin s p j).kept = s.kept := by
  unfold State.streamJoin
  try simp only []
  repeat' (first | (with_reducible rfl) | (intro _ _) | split | (simp [kept_mk, kept_eta, State.updMirror_kept, State.logErr_kept, State.sendMirror_kept, State.endJoin_kept, foldl_kept, iter_kept]; done) | (refine (foldl_kept ?_ _ _).trans ?_) | (refine (iter_kept ?_ _ _).trans ?_) | (grind [kept_mk, kept_eta, State.updMirror_kept, State.logErr_kept, State.sendMirror_kept, State.endJoin_kept, foldl_kept, iter_kept]) | (simp only [kept_mk, kept_eta, State.updMirror_kept, State.logErr_kept, State.sendMirror_kept, State.endJoin_kept, foldl_kept, iter_kept]))
@[simp] theorem State.joinedTaken_kept (s : State) (p : PartId) (j done : Nat) :
    (State.joinedTaken s p j done).kept = s.kept := by
  unfold State.joinedTaken
  simp only []
  repeat' (first | (with_reducible rfl) | (intro _ _) | split | (simp; done) | (refine (foldl_kept ?_ _ _).trans ?_) | (refine (iter_kept ?_ _ _).trans ?_))
@[simp] theorem State.yieldTo_kept (s : State) (l : Fin 4) :
    (State.yieldTo s l).kept = s.kept := by
  unfold State.yieldTo
  try simp only []
  repeat' (first | (with_reducible rfl) | (intro _ _) | split | (simp [kept_mk, kept_eta, State.updSdRegs_kept, State.updMirror_kept, State.discardUnreleased_kept, State.setRole_kept, State.withdrawStaged_kept, State.mbxResult_kept, State.joinAll_kept, State.ownSources_kept, foldl_kept, iter_kept]; done) | (refine (foldl_kept ?_ _ _).trans ?_) | (refine (iter_kept ?_ _ _).trans ?_) | (grind [kept_mk, kept_eta, State.updSdRegs_kept, State.updMirror_kept, State.discardUnreleased_kept, State.setRole_kept, State.withdrawStaged_kept, State.mbxResult_kept, State.joinAll_kept, State.ownSources_kept, foldl_kept, iter_kept]) | (simp only [kept_mk, kept_eta, State.updSdRegs_kept, State.updMirror_kept, State.discardUnreleased_kept, State.setRole_kept, State.withdrawStaged_kept, State.mbxResult_kept, State.joinAll_kept, State.ownSources_kept, foldl_kept, iter_kept]))

/-! ### Host.lean -/

@[simp] theorem State.msixRelease_kept (s : State) (key : Nat) :
    (State.msixRelease s key).kept = s.kept := by
  unfold State.msixRelease
  simp only []
  (repeat' split) <;> simp
@[simp] theorem State.setMask_kept (s : State) (key : Nat) (masked : Bool) :
    (State.setMask s key masked).kept = s.kept := by
  simp [State.setMask]
@[simp] theorem State.setFnCfg_kept (s : State) (f : HostFn) (g : FnCfg → FnCfg) :
    (State.setFnCfg s f g).kept = s.kept := by
  unfold State.setFnCfg
  simp only []
  repeat' (first | (with_reducible rfl) | (intro _ _) | split | (simp; done) | (refine (foldl_kept ?_ _ _).trans ?_) | (refine (iter_kept ?_ _ _).trans ?_))
@[simp] theorem State.msixWrite_kept (s : State) (base off : Nat) (v : BitVec 32) :
    (State.msixWrite s base off v).kept = s.kept := by
  unfold State.msixWrite
  (repeat' split) <;> simp
@[simp] theorem State.hostReset_kept (s : State) :
    (State.hostReset s).kept = s.kept := by
  simp [State.hostReset]
@[simp] theorem State.hostErr_kept (s : State) (b : BitVec 3) :
    (State.hostErr s b).kept = s.kept := by
  simp [State.hostErr]
@[simp] theorem State.winFail_kept (s : State) (reason w : Nat) (f : HostFn) (write : Bool) (pa : Nat) :
    (State.winFail s reason w f write pa).kept = s.kept := by
  simp [State.winFail]
@[simp] theorem State.answerWord_kept (s : State) (w : Option Word) : (s.answerWord w).kept = s.kept := by
  cases w <;> unfold State.answerWord <;> exact State.emit_kept _ _
@[simp] theorem State.winCheck_kept (s : State) (f : HostFn) (w : Nat) (pa : Nat) (write : Bool) :
    (State.winCheck s f w pa write).1.kept = s.kept := by
  unfold State.winCheck
  simp only []
  (repeat' split) <;> simp
@[simp] theorem State.winRefused_kept (s : State) (f : HostFn) (w d l reason : Nat) (v : Verdict) (pa : Nat) (write : Bool) :
    (State.winRefused s f w d l reason v pa write).kept = s.kept := by
  simp [State.winRefused]
@[simp] theorem State.winLine_kept (s : State) (f : HostFn) (w d l : Nat) (pa : Nat) (ecc : Ecc) (v : Verdict) :
    (State.winLine s f w d l pa ecc v).1.kept = s.kept := by
  unfold State.winLine
  try simp only []
  repeat' (first | (with_reducible rfl) | (intro _ _) | split | (simp; done) | (refine (foldl_kept ?_ _ _).trans ?_) | (refine (iter_kept ?_ _ _).trans ?_) | (grind [kept_mk, kept_eta, State.readTags_kept, State.readSymbols_kept, State.readImage_kept, State.winFail_kept, State.winRefused_kept, foldl_kept, iter_kept]) | simp)
@[simp] theorem State.winWord_kept (s : State) (f : HostFn) (w pa : Nat) (ecc : Ecc) (v : Verdict) :
    (State.winWord s f w pa ecc v).1.kept = s.kept := by
  unfold State.winWord
  simp only []
  (repeat' split) <;> simp
@[simp] theorem State.winStore_kept (s : State) (f : HostFn) (w pa : Nat) (l : List Chr) (ecc : Ecc) (v : Verdict) :
    (State.winStore s f w pa l ecc v).kept = s.kept := by
  unfold State.winStore
  simp only []
  (repeat' split) <;> simp
@[simp] theorem State.winWrite_kept (s : State) (f : HostFn) (w pa : Nat) (l : List Chr) (ecc : Ecc) :
    (State.winWrite s f w pa l ecc).kept = s.kept := by
  unfold State.winWrite
  try simp only []
  repeat' (first | (with_reducible rfl) | (intro _ _) | split | (simp; done) | (refine (foldl_kept ?_ _ _).trans ?_) | (refine (iter_kept ?_ _ _).trans ?_) | (grind [kept_mk, kept_eta, State.ramWrite_kept, State.space2Write_kept, State.violation_kept, State.winFail_kept, State.winCheck_kept, State.winStore_kept, foldl_kept, iter_kept]) | simp)
@[simp] theorem State.winSlots_kept (s : State) (f : HostFn) (w : PartId) (ecc : Ecc) (n off : Nat) (l : List (BitVec 8 × BitVec 64)) :
    (s.winSlots f w ecc n off l).kept = s.kept := by
  induction n generalizing s ecc off l with
  | zero => rfl
  | succ n ih =>
    cases l with
    | nil => rfl
    | cons x rest =>
      unfold State.winSlots
      simp only []
      split
      · rw [ih]; exact State.winWrite_kept _ _ _ _ _ _
      · rw [ih]
        split
        · with_reducible rfl
        split
        · exact State.winFail_kept _ _ _ _ _ _
        · exact State.winWrite_kept _ _ _ _ _ _
@[simp] theorem State.winRule_kept (s : State) (f : HostFn) (w : Nat) (reg : Nat) (v : BitVec 32) :
    (State.winRule s f w reg v).kept = s.kept := by
  unfold State.winRule
  (repeat' split) <;> simp
@[simp] theorem State.setHostQueue_kept (s : State) (q : Nat) (r : HostQueue) :
    (State.setHostQueue s q r).kept = s.kept := by
  unfold State.setHostQueue
  simp only []
  (repeat' split) <;> simp
@[simp] theorem State.queueControl_kept (s : State) (f : HostFn) (q : Nat) (v : BitVec 32) :
    (State.queueControl s f q v).kept = s.kept := by
  unfold State.queueControl
  (repeat' split) <;> simp
@[simp] theorem State.queueRegWrite_kept (s : State) (f : HostFn) (q off : Nat) (v : BitVec 32) :
    (State.queueRegWrite s f q off v).kept = s.kept := by
  unfold State.queueRegWrite
  simp only []
  (repeat' split) <;> simp
@[simp] theorem State.inject_kept (s : State) (q : Nat) (tag : BitVec 16) (octets : List Octet) :
    (State.inject s q tag octets).kept = s.kept := by
  unfold State.inject
  simp only []
  (repeat' split) <;> simp
@[simp] theorem State.writeUnits_kept (s : State) (r : HostQueue) (v : Nat) (l : List (List Octet)) :
    (State.writeUnits s r v l).kept = s.kept := by
  unfold State.writeUnits
  repeat' (first | (with_reducible rfl) | (intro _ _) | split | (simp; done) | (refine (foldl_kept ?_ _ _).trans ?_) | (refine (iter_kept ?_ _ _).trans ?_))
@[simp] theorem State.bar0Write_kept (s : State) (off : Nat) (v : BitVec 32) :
    (State.bar0Write s off v).kept = s.kept := by
  unfold State.bar0Write
  (repeat' split) <;> simp
@[simp] theorem State.vfWrite_kept (s : State) (p : PartId) (off : Nat) (v : BitVec 32) :
    (State.vfWrite s p off v).kept = s.kept := by
  unfold State.vfWrite
  (repeat' split) <;> simp

/-! ### Mailbox.lean -/

@[simp] theorem State.patchDone_kept (s : State) :
    (State.patchDone s).kept = s.kept := by
  simp [State.patchDone]
@[simp] theorem State.patchRejected_kept (s : State) (reason : Nat) : (State.patchRejected s reason).kept = s.kept := by
  unfold State.patchRejected
  simp only []
  split
  · rw [State.mbxResult_kept]; rfl
  · rw [State.updPwr_kept]; rfl
theorem State.burned_pending (s : State) : (State.burned s).pending = s.pending := by
  unfold State.burned
  split
  · rfl
  · exact congrArg Prod.fst (State.patchDone_kept _)
theorem State.burned_burning (s : State) : (State.burned s).h.burning = none := by
  unfold State.burned
  split
  · assumption
  · exact congrArg (fun x => x.2.2) (State.patchDone_kept _)
theorem State.burned_fuses (s : State) : (State.burned s).h.fuses =
    (match s.h.burning with | none => s.h.fuses | some b => b.fields.foldl (fun x f => f.burn x) s.h.fuses) := by
  unfold State.burned
  split
  · rename_i h; first | rfl | rw [h]
  · rename_i h
    first
    | exact congrArg (fun x => x.2.1) (State.patchDone_kept _)
    | (rw [h]; exact congrArg (fun x => x.2.1) (State.patchDone_kept _))
theorem State.settled_pending (s : State) : (State.settled s).pending = s.pending := by
  unfold State.settled
  split
  · rfl
  · exact State.burned_pending _
theorem State.takePatch_pending (s : State) (o : List Octet) (vpgm : Bool) (source : BitVec 2) :
    (State.takePatch s o vpgm source).pending = s.pending := by
  unfold State.takePatch
  simp only []
  split
  · exact congrArg Prod.fst (State.patchRejected_kept _ _)
  split
  · exact congrArg Prod.fst (State.patchDone_kept _)
  · rfl
theorem State.command_kept (s : State) (tag code : BitVec 8) (legal : List Nat) {f : State → State}
    (h : ∀ x, (f x).kept = x.kept) : (s.command tag code legal f).kept = s.settled.kept := by
  unfold State.command
  simp only []
  split
  · with_reducible rfl
  split
  · exact State.hostErr_kept _ _
  split
  · rw [h, State.updHost_kept]
  · rw [State.mbxResult_kept, State.updHost_kept]
@[simp] theorem State.loadImage_kept (s : State) (src : BitVec 2) (o : List Octet) :
    (State.loadImage s src o).kept = s.kept := by
  unfold State.loadImage
  simp only []
  (repeat' split) <;> simp
@[simp] theorem State.askChain_kept (s : State) (id : Fin 4) :
    (State.askChain s id).kept = s.kept := by
  simp [State.askChain]
@[simp] theorem State.hostPlanLoad_kept (s : State) (r : DmaResult) :
    (State.hostPlanLoad s r).kept = s.kept := by
  unfold State.hostPlanLoad
  simp only []
  (repeat' split) <;> simp

/-! ### Power.lean -/

theorem State.booted_kept (s : State) (x : Straps) (stuck dead : Bool) :
    (State.booted s x stuck dead).kept = (s.pending, s.h.fuses, none) := by
  unfold State.booted
  simp only []
  split
  · rfl
  · rw [State.progress_kept, State.requestOn_kept]; rfl

end Sys2Proof.Machine
end

