-- ==== Sys2Proof/Laws/Sparse.lean ====
section
/-! SUPPORT. The sparse map: what is read after a write, and the canonical form, which every operation on a map keeps. -/

namespace Sys2Proof.Sparse
variable {α : Type}

theorem get_cons (d : α) (e : Nat × α) (m : Sparse α) (j : Nat) : get d (e :: m) j = if e.1 = j then e.2 else get d m j := rfl

theorem get_insert (d : α) (m : Sparse α) (k j : Nat) (v : α) : get d (insert m k v) j = if j = k then v else get d m j := by
  induction m with
  | nil =>
    by_cases h : j = k
    · simp [insert, get_cons, h]
    · simp [insert, get_cons, h, Ne.symm h]
  | cons e m ih =>
    obtain ⟨i, w⟩ := e
    unfold insert
    by_cases h : j = k
    · subst h
      by_cases h1 : j < i
      · simp [get_cons, h1]
      · by_cases h2 : j = i
        · simp [get_cons, h2]
        · simp only [if_neg h1, if_neg h2, get_cons, if_neg (Ne.symm h2), ih, if_true]
    · by_cases h1 : k < i
      · simp only [if_pos h1, get_cons, if_neg (Ne.symm h), if_neg h]
      · by_cases h2 : k = i
        · subst h2; simp only [if_neg h1, if_true, get_cons, if_neg (Ne.symm h), if_neg h]
        · simp only [if_neg h1, if_neg h2, get_cons, ih, if_neg h]

theorem get_erase (d : α) (m : Sparse α) (k j : Nat) : get d (erase m k) j = if j = k then d else get d m j := by
  induction m with
  | nil => simp [erase, get]
  | cons e m ih =>
    obtain ⟨i, w⟩ := e
    unfold erase at ih ⊢
    rw [List.filter_cons]
    by_cases h : i = k
    · subst h
      simp only [ne_eq, not_true_eq_false, decide_false, Bool.false_eq_true, if_false, ih, get_cons]
      by_cases hj : j = i
      · simp [hj]
      · simp [hj, Ne.symm hj]
    · simp only [ne_eq, h, not_false_eq_true, decide_true, if_true, get_cons, ih]
      by_cases hj : j = k
      · subst hj; simp [h]
      · simp [hj]

/-- A read after a write. -/
theorem get_set [DecidableEq α] (d : α) (m : Sparse α) (k : Nat) (v : α) (j : Nat) :
    get d (set d m k v) j = if j = k then v else get d m j := by
  unfold set
  by_cases h : v = d
  · rw [if_pos h, get_erase, h]
  · rw [if_neg h]; exact get_insert d m k j v

@[simp] theorem get_set_self [DecidableEq α] (d : α) (m : Sparse α) (k : Nat) (v : α) : get d (set d m k v) k = v := by
  rw [get_set, if_pos rfl]

/-- A read after a write of consecutive keys, from k: the values written, and elsewhere what was there. -/
theorem get_setList [DecidableEq α] (d : α) (l : List α) (m : Sparse α) (k j : Nat) :
    get d (setList d m k l) j = if k ≤ j ∧ j < k + l.length then l.getD (j - k) d else get d m j := by
  induction l generalizing m k with
  | nil => rw [if_neg (by simp)]; rfl
  | cons v l ih =>
    rw [setList, ih, get_set, List.length_cons]
    by_cases h : j = k
    · subst h; simp
    · by_cases h2 : k + 1 ≤ j ∧ j < k + 1 + l.length
      · have h3 : k ≤ j ∧ j < k + (l.length + 1) := by omega
        have h4 : j - k = (j - (k + 1)) + 1 := by omega
        rw [if_pos h2, if_pos h3, h4, List.getD_cons_succ]
      · have h3 : ¬ (k ≤ j ∧ j < k + (l.length + 1)) := by omega
        rw [if_neg h2, if_neg h3, if_neg h]

theorem get_clear (d : α) (m : Sparse α) (a b j : Nat) : get d (clear m a b) j = if a ≤ j ∧ j < b then d else get d m j := by
  induction m with
  | nil => simp [clear, get]
  | cons e m ih =>
    obtain ⟨i, w⟩ := e
    simp only [clear, List.filter_cons] at ih ⊢
    by_cases hi : i < a ∨ b ≤ i
    · simp only [Bool.or_eq_true, decide_eq_true_eq, hi, if_true, get, ih]
      by_cases h : i = j
      · subst h; rw [if_pos rfl, if_pos rfl, if_neg (by omega)]
      · simp [h]
    · simp only [Bool.or_eq_true, decide_eq_true_eq, hi, if_false, ih, get]
      by_cases h : i = j
      · subst h; rw [if_pos (by omega), if_pos (by omega)]
      · simp [h]

/-! ### The canonical form -/

theorem wf_nil (d : α) : wf d ([] : Sparse α) := ⟨List.Pairwise.nil, by simp⟩

theorem wf_erase {d : α} {m : Sparse α} (h : wf d m) (k : Nat) : wf d (erase m k) :=
  ⟨h.1.filter _, fun e he => h.2 e (List.mem_filter.1 he).1⟩

theorem wf_clear {d : α} {m : Sparse α} (h : wf d m) (a b : Nat) : wf d (clear m a b) :=
  ⟨h.1.filter _, fun e he => h.2 e (List.mem_filter.1 he).1⟩

theorem mem_insert {m : Sparse α} {k : Nat} {v : α} {e : Nat × α} (h : e ∈ insert m k v) : e = (k, v) ∨ e ∈ m := by
  induction m with
  | nil => simpa [insert] using h
  | cons x m ih =>
    obtain ⟨j, w⟩ := x
    simp only [insert] at h
    split at h
    · simpa using h
    · split at h
      · rcases List.mem_cons.1 h with h | h
        · exact .inl h
        · exact .inr (List.mem_cons_of_mem _ h)
      · rcases List.mem_cons.1 h with h | h
        · exact .inr (h ▸ List.mem_cons_self)
        · exact (ih h).imp id (List.mem_cons_of_mem _)

theorem wf_insert {d : α} {m : Sparse α} (h : wf d m) (k : Nat) {v : α} (hv : v ≠ d) : wf d (insert m k v) := by
  refine ⟨?_, fun e he => ?_⟩
  · have hp := h.1
    clear h hv
    induction m with
    | nil => simp [insert]
    | cons x m ih =>
      obtain ⟨j, w⟩ := x
      have hm := List.pairwise_cons.1 hp
      simp only [insert]
      split
      · refine List.pairwise_cons.2 ⟨fun e he => ?_, hp⟩
        rcases List.mem_cons.1 he with rfl | he
        · assumption
        · exact Nat.lt_trans (by assumption) (hm.1 e he)
      · split
        · subst_vars; exact List.pairwise_cons.2 ⟨hm.1, hm.2⟩
        · refine List.pairwise_cons.2 ⟨fun e he => ?_, ih hm.2⟩
          rcases mem_insert he with rfl | he
          · simp only; omega
          · exact hm.1 e he
  · rcases mem_insert he with rfl | he
    · exact hv
    · exact h.2 e he

/-- A write keeps the canonical form. -/
theorem wf_set [DecidableEq α] {d : α} {m : Sparse α} (h : wf d m) (k : Nat) (v : α) : wf d (set d m k v) := by
  unfold set
  split
  · exact wf_erase h k
  · exact wf_insert h k (by assumption)

theorem wf_setList [DecidableEq α] {d : α} (l : List α) {m : Sparse α} (h : wf d m) (k : Nat) : wf d (setList d m k l) := by
  induction l generalizing m k with
  | nil => exact h
  | cons v l ih => exact ih (wf_set h k v) (k + 1)

/-- Two canonical maps that read alike everywhere are equal. -/
theorem get_of_mem {d : α} {m : Sparse α} (h : m.Pairwise (fun a b => a.1 < b.1)) {k : Nat} {v : α} (hm : (k, v) ∈ m) :
    get d m k = v := by
  induction m with
  | nil => cases hm
  | cons x m ih =>
    obtain ⟨j, w⟩ := x
    have hp := List.pairwise_cons.1 h
    simp only [get]
    rcases List.mem_cons.1 hm with h1 | h1
    · cases h1; simp
    · have h2 := hp.1 _ h1
      simp only at h2
      rw [if_neg (by omega)]
      exact ih hp.2 h1

end Sys2Proof.Sparse
end

