-- ==== Sys2Proof/Laws/State.lean ====
section
/-! SUPPORT. Fields of the state after an update: one lemma per field that an update leaves alone, and what a unit reads as after a
write of it or of another. -/

namespace Sys2Proof.Machine

/-! ### A unit read back -/

@[simp] theorem State.setCore_core (s : State) (n m : Nat) (k : Core) :
    (s.setCore n k).core m = if m = n then k else s.core m := Sparse.get_set _ _ _ _ _
@[simp] theorem State.updCore_core (s : State) (n m : Nat) (f : Core → Core) :
    (s.updCore n f).core m = if m = n then f (s.core n) else s.core m := Sparse.get_set _ _ _ _ _
@[simp] theorem State.setCluster_cluster (s : State) (n m : Nat) (k : Cluster) :
    (s.setCluster n k).cluster m = if m = n then k else s.cluster m := Sparse.get_set _ _ _ _ _
@[simp] theorem State.updCluster_cluster (s : State) (n m : Nat) (f : Cluster → Cluster) :
    (s.updCluster n f).cluster m = if m = n then f (s.cluster n) else s.cluster m := Sparse.get_set _ _ _ _ _
@[simp] theorem State.setDie_die (s : State) (n m : Nat) (k : Die) :
    (s.setDie n k).die m = if m = n then k else s.die m := Sparse.get_set _ _ _ _ _
@[simp] theorem State.updDie_die (s : State) (n m : Nat) (f : Die → Die) :
    (s.updDie n f).die m = if m = n then f (s.die n) else s.die m := Sparse.get_set _ _ _ _ _
@[simp] theorem State.setGate_gate (s : State) (n m : Nat) (k : Gate) :
    (s.setGate n k).gate m = if m = n then k else s.gate m := Sparse.get_set _ _ _ _ _
@[simp] theorem State.updGate_gate (s : State) (n m : Nat) (f : Gate → Gate) :
    (s.updGate n f).gate m = if m = n then f (s.gate n) else s.gate m := Sparse.get_set _ _ _ _ _
@[simp] theorem State.setPort_port (s : State) (n m : Nat) (k : Port) :
    (s.setPort n k).port m = if m = n then k else s.port m := Sparse.get_set _ _ _ _ _
@[simp] theorem State.updPort_port (s : State) (n m : Nat) (f : Port → Port) :
    (s.updPort n f).port m = if m = n then f (s.port n) else s.port m := Sparse.get_set _ _ _ _ _
@[simp] theorem State.setPartn_partn (s : State) (n m : Nat) (k : Partition) :
    (s.setPartn n k).partn m = if m = n then k else s.partn m := Sparse.get_set _ _ _ _ _
@[simp] theorem State.updPartn_partn (s : State) (n m : Nat) (f : Partition → Partition) :
    (s.updPartn n f).partn m = if m = n then f (s.partn n) else s.partn m := Sparse.get_set _ _ _ _ _
@[simp] theorem State.setCore_cluster (s : State) (n m : Nat) (k : Core) : (s.setCore n k).cluster m = s.cluster m := rfl
@[simp] theorem State.updCore_cluster (s : State) (n m : Nat) (f : Core → Core) : (s.updCore n f).cluster m = s.cluster m := rfl
@[simp] theorem State.setCore_die (s : State) (n m : Nat) (k : Core) : (s.setCore n k).die m = s.die m := rfl
@[simp] theorem State.updCore_die (s : State) (n m : Nat) (f : Core → Core) : (s.updCore n f).die m = s.die m := rfl
@[simp] theorem State.setCore_gate (s : State) (n m : Nat) (k : Core) : (s.setCore n k).gate m = s.gate m := rfl
@[simp] theorem State.updCore_gate (s : State) (n m : Nat) (f : Core → Core) : (s.updCore n f).gate m = s.gate m := rfl
@[simp] theorem State.setCore_port (s : State) (n m : Nat) (k : Core) : (s.setCore n k).port m = s.port m := rfl
@[simp] theorem State.updCore_port (s : State) (n m : Nat) (f : Core → Core) : (s.updCore n f).port m = s.port m := rfl
@[simp] theorem State.setCore_partn (s : State) (n m : Nat) (k : Core) : (s.setCore n k).partn m = s.partn m := rfl
@[simp] theorem State.updCore_partn (s : State) (n m : Nat) (f : Core → Core) : (s.updCore n f).partn m = s.partn m := rfl
@[simp] theorem State.setCluster_core (s : State) (n m : Nat) (k : Cluster) : (s.setCluster n k).core m = s.core m := rfl
@[simp] theorem State.updCluster_core (s : State) (n m : Nat) (f : Cluster → Cluster) : (s.updCluster n f).core m = s.core m := rfl
@[simp] theorem State.setCluster_die (s : State) (n m : Nat) (k : Cluster) : (s.setCluster n k).die m = s.die m := rfl
@[simp] theorem State.updCluster_die (s : State) (n m : Nat) (f : Cluster → Cluster) : (s.updCluster n f).die m = s.die m := rfl
@[simp] theorem State.setCluster_gate (s : State) (n m : Nat) (k : Cluster) : (s.setCluster n k).gate m = s.gate m := rfl
@[simp] theorem State.updCluster_gate (s : State) (n m : Nat) (f : Cluster → Cluster) : (s.updCluster n f).gate m = s.gate m := rfl
@[simp] theorem State.setCluster_port (s : State) (n m : Nat) (k : Cluster) : (s.setCluster n k).port m = s.port m := rfl
@[simp] theorem State.updCluster_port (s : State) (n m : Nat) (f : Cluster → Cluster) : (s.updCluster n f).port m = s.port m := rfl
@[simp] theorem State.setCluster_partn (s : State) (n m : Nat) (k : Cluster) : (s.setCluster n k).partn m = s.partn m := rfl
@[simp] theorem State.updCluster_partn (s : State) (n m : Nat) (f : Cluster → Cluster) : (s.updCluster n f).partn m = s.partn m := rfl
@[simp] theorem State.setDie_core (s : State) (n m : Nat) (k : Die) : (s.setDie n k).core m = s.core m := rfl
@[simp] theorem State.updDie_core (s : State) (n m : Nat) (f : Die → Die) : (s.updDie n f).core m = s.core m := rfl
@[simp] theorem State.setDie_cluster (s : State) (n m : Nat) (k : Die) : (s.setDie n k).cluster m = s.cluster m := rfl
@[simp] theorem State.updDie_cluster (s : State) (n m : Nat) (f : Die → Die) : (s.updDie n f).cluster m = s.cluster m := rfl
@[simp] theorem State.setDie_gate (s : State) (n m : Nat) (k : Die) : (s.setDie n k).gate m = s.gate m := rfl
@[simp] theorem State.updDie_gate (s : State) (n m : Nat) (f : Die → Die) : (s.updDie n f).gate m = s.gate m := rfl
@[simp] theorem State.setDie_port (s : State) (n m : Nat) (k : Die) : (s.setDie n k).port m = s.port m := rfl
@[simp] theorem State.updDie_port (s : State) (n m : Nat) (f : Die → Die) : (s.updDie n f).port m = s.port m := rfl
@[simp] theorem State.setDie_partn (s : State) (n m : Nat) (k : Die) : (s.setDie n k).partn m = s.partn m := rfl
@[simp] theorem State.updDie_partn (s : State) (n m : Nat) (f : Die → Die) : (s.updDie n f).partn m = s.partn m := rfl
@[simp] theorem State.setGate_core (s : State) (n m : Nat) (k : Gate) : (s.setGate n k).core m = s.core m := rfl
@[simp] theorem State.updGate_core (s : State) (n m : Nat) (f : Gate → Gate) : (s.updGate n f).core m = s.core m := rfl
@[simp] theorem State.setGate_cluster (s : State) (n m : Nat) (k : Gate) : (s.setGate n k).cluster m = s.cluster m := rfl
@[simp] theorem State.updGate_cluster (s : State) (n m : Nat) (f : Gate → Gate) : (s.updGate n f).cluster m = s.cluster m := rfl
@[simp] theorem State.setGate_die (s : State) (n m : Nat) (k : Gate) : (s.setGate n k).die m = s.die m := rfl
@[simp] theorem State.updGate_die (s : State) (n m : Nat) (f : Gate → Gate) : (s.updGate n f).die m = s.die m := rfl
@[simp] theorem State.setGate_port (s : State) (n m : Nat) (k : Gate) : (s.setGate n k).port m = s.port m := rfl
@[simp] theorem State.updGate_port (s : State) (n m : Nat) (f : Gate → Gate) : (s.updGate n f).port m = s.port m := rfl
@[simp] theorem State.setGate_partn (s : State) (n m : Nat) (k : Gate) : (s.setGate n k).partn m = s.partn m := rfl
@[simp] theorem State.updGate_partn (s : State) (n m : Nat) (f : Gate → Gate) : (s.updGate n f).partn m = s.partn m := rfl
@[simp] theorem State.setPort_core (s : State) (n m : Nat) (k : Port) : (s.setPort n k).core m = s.core m := rfl
@[simp] theorem State.updPort_core (s : State) (n m : Nat) (f : Port → Port) : (s.updPort n f).core m = s.core m := rfl
@[simp] theorem State.setPort_cluster (s : State) (n m : Nat) (k : Port) : (s.setPort n k).cluster m = s.cluster m := rfl
@[simp] theorem State.updPort_cluster (s : State) (n m : Nat) (f : Port → Port) : (s.updPort n f).cluster m = s.cluster m := rfl
@[simp] theorem State.setPort_die (s : State) (n m : Nat) (k : Port) : (s.setPort n k).die m = s.die m := rfl
@[simp] theorem State.updPort_die (s : State) (n m : Nat) (f : Port → Port) : (s.updPort n f).die m = s.die m := rfl
@[simp] theorem State.setPort_gate (s : State) (n m : Nat) (k : Port) : (s.setPort n k).gate m = s.gate m := rfl
@[simp] theorem State.updPort_gate (s : State) (n m : Nat) (f : Port → Port) : (s.updPort n f).gate m = s.gate m := rfl
@[simp] theorem State.setPort_partn (s : State) (n m : Nat) (k : Port) : (s.setPort n k).partn m = s.partn m := rfl
@[simp] theorem State.updPort_partn (s : State) (n m : Nat) (f : Port → Port) : (s.updPort n f).partn m = s.partn m := rfl
@[simp] theorem State.setPartn_core (s : State) (n m : Nat) (k : Partition) : (s.setPartn n k).core m = s.core m := rfl
@[simp] theorem State.updPartn_core (s : State) (n m : Nat) (f : Partition → Partition) : (s.updPartn n f).core m = s.core m := rfl
@[simp] theorem State.setPartn_cluster (s : State) (n m : Nat) (k : Partition) : (s.setPartn n k).cluster m = s.cluster m := rfl
@[simp] theorem State.updPartn_cluster (s : State) (n m : Nat) (f : Partition → Partition) : (s.updPartn n f).cluster m = s.cluster m := rfl
@[simp] theorem State.setPartn_die (s : State) (n m : Nat) (k : Partition) : (s.setPartn n k).die m = s.die m := rfl
@[simp] theorem State.updPartn_die (s : State) (n m : Nat) (f : Partition → Partition) : (s.updPartn n f).die m = s.die m := rfl
@[simp] theorem State.setPartn_gate (s : State) (n m : Nat) (k : Partition) : (s.setPartn n k).gate m = s.gate m := rfl
@[simp] theorem State.updPartn_gate (s : State) (n m : Nat) (f : Partition → Partition) : (s.updPartn n f).gate m = s.gate m := rfl
@[simp] theorem State.setPartn_port (s : State) (n m : Nat) (k : Partition) : (s.setPartn n k).port m = s.port m := rfl
@[simp] theorem State.updPartn_port (s : State) (n m : Nat) (f : Partition → Partition) : (s.updPartn n f).port m = s.port m := rfl

@[simp] theorem State.updR_regs (s : State) (c d : Nat) (f : CoreRegs → CoreRegs) :
    (s.updR c f).regs d = if d = c then f (s.regs c) else s.regs d := by
  unfold State.updR State.regs
  rw [State.updCore_core]
  split <;> rfl
@[simp] theorem State.setSlot_slot (s : State) (d n e m : Nat) (v : Slot) :
    (s.setSlot d n v).slot e m = if e = d ∧ m = n then v else s.slot e m := by
  unfold State.setSlot State.slot
  rw [State.updDie_die]
  by_cases h : e = d
  · subst h; simp [Sparse.get_set]
  · simp [h]
@[simp] theorem State.setQueue_queue (s : State) (d p q e m r : Nat) (v : Queue) (h : 8 * p + q ≠ 8 * m + r ∨ (p = m ∧ q = r)) :
    (s.setQueue d p q v).queue e m r = if e = d ∧ p = m ∧ q = r then v else s.queue e m r := by
  unfold State.setQueue State.queue
  rw [State.updDie_die]
  by_cases he : e = d
  · subst he
    rcases h with h | ⟨rfl, rfl⟩
    · have h1 : ¬ (p = m ∧ q = r) := by rintro ⟨rfl, rfl⟩; exact h rfl
      have h2 : ¬ 8 * m + r = 8 * p + q := fun x => h x.symm
      simp [Sparse.get_set, h1, h2]
    · simp
  · simp [he]

/-! ### Registers -/

@[simp] theorem CoreRegs.setW_d (r : CoreRegs) (n : Reg) (v : Word) : (r.setW n v).d = r.d := rfl
@[simp] theorem CoreRegs.setW_k (r : CoreRegs) (n : Reg) (v : Word) : (r.setW n v).k = r.k := rfl
@[simp] theorem CoreRegs.setW_sp (r : CoreRegs) (n : Reg) (v : Word) : (r.setW n v).sp = r.sp := rfl
@[simp] theorem CoreRegs.setW_ctl (r : CoreRegs) (n : Reg) (v : Word) : (r.setW n v).ctl = r.ctl := rfl
@[simp] theorem CoreRegs.setW_cnt (r : CoreRegs) (n : Reg) (v : Word) : (r.setW n v).cnt = r.cnt := rfl
@[simp] theorem CoreRegs.setW_shadow (r : CoreRegs) (n : Reg) (v : Word) : (r.setW n v).shadow = r.shadow := rfl
@[simp] theorem CoreRegs.setW_frames (r : CoreRegs) (n : Reg) (v : Word) : (r.setW n v).frames = r.frames := rfl
@[simp] theorem CoreRegs.setD_w (r : CoreRegs) (x : DReg) (v : Int) : (r.setD x v).w = r.w := rfl
@[simp] theorem CoreRegs.setD_k (r : CoreRegs) (x : DReg) (v : Int) : (r.setD x v).k = r.k := rfl
@[simp] theorem CoreRegs.setD_sp (r : CoreRegs) (x : DReg) (v : Int) : (r.setD x v).sp = r.sp := rfl
@[simp] theorem CoreRegs.setD_ctl (r : CoreRegs) (x : DReg) (v : Int) : (r.setD x v).ctl = r.ctl := rfl
@[simp] theorem CoreRegs.setD_frames (r : CoreRegs) (x : DReg) (v : Int) : (r.setD x v).frames = r.frames := rfl
@[simp] theorem CoreRegs.setCap_w (r : CoreRegs) (n : Nat) (v : Cap) : (r.setCap n v).w = r.w := rfl
@[simp] theorem CoreRegs.setCap_d (r : CoreRegs) (n : Nat) (v : Cap) : (r.setCap n v).d = r.d := rfl
@[simp] theorem CoreRegs.setCap_sp (r : CoreRegs) (n : Nat) (v : Cap) : (r.setCap n v).sp = r.sp := rfl
@[simp] theorem CoreRegs.setCap_ctl (r : CoreRegs) (n : Nat) (v : Cap) : (r.setCap n v).ctl = r.ctl := rfl
@[simp] theorem CoreRegs.setCap_frames (r : CoreRegs) (n : Nat) (v : Cap) : (r.setCap n v).frames = r.frames := rfl

/-- A word register read back: another register of the active bank keeps its value. -/
@[simp] theorem CoreRegs.setW_wr (r : CoreRegs) (n m : Reg) (v : Word) : (r.setW n v).wr m = if m = n then v else r.wr m := by
  unfold CoreRegs.setW CoreRegs.wr
  rw [Sparse.get_set]
  have h : (CoreRegs.wKey { r with w := Sparse.set 0 r.w (r.wKey n) v } m = r.wKey n) = (m = n) := by
    have hn := n.isLt
    have hm := m.isLt
    simp only [CoreRegs.wKey, eq_iff_iff, Fin.ext_iff]
    by_cases hb : r.ctl.bk1 = true <;> by_cases h1 : 24 ≤ m.val <;> by_cases h2 : 24 ≤ n.val <;>
      simp only [hb, h1, h2, decide_true, decide_false, Bool.and_true, Bool.and_false, if_true, if_false, Bool.false_eq_true] <;>
      omega
  simp only [h]
  rfl
@[simp] theorem CoreRegs.setD_dr (r : CoreRegs) (x y : DReg) (v : Int) : (r.setD x v).dr y = if y = x then v else r.dr y := by
  unfold CoreRegs.setD CoreRegs.dr
  rw [Sparse.get_set]
  simp only [Fin.ext_iff]
@[simp] theorem CoreRegs.setCap_cap (r : CoreRegs) (n m : Nat) (v : Cap) : (r.setCap n v).cap m = if m = n then v else r.cap m :=
  Sparse.get_set _ _ _ _ _

/-! ### Fields that an update leaves alone -/

@[simp] theorem State.setCore_pending (s : State) (n : Nat) (k : Core) : (s.setCore n k).pending = s.pending := rfl
@[simp] theorem State.setCore_h (s : State) (n : Nat) (k : Core) : (s.setCore n k).h = s.h := rfl
@[simp] theorem State.setCore_accesses (s : State) (n : Nat) (k : Core) : (s.setCore n k).accesses = s.accesses := rfl
@[simp] theorem State.setCore_nextId (s : State) (n : Nat) (k : Core) : (s.setCore n k).nextId = s.nextId := rfl
@[simp] theorem State.setCore_msgs (s : State) (n : Nat) (k : Core) : (s.setCore n k).msgs = s.msgs := rfl
@[simp] theorem State.setCore_sent (s : State) (n : Nat) (k : Core) : (s.setCore n k).sent = s.sent := rfl
@[simp] theorem State.setCore_free (s : State) (n : Nat) (k : Core) : (s.setCore n k).free = s.free := rfl
@[simp] theorem State.setCore_u_clusters (s : State) (n : Nat) (k : Core) : (s.setCore n k).u.clusters = s.u.clusters := rfl
@[simp] theorem State.setCore_u_dies (s : State) (n : Nat) (k : Core) : (s.setCore n k).u.dies = s.u.dies := rfl
@[simp] theorem State.setCore_u_gates (s : State) (n : Nat) (k : Core) : (s.setCore n k).u.gates = s.u.gates := rfl
@[simp] theorem State.setCore_u_ports (s : State) (n : Nat) (k : Core) : (s.setCore n k).u.ports = s.u.ports := rfl
@[simp] theorem State.setCore_u_parts (s : State) (n : Nat) (k : Core) : (s.setCore n k).u.parts = s.u.parts := rfl
@[simp] theorem State.updCore_pending (s : State) (n : Nat) (f : Core → Core) : (s.updCore n f).pending = s.pending := rfl
@[simp] theorem State.updCore_h (s : State) (n : Nat) (f : Core → Core) : (s.updCore n f).h = s.h := rfl
@[simp] theorem State.updCore_accesses (s : State) (n : Nat) (f : Core → Core) : (s.updCore n f).accesses = s.accesses := rfl
@[simp] theorem State.updCore_nextId (s : State) (n : Nat) (f : Core → Core) : (s.updCore n f).nextId = s.nextId := rfl
@[simp] theorem State.updCore_msgs (s : State) (n : Nat) (f : Core → Core) : (s.updCore n f).msgs = s.msgs := rfl
@[simp] theorem State.updCore_sent (s : State) (n : Nat) (f : Core → Core) : (s.updCore n f).sent = s.sent := rfl
@[simp] theorem State.updCore_free (s : State) (n : Nat) (f : Core → Core) : (s.updCore n f).free = s.free := rfl
@[simp] theorem State.updCore_u_clusters (s : State) (n : Nat) (f : Core → Core) : (s.updCore n f).u.clusters = s.u.clusters := rfl
@[simp] theorem State.updCore_u_dies (s : State) (n : Nat) (f : Core → Core) : (s.updCore n f).u.dies = s.u.dies := rfl
@[simp] theorem State.updCore_u_gates (s : State) (n : Nat) (f : Core → Core) : (s.updCore n f).u.gates = s.u.gates := rfl
@[simp] theorem State.updCore_u_ports (s : State) (n : Nat) (f : Core → Core) : (s.updCore n f).u.ports = s.u.ports := rfl
@[simp] theorem State.updCore_u_parts (s : State) (n : Nat) (f : Core → Core) : (s.updCore n f).u.parts = s.u.parts := rfl
@[simp] theorem State.setCluster_pending (s : State) (n : Nat) (k : Cluster) : (s.setCluster n k).pending = s.pending := rfl
@[simp] theorem State.setCluster_h (s : State) (n : Nat) (k : Cluster) : (s.setCluster n k).h = s.h := rfl
@[simp] theorem State.setCluster_accesses (s : State) (n : Nat) (k : Cluster) : (s.setCluster n k).accesses = s.accesses := rfl
@[simp] theorem State.setCluster_nextId (s : State) (n : Nat) (k : Cluster) : (s.setCluster n k).nextId = s.nextId := rfl
@[simp] theorem State.setCluster_msgs (s : State) (n : Nat) (k : Cluster) : (s.setCluster n k).msgs = s.msgs := rfl
@[simp] theorem State.setCluster_sent (s : State) (n : Nat) (k : Cluster) : (s.setCluster n k).sent = s.sent := rfl
@[simp] theorem State.setCluster_free (s : State) (n : Nat) (k : Cluster) : (s.setCluster n k).free = s.free := rfl
@[simp] theorem State.setCluster_u_cores (s : State) (n : Nat) (k : Cluster) : (s.setCluster n k).u.cores = s.u.cores := rfl
@[simp] theorem State.setCluster_u_dies (s : State) (n : Nat) (k : Cluster) : (s.setCluster n k).u.dies = s.u.dies := rfl
@[simp] theorem State.setCluster_u_gates (s : State) (n : Nat) (k : Cluster) : (s.setCluster n k).u.gates = s.u.gates := rfl
@[simp] theorem State.setCluster_u_ports (s : State) (n : Nat) (k : Cluster) : (s.setCluster n k).u.ports = s.u.ports := rfl
@[simp] theorem State.setCluster_u_parts (s : State) (n : Nat) (k : Cluster) : (s.setCluster n k).u.parts = s.u.parts := rfl
@[simp] theorem State.updCluster_pending (s : State) (n : Nat) (f : Cluster → Cluster) : (s.updCluster n f).pending = s.pending := rfl
@[simp] theorem State.updCluster_h (s : State) (n : Nat) (f : Cluster → Cluster) : (s.updCluster n f).h = s.h := rfl
@[simp] theorem State.updCluster_accesses (s : State) (n : Nat) (f : Cluster → Cluster) : (s.updCluster n f).accesses = s.accesses := rfl
@[simp] theorem State.updCluster_nextId (s : State) (n : Nat) (f : Cluster → Cluster) : (s.updCluster n f).nextId = s.nextId := rfl
@[simp] theorem State.updCluster_msgs (s : State) (n : Nat) (f : Cluster → Cluster) : (s.updCluster n f).msgs = s.msgs := rfl
@[simp] theorem State.updCluster_sent (s : State) (n : Nat) (f : Cluster → Cluster) : (s.updCluster n f).sent = s.sent := rfl
@[simp] theorem State.updCluster_free (s : State) (n : Nat) (f : Cluster → Cluster) : (s.updCluster n f).free = s.free := rfl
@[simp] theorem State.updCluster_u_cores (s : State) (n : Nat) (f : Cluster → Cluster) : (s.updCluster n f).u.cores = s.u.cores := rfl
@[simp] theorem State.updCluster_u_dies (s : State) (n : Nat) (f : Cluster → Cluster) : (s.updCluster n f).u.dies = s.u.dies := rfl
@[simp] theorem State.updCluster_u_gates (s : State) (n : Nat) (f : Cluster → Cluster) : (s.updCluster n f).u.gates = s.u.gates := rfl
@[simp] theorem State.updCluster_u_ports (s : State) (n : Nat) (f : Cluster → Cluster) : (s.updCluster n f).u.ports = s.u.ports := rfl
@[simp] theorem State.updCluster_u_parts (s : State) (n : Nat) (f : Cluster → Cluster) : (s.updCluster n f).u.parts = s.u.parts := rfl
@[simp] theorem State.setDie_pending (s : State) (n : Nat) (k : Die) : (s.setDie n k).pending = s.pending := rfl
@[simp] theorem State.setDie_h (s : State) (n : Nat) (k : Die) : (s.setDie n k).h = s.h := rfl
@[simp] theorem State.setDie_accesses (s : State) (n : Nat) (k : Die) : (s.setDie n k).accesses = s.accesses := rfl
@[simp] theorem State.setDie_nextId (s : State) (n : Nat) (k : Die) : (s.setDie n k).nextId = s.nextId := rfl
@[simp] theorem State.setDie_msgs (s : State) (n : Nat) (k : Die) : (s.setDie n k).msgs = s.msgs := rfl
@[simp] theorem State.setDie_sent (s : State) (n : Nat) (k : Die) : (s.setDie n k).sent = s.sent := rfl
@[simp] theorem State.setDie_free (s : State) (n : Nat) (k : Die) : (s.setDie n k).free = s.free := rfl
@[simp] theorem State.setDie_u_cores (s : State) (n : Nat) (k : Die) : (s.setDie n k).u.cores = s.u.cores := rfl
@[simp] theorem State.setDie_u_clusters (s : State) (n : Nat) (k : Die) : (s.setDie n k).u.clusters = s.u.clusters := rfl
@[simp] theorem State.setDie_u_gates (s : State) (n : Nat) (k : Die) : (s.setDie n k).u.gates = s.u.gates := rfl
@[simp] theorem State.setDie_u_ports (s : State) (n : Nat) (k : Die) : (s.setDie n k).u.ports = s.u.ports := rfl
@[simp] theorem State.setDie_u_parts (s : State) (n : Nat) (k : Die) : (s.setDie n k).u.parts = s.u.parts := rfl
@[simp] theorem State.updDie_pending (s : State) (n : Nat) (f : Die → Die) : (s.updDie n f).pending = s.pending := rfl
@[simp] theorem State.updDie_h (s : State) (n : Nat) (f : Die → Die) : (s.updDie n f).h = s.h := rfl
@[simp] theorem State.updDie_accesses (s : State) (n : Nat) (f : Die → Die) : (s.updDie n f).accesses = s.accesses := rfl
@[simp] theorem State.updDie_nextId (s : State) (n : Nat) (f : Die → Die) : (s.updDie n f).nextId = s.nextId := rfl
@[simp] theorem State.updDie_msgs (s : State) (n : Nat) (f : Die → Die) : (s.updDie n f).msgs = s.msgs := rfl
@[simp] theorem State.updDie_sent (s : State) (n : Nat) (f : Die → Die) : (s.updDie n f).sent = s.sent := rfl
@[simp] theorem State.updDie_free (s : State) (n : Nat) (f : Die → Die) : (s.updDie n f).free = s.free := rfl
@[simp] theorem State.updDie_u_cores (s : State) (n : Nat) (f : Die → Die) : (s.updDie n f).u.cores = s.u.cores := rfl
@[simp] theorem State.updDie_u_clusters (s : State) (n : Nat) (f : Die → Die) : (s.updDie n f).u.clusters = s.u.clusters := rfl
@[simp] theorem State.updDie_u_gates (s : State) (n : Nat) (f : Die → Die) : (s.updDie n f).u.gates = s.u.gates := rfl
@[simp] theorem State.updDie_u_ports (s : State) (n : Nat) (f : Die → Die) : (s.updDie n f).u.ports = s.u.ports := rfl
@[simp] theorem State.updDie_u_parts (s : State) (n : Nat) (f : Die → Die) : (s.updDie n f).u.parts = s.u.parts := rfl
@[simp] theorem State.setGate_pending (s : State) (n : Nat) (k : Gate) : (s.setGate n k).pending = s.pending := rfl
@[simp] theorem State.setGate_h (s : State) (n : Nat) (k : Gate) : (s.setGate n k).h = s.h := rfl
@[simp] theorem State.setGate_accesses (s : State) (n : Nat) (k : Gate) : (s.setGate n k).accesses = s.accesses := rfl
@[simp] theorem State.setGate_nextId (s : State) (n : Nat) (k : Gate) : (s.setGate n k).nextId = s.nextId := rfl
@[simp] theorem State.setGate_msgs (s : State) (n : Nat) (k : Gate) : (s.setGate n k).msgs = s.msgs := rfl
@[simp] theorem State.setGate_sent (s : State) (n : Nat) (k : Gate) : (s.setGate n k).sent = s.sent := rfl
@[simp] theorem State.setGate_free (s : State) (n : Nat) (k : Gate) : (s.setGate n k).free = s.free := rfl
@[simp] theorem State.setGate_u_cores (s : State) (n : Nat) (k : Gate) : (s.setGate n k).u.cores = s.u.cores := rfl
@[simp] theorem State.setGate_u_clusters (s : State) (n : Nat) (k : Gate) : (s.setGate n k).u.clusters = s.u.clusters := rfl
@[simp] theorem State.setGate_u_dies (s : State) (n : Nat) (k : Gate) : (s.setGate n k).u.dies = s.u.dies := rfl
@[simp] theorem State.setGate_u_ports (s : State) (n : Nat) (k : Gate) : (s.setGate n k).u.ports = s.u.ports := rfl
@[simp] theorem State.setGate_u_parts (s : State) (n : Nat) (k : Gate) : (s.setGate n k).u.parts = s.u.parts := rfl
@[simp] theorem State.updGate_pending (s : State) (n : Nat) (f : Gate → Gate) : (s.updGate n f).pending = s.pending := rfl
@[simp] theorem State.updGate_h (s : State) (n : Nat) (f : Gate → Gate) : (s.updGate n f).h = s.h := rfl
@[simp] theorem State.updGate_accesses (s : State) (n : Nat) (f : Gate → Gate) : (s.updGate n f).accesses = s.accesses := rfl
@[simp] theorem State.updGate_nextId (s : State) (n : Nat) (f : Gate → Gate) : (s.updGate n f).nextId = s.nextId := rfl
@[simp] theorem State.updGate_msgs (s : State) (n : Nat) (f : Gate → Gate) : (s.updGate n f).msgs = s.msgs := rfl
@[simp] theorem State.updGate_sent (s : State) (n : Nat) (f : Gate → Gate) : (s.updGate n f).sent = s.sent := rfl
@[simp] theorem State.updGate_free (s : State) (n : Nat) (f : Gate → Gate) : (s.updGate n f).free = s.free := rfl
@[simp] theorem State.updGate_u_cores (s : State) (n : Nat) (f : Gate → Gate) : (s.updGate n f).u.cores = s.u.cores := rfl
@[simp] theorem State.updGate_u_clusters (s : State) (n : Nat) (f : Gate → Gate) : (s.updGate n f).u.clusters = s.u.clusters := rfl
@[simp] theorem State.updGate_u_dies (s : State) (n : Nat) (f : Gate → Gate) : (s.updGate n f).u.dies = s.u.dies := rfl
@[simp] theorem State.updGate_u_ports (s : State) (n : Nat) (f : Gate → Gate) : (s.updGate n f).u.ports = s.u.ports := rfl
@[simp] theorem State.updGate_u_parts (s : State) (n : Nat) (f : Gate → Gate) : (s.updGate n f).u.parts = s.u.parts := rfl
@[simp] theorem State.setPort_pending (s : State) (n : Nat) (k : Port) : (s.setPort n k).pending = s.pending := rfl
@[simp] theorem State.setPort_h (s : State) (n : Nat) (k : Port) : (s.setPort n k).h = s.h := rfl
@[simp] theorem State.setPort_accesses (s : State) (n : Nat) (k : Port) : (s.setPort n k).accesses = s.accesses := rfl
@[simp] theorem State.setPort_nextId (s : State) (n : Nat) (k : Port) : (s.setPort n k).nextId = s.nextId := rfl
@[simp] theorem State.setPort_msgs (s : State) (n : Nat) (k : Port) : (s.setPort n k).msgs = s.msgs := rfl
@[simp] theorem State.setPort_sent (s : State) (n : Nat) (k : Port) : (s.setPort n k).sent = s.sent := rfl
@[simp] theorem State.setPort_free (s : State) (n : Nat) (k : Port) : (s.setPort n k).free = s.free := rfl
@[simp] theorem State.setPort_u_cores (s : State) (n : Nat) (k : Port) : (s.setPort n k).u.cores = s.u.cores := rfl
@[simp] theorem State.setPort_u_clusters (s : State) (n : Nat) (k : Port) : (s.setPort n k).u.clusters = s.u.clusters := rfl
@[simp] theorem State.setPort_u_dies (s : State) (n : Nat) (k : Port) : (s.setPort n k).u.dies = s.u.dies := rfl
@[simp] theorem State.setPort_u_gates (s : State) (n : Nat) (k : Port) : (s.setPort n k).u.gates = s.u.gates := rfl
@[simp] theorem State.setPort_u_parts (s : State) (n : Nat) (k : Port) : (s.setPort n k).u.parts = s.u.parts := rfl
@[simp] theorem State.updPort_pending (s : State) (n : Nat) (f : Port → Port) : (s.updPort n f).pending = s.pending := rfl
@[simp] theorem State.updPort_h (s : State) (n : Nat) (f : Port → Port) : (s.updPort n f).h = s.h := rfl
@[simp] theorem State.updPort_accesses (s : State) (n : Nat) (f : Port → Port) : (s.updPort n f).accesses = s.accesses := rfl
@[simp] theorem State.updPort_nextId (s : State) (n : Nat) (f : Port → Port) : (s.updPort n f).nextId = s.nextId := rfl
@[simp] theorem State.updPort_msgs (s : State) (n : Nat) (f : Port → Port) : (s.updPort n f).msgs = s.msgs := rfl
@[simp] theorem State.updPort_sent (s : State) (n : Nat) (f : Port → Port) : (s.updPort n f).sent = s.sent := rfl
@[simp] theorem State.updPort_free (s : State) (n : Nat) (f : Port → Port) : (s.updPort n f).free = s.free := rfl
@[simp] theorem State.updPort_u_cores (s : State) (n : Nat) (f : Port → Port) : (s.updPort n f).u.cores = s.u.cores := rfl
@[simp] theorem State.updPort_u_clusters (s : State) (n : Nat) (f : Port → Port) : (s.updPort n f).u.clusters = s.u.clusters := rfl
@[simp] theorem State.updPort_u_dies (s : State) (n : Nat) (f : Port → Port) : (s.updPort n f).u.dies = s.u.dies := rfl
@[simp] theorem State.updPort_u_gates (s : State) (n : Nat) (f : Port → Port) : (s.updPort n f).u.gates = s.u.gates := rfl
@[simp] theorem State.updPort_u_parts (s : State) (n : Nat) (f : Port → Port) : (s.updPort n f).u.parts = s.u.parts := rfl
@[simp] theorem State.setPartn_pending (s : State) (n : Nat) (k : Partition) : (s.setPartn n k).pending = s.pending := rfl
@[simp] theorem State.setPartn_h (s : State) (n : Nat) (k : Partition) : (s.setPartn n k).h = s.h := rfl
@[simp] theorem State.setPartn_accesses (s : State) (n : Nat) (k : Partition) : (s.setPartn n k).accesses = s.accesses := rfl
@[simp] theorem State.setPartn_nextId (s : State) (n : Nat) (k : Partition) : (s.setPartn n k).nextId = s.nextId := rfl
@[simp] theorem State.setPartn_msgs (s : State) (n : Nat) (k : Partition) : (s.setPartn n k).msgs = s.msgs := rfl
@[simp] theorem State.setPartn_sent (s : State) (n : Nat) (k : Partition) : (s.setPartn n k).sent = s.sent := rfl
@[simp] theorem State.setPartn_free (s : State) (n : Nat) (k : Partition) : (s.setPartn n k).free = s.free := rfl
@[simp] theorem State.setPartn_u_cores (s : State) (n : Nat) (k : Partition) : (s.setPartn n k).u.cores = s.u.cores := rfl
@[simp] theorem State.setPartn_u_clusters (s : State) (n : Nat) (k : Partition) : (s.setPartn n k).u.clusters = s.u.clusters := rfl
@[simp] theorem State.setPartn_u_dies (s : State) (n : Nat) (k : Partition) : (s.setPartn n k).u.dies = s.u.dies := rfl
@[simp] theorem State.setPartn_u_gates (s : State) (n : Nat) (k : Partition) : (s.setPartn n k).u.gates = s.u.gates := rfl
@[simp] theorem State.setPartn_u_ports (s : State) (n : Nat) (k : Partition) : (s.setPartn n k).u.ports = s.u.ports := rfl
@[simp] theorem State.updPartn_pending (s : State) (n : Nat) (f : Partition → Partition) : (s.updPartn n f).pending = s.pending := rfl
@[simp] theorem State.updPartn_h (s : State) (n : Nat) (f : Partition → Partition) : (s.updPartn n f).h = s.h := rfl
@[simp] theorem State.updPartn_accesses (s : State) (n : Nat) (f : Partition → Partition) : (s.updPartn n f).accesses = s.accesses := rfl
@[simp] theorem State.updPartn_nextId (s : State) (n : Nat) (f : Partition → Partition) : (s.updPartn n f).nextId = s.nextId := rfl
@[simp] theorem State.updPartn_msgs (s : State) (n : Nat) (f : Partition → Partition) : (s.updPartn n f).msgs = s.msgs := rfl
@[simp] theorem State.updPartn_sent (s : State) (n : Nat) (f : Partition → Partition) : (s.updPartn n f).sent = s.sent := rfl
@[simp] theorem State.updPartn_free (s : State) (n : Nat) (f : Partition → Partition) : (s.updPartn n f).free = s.free := rfl
@[simp] theorem State.updPartn_u_cores (s : State) (n : Nat) (f : Partition → Partition) : (s.updPartn n f).u.cores = s.u.cores := rfl
@[simp] theorem State.updPartn_u_clusters (s : State) (n : Nat) (f : Partition → Partition) : (s.updPartn n f).u.clusters = s.u.clusters := rfl
@[simp] theorem State.updPartn_u_dies (s : State) (n : Nat) (f : Partition → Partition) : (s.updPartn n f).u.dies = s.u.dies := rfl
@[simp] theorem State.updPartn_u_gates (s : State) (n : Nat) (f : Partition → Partition) : (s.updPartn n f).u.gates = s.u.gates := rfl
@[simp] theorem State.updPartn_u_ports (s : State) (n : Nat) (f : Partition → Partition) : (s.updPartn n f).u.ports = s.u.ports := rfl
@[simp] theorem State.setSlot_pending (s : State) (d n : Nat) (v : Slot) : (s.setSlot d n v).pending = s.pending := rfl
@[simp] theorem State.setSlot_h (s : State) (d n : Nat) (v : Slot) : (s.setSlot d n v).h = s.h := rfl
@[simp] theorem State.setSlot_accesses (s : State) (d n : Nat) (v : Slot) : (s.setSlot d n v).accesses = s.accesses := rfl
@[simp] theorem State.setSlot_nextId (s : State) (d n : Nat) (v : Slot) : (s.setSlot d n v).nextId = s.nextId := rfl
@[simp] theorem State.setSlot_msgs (s : State) (d n : Nat) (v : Slot) : (s.setSlot d n v).msgs = s.msgs := rfl
@[simp] theorem State.setSlot_sent (s : State) (d n : Nat) (v : Slot) : (s.setSlot d n v).sent = s.sent := rfl
@[simp] theorem State.setSlot_free (s : State) (d n : Nat) (v : Slot) : (s.setSlot d n v).free = s.free := rfl
@[simp] theorem State.setSlot_u_cores (s : State) (d n : Nat) (v : Slot) : (s.setSlot d n v).u.cores = s.u.cores := rfl
@[simp] theorem State.setSlot_u_clusters (s : State) (d n : Nat) (v : Slot) : (s.setSlot d n v).u.clusters = s.u.clusters := rfl
@[simp] theorem State.setSlot_u_gates (s : State) (d n : Nat) (v : Slot) : (s.setSlot d n v).u.gates = s.u.gates := rfl
@[simp] theorem State.setSlot_u_ports (s : State) (d n : Nat) (v : Slot) : (s.setSlot d n v).u.ports = s.u.ports := rfl
@[simp] theorem State.setSlot_u_parts (s : State) (d n : Nat) (v : Slot) : (s.setSlot d n v).u.parts = s.u.parts := rfl
@[simp] theorem State.updSlot_pending (s : State) (d n : Nat) (f : Slot → Slot) : (s.updSlot d n f).pending = s.pending := rfl
@[simp] theorem State.updSlot_h (s : State) (d n : Nat) (f : Slot → Slot) : (s.updSlot d n f).h = s.h := rfl
@[simp] theorem State.updSlot_accesses (s : State) (d n : Nat) (f : Slot → Slot) : (s.updSlot d n f).accesses = s.accesses := rfl
@[simp] theorem State.updSlot_nextId (s : State) (d n : Nat) (f : Slot → Slot) : (s.updSlot d n f).nextId = s.nextId := rfl
@[simp] theorem State.updSlot_msgs (s : State) (d n : Nat) (f : Slot → Slot) : (s.updSlot d n f).msgs = s.msgs := rfl
@[simp] theorem State.updSlot_sent (s : State) (d n : Nat) (f : Slot → Slot) : (s.updSlot d n f).sent = s.sent := rfl
@[simp] theorem State.updSlot_free (s : State) (d n : Nat) (f : Slot → Slot) : (s.updSlot d n f).free = s.free := rfl
@[simp] theorem State.updSlot_u_cores (s : State) (d n : Nat) (f : Slot → Slot) : (s.updSlot d n f).u.cores = s.u.cores := rfl
@[simp] theorem State.updSlot_u_clusters (s : State) (d n : Nat) (f : Slot → Slot) : (s.updSlot d n f).u.clusters = s.u.clusters := rfl
@[simp] theorem State.updSlot_u_gates (s : State) (d n : Nat) (f : Slot → Slot) : (s.updSlot d n f).u.gates = s.u.gates := rfl
@[simp] theorem State.updSlot_u_ports (s : State) (d n : Nat) (f : Slot → Slot) : (s.updSlot d n f).u.ports = s.u.ports := rfl
@[simp] theorem State.updSlot_u_parts (s : State) (d n : Nat) (f : Slot → Slot) : (s.updSlot d n f).u.parts = s.u.parts := rfl
@[simp] theorem State.setQueue_pending (s : State) (d p q : Nat) (v : Queue) : (s.setQueue d p q v).pending = s.pending := rfl
@[simp] theorem State.setQueue_h (s : State) (d p q : Nat) (v : Queue) : (s.setQueue d p q v).h = s.h := rfl
@[simp] theorem State.setQueue_accesses (s : State) (d p q : Nat) (v : Queue) : (s.setQueue d p q v).accesses = s.accesses := rfl
@[simp] theorem State.setQueue_nextId (s : State) (d p q : Nat) (v : Queue) : (s.setQueue d p q v).nextId = s.nextId := rfl
@[simp] theorem State.setQueue_msgs (s : State) (d p q : Nat) (v : Queue) : (s.setQueue d p q v).msgs = s.msgs := rfl
@[simp] theorem State.setQueue_sent (s : State) (d p q : Nat) (v : Queue) : (s.setQueue d p q v).sent = s.sent := rfl
@[simp] theorem State.setQueue_free (s : State) (d p q : Nat) (v : Queue) : (s.setQueue d p q v).free = s.free := rfl
@[simp] theorem State.setQueue_u_cores (s : State) (d p q : Nat) (v : Queue) : (s.setQueue d p q v).u.cores = s.u.cores := rfl
@[simp] theorem State.setQueue_u_clusters (s : State) (d p q : Nat) (v : Queue) : (s.setQueue d p q v).u.clusters = s.u.clusters := rfl
@[simp] theorem State.setQueue_u_gates (s : State) (d p q : Nat) (v : Queue) : (s.setQueue d p q v).u.gates = s.u.gates := rfl
@[simp] theorem State.setQueue_u_ports (s : State) (d p q : Nat) (v : Queue) : (s.setQueue d p q v).u.ports = s.u.ports := rfl
@[simp] theorem State.setQueue_u_parts (s : State) (d p q : Nat) (v : Queue) : (s.setQueue d p q v).u.parts = s.u.parts := rfl
@[simp] theorem State.updQueue_pending (s : State) (d p q : Nat) (f : Queue → Queue) : (s.updQueue d p q f).pending = s.pending := rfl
@[simp] theorem State.updQueue_h (s : State) (d p q : Nat) (f : Queue → Queue) : (s.updQueue d p q f).h = s.h := rfl
@[simp] theorem State.updQueue_accesses (s : State) (d p q : Nat) (f : Queue → Queue) : (s.updQueue d p q f).accesses = s.accesses := rfl
@[simp] theorem State.updQueue_nextId (s : State) (d p q : Nat) (f : Queue → Queue) : (s.updQueue d p q f).nextId = s.nextId := rfl
@[simp] theorem State.updQueue_msgs (s : State) (d p q : Nat) (f : Queue → Queue) : (s.updQueue d p q f).msgs = s.msgs := rfl
@[simp] theorem State.updQueue_sent (s : State) (d p q : Nat) (f : Queue → Queue) : (s.updQueue d p q f).sent = s.sent := rfl
@[simp] theorem State.updQueue_free (s : State) (d p q : Nat) (f : Queue → Queue) : (s.updQueue d p q f).free = s.free := rfl
@[simp] theorem State.updQueue_u_cores (s : State) (d p q : Nat) (f : Queue → Queue) : (s.updQueue d p q f).u.cores = s.u.cores := rfl
@[simp] theorem State.updQueue_u_clusters (s : State) (d p q : Nat) (f : Queue → Queue) : (s.updQueue d p q f).u.clusters = s.u.clusters := rfl
@[simp] theorem State.updQueue_u_gates (s : State) (d p q : Nat) (f : Queue → Queue) : (s.updQueue d p q f).u.gates = s.u.gates := rfl
@[simp] theorem State.updQueue_u_ports (s : State) (d p q : Nat) (f : Queue → Queue) : (s.updQueue d p q f).u.ports = s.u.ports := rfl
@[simp] theorem State.updQueue_u_parts (s : State) (d p q : Nat) (f : Queue → Queue) : (s.updQueue d p q f).u.parts = s.u.parts := rfl
@[simp] theorem State.updR_pending (s : State) (c : Nat) (f : CoreRegs → CoreRegs) : (s.updR c f).pending = s.pending := rfl
@[simp] theorem State.updR_h (s : State) (c : Nat) (f : CoreRegs → CoreRegs) : (s.updR c f).h = s.h := rfl
@[simp] theorem State.updR_accesses (s : State) (c : Nat) (f : CoreRegs → CoreRegs) : (s.updR c f).accesses = s.accesses := rfl
@[simp] theorem State.updR_nextId (s : State) (c : Nat) (f : CoreRegs → CoreRegs) : (s.updR c f).nextId = s.nextId := rfl
@[simp] theorem State.updR_msgs (s : State) (c : Nat) (f : CoreRegs → CoreRegs) : (s.updR c f).msgs = s.msgs := rfl
@[simp] theorem State.updR_sent (s : State) (c : Nat) (f : CoreRegs → CoreRegs) : (s.updR c f).sent = s.sent := rfl
@[simp] theorem State.updR_free (s : State) (c : Nat) (f : CoreRegs → CoreRegs) : (s.updR c f).free = s.free := rfl
@[simp] theorem State.updR_u_clusters (s : State) (c : Nat) (f : CoreRegs → CoreRegs) : (s.updR c f).u.clusters = s.u.clusters := rfl
@[simp] theorem State.updR_u_dies (s : State) (c : Nat) (f : CoreRegs → CoreRegs) : (s.updR c f).u.dies = s.u.dies := rfl
@[simp] theorem State.updR_u_gates (s : State) (c : Nat) (f : CoreRegs → CoreRegs) : (s.updR c f).u.gates = s.u.gates := rfl
@[simp] theorem State.updR_u_ports (s : State) (c : Nat) (f : CoreRegs → CoreRegs) : (s.updR c f).u.ports = s.u.ports := rfl
@[simp] theorem State.updR_u_parts (s : State) (c : Nat) (f : CoreRegs → CoreRegs) : (s.updR c f).u.parts = s.u.parts := rfl
@[simp] theorem State.updSd_pending (s : State) (f : Sundial → Sundial) : (s.updSd f).pending = s.pending := rfl
@[simp] theorem State.updSd_u (s : State) (f : Sundial → Sundial) : (s.updSd f).u = s.u := rfl
@[simp] theorem State.updSd_accesses (s : State) (f : Sundial → Sundial) : (s.updSd f).accesses = s.accesses := rfl
@[simp] theorem State.updSd_nextId (s : State) (f : Sundial → Sundial) : (s.updSd f).nextId = s.nextId := rfl
@[simp] theorem State.updSd_msgs (s : State) (f : Sundial → Sundial) : (s.updSd f).msgs = s.msgs := rfl
@[simp] theorem State.updSd_sent (s : State) (f : Sundial → Sundial) : (s.updSd f).sent = s.sent := rfl
@[simp] theorem State.updSd_free (s : State) (f : Sundial → Sundial) : (s.updSd f).free = s.free := rfl
@[simp] theorem State.updSd_h_elCount (s : State) (f : Sundial → Sundial) : (s.updSd f).h.elCount = s.h.elCount := rfl
@[simp] theorem State.updSd_h_elog (s : State) (f : Sundial → Sundial) : (s.updSd f).h.elog = s.h.elog := rfl
@[simp] theorem State.updSd_h_ts (s : State) (f : Sundial → Sundial) : (s.updSd f).h.ts = s.h.ts := rfl
@[simp] theorem State.updSd_h_mirror (s : State) (f : Sundial → Sundial) : (s.updSd f).h.mirror = s.h.mirror := rfl
@[simp] theorem State.updSd_h_plan (s : State) (f : Sundial → Sundial) : (s.updSd f).h.plan = s.h.plan := rfl
@[simp] theorem State.updSd_h_host (s : State) (f : Sundial → Sundial) : (s.updSd f).h.host = s.h.host := rfl
@[simp] theorem State.updSd_h_pwr (s : State) (f : Sundial → Sundial) : (s.updSd f).h.pwr = s.h.pwr := rfl
@[simp] theorem State.updSd_h_fuses (s : State) (f : Sundial → Sundial) : (s.updSd f).h.fuses = s.h.fuses := rfl
@[simp] theorem State.updSd_h_patch (s : State) (f : Sundial → Sundial) : (s.updSd f).h.patch = s.h.patch := rfl
@[simp] theorem State.updSd_h_burning (s : State) (f : Sundial → Sundial) : (s.updSd f).h.burning = s.h.burning := rfl
@[simp] theorem State.updSd_h_calUser (s : State) (f : Sundial → Sundial) : (s.updSd f).h.calUser = s.h.calUser := rfl
@[simp] theorem State.updSdRegs_pending (s : State) (f : SdRegs → SdRegs) : (s.updSdRegs f).pending = s.pending := rfl
@[simp] theorem State.updSdRegs_u (s : State) (f : SdRegs → SdRegs) : (s.updSdRegs f).u = s.u := rfl
@[simp] theorem State.updSdRegs_accesses (s : State) (f : SdRegs → SdRegs) : (s.updSdRegs f).accesses = s.accesses := rfl
@[simp] theorem State.updSdRegs_nextId (s : State) (f : SdRegs → SdRegs) : (s.updSdRegs f).nextId = s.nextId := rfl
@[simp] theorem State.updSdRegs_msgs (s : State) (f : SdRegs → SdRegs) : (s.updSdRegs f).msgs = s.msgs := rfl
@[simp] theorem State.updSdRegs_sent (s : State) (f : SdRegs → SdRegs) : (s.updSdRegs f).sent = s.sent := rfl
@[simp] theorem State.updSdRegs_free (s : State) (f : SdRegs → SdRegs) : (s.updSdRegs f).free = s.free := rfl
@[simp] theorem State.updSdRegs_h_elCount (s : State) (f : SdRegs → SdRegs) : (s.updSdRegs f).h.elCount = s.h.elCount := rfl
@[simp] theorem State.updSdRegs_h_elog (s : State) (f : SdRegs → SdRegs) : (s.updSdRegs f).h.elog = s.h.elog := rfl
@[simp] theorem State.updSdRegs_h_ts (s : State) (f : SdRegs → SdRegs) : (s.updSdRegs f).h.ts = s.h.ts := rfl
@[simp] theorem State.updSdRegs_h_mirror (s : State) (f : SdRegs → SdRegs) : (s.updSdRegs f).h.mirror = s.h.mirror := rfl
@[simp] theorem State.updSdRegs_h_plan (s : State) (f : SdRegs → SdRegs) : (s.updSdRegs f).h.plan = s.h.plan := rfl
@[simp] theorem State.updSdRegs_h_host (s : State) (f : SdRegs → SdRegs) : (s.updSdRegs f).h.host = s.h.host := rfl
@[simp] theorem State.updSdRegs_h_pwr (s : State) (f : SdRegs → SdRegs) : (s.updSdRegs f).h.pwr = s.h.pwr := rfl
@[simp] theorem State.updSdRegs_h_fuses (s : State) (f : SdRegs → SdRegs) : (s.updSdRegs f).h.fuses = s.h.fuses := rfl
@[simp] theorem State.updSdRegs_h_patch (s : State) (f : SdRegs → SdRegs) : (s.updSdRegs f).h.patch = s.h.patch := rfl
@[simp] theorem State.updSdRegs_h_burning (s : State) (f : SdRegs → SdRegs) : (s.updSdRegs f).h.burning = s.h.burning := rfl
@[simp] theorem State.updSdRegs_h_calUser (s : State) (f : SdRegs → SdRegs) : (s.updSdRegs f).h.calUser = s.h.calUser := rfl
@[simp] theorem State.updHost_pending (s : State) (f : HostIf → HostIf) : (s.updHost f).pending = s.pending := rfl
@[simp] theorem State.updHost_u (s : State) (f : HostIf → HostIf) : (s.updHost f).u = s.u := rfl
@[simp] theorem State.updHost_accesses (s : State) (f : HostIf → HostIf) : (s.updHost f).accesses = s.accesses := rfl
@[simp] theorem State.updHost_nextId (s : State) (f : HostIf → HostIf) : (s.updHost f).nextId = s.nextId := rfl
@[simp] theorem State.updHost_msgs (s : State) (f : HostIf → HostIf) : (s.updHost f).msgs = s.msgs := rfl
@[simp] theorem State.updHost_sent (s : State) (f : HostIf → HostIf) : (s.updHost f).sent = s.sent := rfl
@[simp] theorem State.updHost_free (s : State) (f : HostIf → HostIf) : (s.updHost f).free = s.free := rfl
@[simp] theorem State.updHost_h_sd (s : State) (f : HostIf → HostIf) : (s.updHost f).h.sd = s.h.sd := rfl
@[simp] theorem State.updHost_h_elCount (s : State) (f : HostIf → HostIf) : (s.updHost f).h.elCount = s.h.elCount := rfl
@[simp] theorem State.updHost_h_elog (s : State) (f : HostIf → HostIf) : (s.updHost f).h.elog = s.h.elog := rfl
@[simp] theorem State.updHost_h_ts (s : State) (f : HostIf → HostIf) : (s.updHost f).h.ts = s.h.ts := rfl
@[simp] theorem State.updHost_h_mirror (s : State) (f : HostIf → HostIf) : (s.updHost f).h.mirror = s.h.mirror := rfl
@[simp] theorem State.updHost_h_plan (s : State) (f : HostIf → HostIf) : (s.updHost f).h.plan = s.h.plan := rfl
@[simp] theorem State.updHost_h_pwr (s : State) (f : HostIf → HostIf) : (s.updHost f).h.pwr = s.h.pwr := rfl
@[simp] theorem State.updHost_h_fuses (s : State) (f : HostIf → HostIf) : (s.updHost f).h.fuses = s.h.fuses := rfl
@[simp] theorem State.updHost_h_patch (s : State) (f : HostIf → HostIf) : (s.updHost f).h.patch = s.h.patch := rfl
@[simp] theorem State.updHost_h_burning (s : State) (f : HostIf → HostIf) : (s.updHost f).h.burning = s.h.burning := rfl
@[simp] theorem State.updHost_h_calUser (s : State) (f : HostIf → HostIf) : (s.updHost f).h.calUser = s.h.calUser := rfl
@[simp] theorem State.updHostRegs_pending (s : State) (f : HostRegs → HostRegs) : (s.updHostRegs f).pending = s.pending := rfl
@[simp] theorem State.updHostRegs_u (s : State) (f : HostRegs → HostRegs) : (s.updHostRegs f).u = s.u := rfl
@[simp] theorem State.updHostRegs_accesses (s : State) (f : HostRegs → HostRegs) : (s.updHostRegs f).accesses = s.accesses := rfl
@[simp] theorem State.updHostRegs_nextId (s : State) (f : HostRegs → HostRegs) : (s.updHostRegs f).nextId = s.nextId := rfl
@[simp] theorem State.updHostRegs_msgs (s : State) (f : HostRegs → HostRegs) : (s.updHostRegs f).msgs = s.msgs := rfl
@[simp] theorem State.updHostRegs_sent (s : State) (f : HostRegs → HostRegs) : (s.updHostRegs f).sent = s.sent := rfl
@[simp] theorem State.updHostRegs_free (s : State) (f : HostRegs → HostRegs) : (s.updHostRegs f).free = s.free := rfl
@[simp] theorem State.updHostRegs_h_sd (s : State) (f : HostRegs → HostRegs) : (s.updHostRegs f).h.sd = s.h.sd := rfl
@[simp] theorem State.updHostRegs_h_elCount (s : State) (f : HostRegs → HostRegs) : (s.updHostRegs f).h.elCount = s.h.elCount := rfl
@[simp] theorem State.updHostRegs_h_elog (s : State) (f : HostRegs → HostRegs) : (s.updHostRegs f).h.elog = s.h.elog := rfl
@[simp] theorem State.updHostRegs_h_ts (s : State) (f : HostRegs → HostRegs) : (s.updHostRegs f).h.ts = s.h.ts := rfl
@[simp] theorem State.updHostRegs_h_mirror (s : State) (f : HostRegs → HostRegs) : (s.updHostRegs f).h.mirror = s.h.mirror := rfl
@[simp] theorem State.updHostRegs_h_plan (s : State) (f : HostRegs → HostRegs) : (s.updHostRegs f).h.plan = s.h.plan := rfl
@[simp] theorem State.updHostRegs_h_pwr (s : State) (f : HostRegs → HostRegs) : (s.updHostRegs f).h.pwr = s.h.pwr := rfl
@[simp] theorem State.updHostRegs_h_fuses (s : State) (f : HostRegs → HostRegs) : (s.updHostRegs f).h.fuses = s.h.fuses := rfl
@[simp] theorem State.updHostRegs_h_patch (s : State) (f : HostRegs → HostRegs) : (s.updHostRegs f).h.patch = s.h.patch := rfl
@[simp] theorem State.updHostRegs_h_burning (s : State) (f : HostRegs → HostRegs) : (s.updHostRegs f).h.burning = s.h.burning := rfl
@[simp] theorem State.updHostRegs_h_calUser (s : State) (f : HostRegs → HostRegs) : (s.updHostRegs f).h.calUser = s.h.calUser := rfl
@[simp] theorem State.updMirror_pending (s : State) (f : Mirror → Mirror) : (s.updMirror f).pending = s.pending := rfl
@[simp] theorem State.updMirror_u (s : State) (f : Mirror → Mirror) : (s.updMirror f).u = s.u := rfl
@[simp] theorem State.updMirror_accesses (s : State) (f : Mirror → Mirror) : (s.updMirror f).accesses = s.accesses := rfl
@[simp] theorem State.updMirror_nextId (s : State) (f : Mirror → Mirror) : (s.updMirror f).nextId = s.nextId := rfl
@[simp] theorem State.updMirror_msgs (s : State) (f : Mirror → Mirror) : (s.updMirror f).msgs = s.msgs := rfl
@[simp] theorem State.updMirror_sent (s : State) (f : Mirror → Mirror) : (s.updMirror f).sent = s.sent := rfl
@[simp] theorem State.updMirror_free (s : State) (f : Mirror → Mirror) : (s.updMirror f).free = s.free := rfl
@[simp] theorem State.updMirror_h_sd (s : State) (f : Mirror → Mirror) : (s.updMirror f).h.sd = s.h.sd := rfl
@[simp] theorem State.updMirror_h_elCount (s : State) (f : Mirror → Mirror) : (s.updMirror f).h.elCount = s.h.elCount := rfl
@[simp] theorem State.updMirror_h_elog (s : State) (f : Mirror → Mirror) : (s.updMirror f).h.elog = s.h.elog := rfl
@[simp] theorem State.updMirror_h_ts (s : State) (f : Mirror → Mirror) : (s.updMirror f).h.ts = s.h.ts := rfl
@[simp] theorem State.updMirror_h_plan (s : State) (f : Mirror → Mirror) : (s.updMirror f).h.plan = s.h.plan := rfl
@[simp] theorem State.updMirror_h_host (s : State) (f : Mirror → Mirror) : (s.updMirror f).h.host = s.h.host := rfl
@[simp] theorem State.updMirror_h_pwr (s : State) (f : Mirror → Mirror) : (s.updMirror f).h.pwr = s.h.pwr := rfl
@[simp] theorem State.updMirror_h_fuses (s : State) (f : Mirror → Mirror) : (s.updMirror f).h.fuses = s.h.fuses := rfl
@[simp] theorem State.updMirror_h_patch (s : State) (f : Mirror → Mirror) : (s.updMirror f).h.patch = s.h.patch := rfl
@[simp] theorem State.updMirror_h_burning (s : State) (f : Mirror → Mirror) : (s.updMirror f).h.burning = s.h.burning := rfl
@[simp] theorem State.updMirror_h_calUser (s : State) (f : Mirror → Mirror) : (s.updMirror f).h.calUser = s.h.calUser := rfl
@[simp] theorem State.updPlan_pending (s : State) (f : PlanState → PlanState) : (s.updPlan f).pending = s.pending := rfl
@[simp] theorem State.updPlan_u (s : State) (f : PlanState → PlanState) : (s.updPlan f).u = s.u := rfl
@[simp] theorem State.updPlan_accesses (s : State) (f : PlanState → PlanState) : (s.updPlan f).accesses = s.accesses := rfl
@[simp] theorem State.updPlan_nextId (s : State) (f : PlanState → PlanState) : (s.updPlan f).nextId = s.nextId := rfl
@[simp] theorem State.updPlan_msgs (s : State) (f : PlanState → PlanState) : (s.updPlan f).msgs = s.msgs := rfl
@[simp] theorem State.updPlan_sent (s : State) (f : PlanState → PlanState) : (s.updPlan f).sent = s.sent := rfl
@[simp] theorem State.updPlan_free (s : State) (f : PlanState → PlanState) : (s.updPlan f).free = s.free := rfl
@[simp] theorem State.updPlan_h_sd (s : State) (f : PlanState → PlanState) : (s.updPlan f).h.sd = s.h.sd := rfl
@[simp] theorem State.updPlan_h_elCount (s : State) (f : PlanState → PlanState) : (s.updPlan f).h.elCount = s.h.elCount := rfl
@[simp] theorem State.updPlan_h_elog (s : State) (f : PlanState → PlanState) : (s.updPlan f).h.elog = s.h.elog := rfl
@[simp] theorem State.updPlan_h_ts (s : State) (f : PlanState → PlanState) : (s.updPlan f).h.ts = s.h.ts := rfl
@[simp] theorem State.updPlan_h_mirror (s : State) (f : PlanState → PlanState) : (s.updPlan f).h.mirror = s.h.mirror := rfl
@[simp] theorem State.updPlan_h_host (s : State) (f : PlanState → PlanState) : (s.updPlan f).h.host = s.h.host := rfl
@[simp] theorem State.updPlan_h_pwr (s : State) (f : PlanState → PlanState) : (s.updPlan f).h.pwr = s.h.pwr := rfl
@[simp] theorem State.updPlan_h_fuses (s : State) (f : PlanState → PlanState) : (s.updPlan f).h.fuses = s.h.fuses := rfl
@[simp] theorem State.updPlan_h_patch (s : State) (f : PlanState → PlanState) : (s.updPlan f).h.patch = s.h.patch := rfl
@[simp] theorem State.updPlan_h_burning (s : State) (f : PlanState → PlanState) : (s.updPlan f).h.burning = s.h.burning := rfl
@[simp] theorem State.updPlan_h_calUser (s : State) (f : PlanState → PlanState) : (s.updPlan f).h.calUser = s.h.calUser := rfl
@[simp] theorem State.updPwr_pending (s : State) (f : Power → Power) : (s.updPwr f).pending = s.pending := rfl
@[simp] theorem State.updPwr_u (s : State) (f : Power → Power) : (s.updPwr f).u = s.u := rfl
@[simp] theorem State.updPwr_accesses (s : State) (f : Power → Power) : (s.updPwr f).accesses = s.accesses := rfl
@[simp] theorem State.updPwr_nextId (s : State) (f : Power → Power) : (s.updPwr f).nextId = s.nextId := rfl
@[simp] theorem State.updPwr_msgs (s : State) (f : Power → Power) : (s.updPwr f).msgs = s.msgs := rfl
@[simp] theorem State.updPwr_sent (s : State) (f : Power → Power) : (s.updPwr f).sent = s.sent := rfl
@[simp] theorem State.updPwr_free (s : State) (f : Power → Power) : (s.updPwr f).free = s.free := rfl
@[simp] theorem State.updPwr_h_sd (s : State) (f : Power → Power) : (s.updPwr f).h.sd = s.h.sd := rfl
@[simp] theorem State.updPwr_h_elCount (s : State) (f : Power → Power) : (s.updPwr f).h.elCount = s.h.elCount := rfl
@[simp] theorem State.updPwr_h_elog (s : State) (f : Power → Power) : (s.updPwr f).h.elog = s.h.elog := rfl
@[simp] theorem State.updPwr_h_ts (s : State) (f : Power → Power) : (s.updPwr f).h.ts = s.h.ts := rfl
@[simp] theorem State.updPwr_h_mirror (s : State) (f : Power → Power) : (s.updPwr f).h.mirror = s.h.mirror := rfl
@[simp] theorem State.updPwr_h_plan (s : State) (f : Power → Power) : (s.updPwr f).h.plan = s.h.plan := rfl
@[simp] theorem State.updPwr_h_host (s : State) (f : Power → Power) : (s.updPwr f).h.host = s.h.host := rfl
@[simp] theorem State.updPwr_h_fuses (s : State) (f : Power → Power) : (s.updPwr f).h.fuses = s.h.fuses := rfl
@[simp] theorem State.updPwr_h_patch (s : State) (f : Power → Power) : (s.updPwr f).h.patch = s.h.patch := rfl
@[simp] theorem State.updPwr_h_burning (s : State) (f : Power → Power) : (s.updPwr f).h.burning = s.h.burning := rfl
@[simp] theorem State.updPwr_h_calUser (s : State) (f : Power → Power) : (s.updPwr f).h.calUser = s.h.calUser := rfl
@[simp] theorem State.post_pending (s : State) (m : Msg) : (s.post m).pending = s.pending := rfl
@[simp] theorem State.post_u (s : State) (m : Msg) : (s.post m).u = s.u := rfl
@[simp] theorem State.post_h (s : State) (m : Msg) : (s.post m).h = s.h := rfl
@[simp] theorem State.post_accesses (s : State) (m : Msg) : (s.post m).accesses = s.accesses := rfl
@[simp] theorem State.post_nextId (s : State) (m : Msg) : (s.post m).nextId = s.nextId := rfl
@[simp] theorem State.post_sent (s : State) (m : Msg) : (s.post m).sent = s.sent := rfl
@[simp] theorem State.post_free (s : State) (m : Msg) : (s.post m).free = s.free := rfl
@[simp] theorem State.emit_pending (s : State) (o : Sent) : (s.emit o).pending = s.pending := rfl
@[simp] theorem State.emit_u (s : State) (o : Sent) : (s.emit o).u = s.u := rfl
@[simp] theorem State.emit_h (s : State) (o : Sent) : (s.emit o).h = s.h := rfl
@[simp] theorem State.emit_accesses (s : State) (o : Sent) : (s.emit o).accesses = s.accesses := rfl
@[simp] theorem State.emit_nextId (s : State) (o : Sent) : (s.emit o).nextId = s.nextId := rfl
@[simp] theorem State.emit_msgs (s : State) (o : Sent) : (s.emit o).msgs = s.msgs := rfl
@[simp] theorem State.emit_free (s : State) (o : Sent) : (s.emit o).free = s.free := rfl

end Sys2Proof.Machine
end

