-- ==== Sys2Proof/Laws/Memory.lean ====
section
/-! SUPPORT. The memories: what is read after a write, and the canonical form (`Memory.wf`), which reset has and every operation
that writes, clears or loads a memory keeps. -/

namespace Sys2Proof.Machine

/-! ### Reads after writes -/

/-- A read of consecutive keys. -/
theorem getList_length {α : Type} (d : α) (m : Sparse α) (k n : Nat) : (Sparse.getList d m k n).length = n := by
  induction n generalizing k with
  | zero => rfl
  | succ n ih => simp [Sparse.getList, ih]

theorem getList_getD {α : Type} (d : α) (m : Sparse α) (k n i : Nat) (h : i < n) :
    (Sparse.getList d m k n).getD i d = Sparse.get d m (k + i) := by
  induction n generalizing k i with
  | zero => omega
  | succ n ih =>
    cases i with
    | zero => rfl
    | succ i =>
      rw [Sparse.getList, List.getD_cons_succ, ih _ _ (by omega)]
      congr 1; omega

/-- A character of ledger memory after a write to it: the character written, or what was there. -/
theorem putChars_char (s : State) (d l at_ : Nat) (data : List Chr) (e a : Nat) :
    Sparse.get 0 ((s.putChars d l at_ data).die e).m.mem a =
      if e = d ∧ 64 * l + at_ ≤ a ∧ a < 64 * l + at_ + data.length then data.getD (a - (64 * l + at_)) 0
      else Sparse.get 0 (s.die e).m.mem a := by
  unfold State.putChars
  rw [State.updDie_die]
  by_cases h : e = d
  · subst h; simp [Sparse.get_setList]
  · simp [h]

/-- A character of scratch after a write to it. -/
theorem scratchWrite_char (s : State) (cl off : Nat) (l : List Chr) (k a : Nat) :
    Sparse.get 0 ((s.scratchWrite cl off l).cluster k).scratch a =
      if k = cl ∧ off ≤ a ∧ a < off + l.length then l.getD (a - off) 0 else Sparse.get 0 (s.cluster k).scratch a := by
  unfold State.scratchWrite
  rw [State.updCluster_cluster]
  by_cases h : k = cl
  · subst h; simp [Sparse.get_setList]
  · simp [h]

/-- A syllable of a code store after CODE_WR. -/
theorem updCode_syll (s : State) (cl a : Nat) (v : Syll) (k b : Nat) :
    Sparse.get 0 ((s.updCluster cl fun x => { x with code := Sparse.set 0 x.code a v }).cluster k).code b =
      if k = cl ∧ b = a then v else Sparse.get 0 (s.cluster k).code b := by
  rw [State.updCluster_cluster]
  by_cases h : k = cl
  · subst h; simp [Sparse.get_set]
  · simp [h]

/-! ### The canonical form -/

theorem reset_memory_wf : Memory.wf State.reset := ⟨fun _ h => (List.not_mem_nil h).elim, fun _ h => (List.not_mem_nil h).elim⟩

theorem Die.reset_memWf : Die.memWf Die.reset := ⟨Sparse.wf_nil _, Sparse.wf_nil _, Sparse.wf_nil _⟩
theorem Cluster.reset_memWf : Cluster.memWf Cluster.reset := ⟨Sparse.wf_nil _, Sparse.wf_nil _, Sparse.wf_nil _⟩

theorem get_mem_or {α : Type} (d : α) (m : Sparse α) (k : Nat) : Sparse.get d m k = d ∨ ∃ e ∈ m, e.2 = Sparse.get d m k := by
  induction m with
  | nil => exact .inl rfl
  | cons e m ih =>
    rw [Sparse.get_cons]
    split
    · exact .inr ⟨e, List.mem_cons_self, rfl⟩
    · exact ih.imp id fun ⟨x, hx, h⟩ => ⟨x, List.mem_cons_of_mem _ hx, h⟩

theorem Memory.wf_die {s : State} (h : Memory.wf s) (d : Nat) : Die.memWf (s.die d) := by
  rcases get_mem_or Die.reset s.u.dies d with hd | ⟨e, he, hd⟩
  · unfold State.die; rw [hd]; exact Die.reset_memWf
  · unfold State.die; rw [← hd]; exact h.1 e he

theorem Memory.wf_cluster {s : State} (h : Memory.wf s) (d : Nat) : Cluster.memWf (s.cluster d) := by
  rcases get_mem_or Cluster.reset s.u.clusters d with hd | ⟨e, he, hd⟩
  · unfold State.cluster; rw [hd]; exact Cluster.reset_memWf
  · unfold State.cluster; rw [← hd]; exact h.2 e he

theorem mem_set {α : Type} [DecidableEq α] {d : α} {m : Sparse α} {k : Nat} {v : α} {e : Nat × α} (h : e ∈ Sparse.set d m k v) :
    e = (k, v) ∨ e ∈ m := by
  unfold Sparse.set at h
  split at h
  · exact .inr (List.mem_filter.1 h).1
  · exact Sparse.mem_insert h

/-- Every change of a die that keeps its memories canonical keeps the package's so. -/
theorem Memory.wf_updDie {s : State} (h : Memory.wf s) (d : Nat) {f : Die → Die} (hf : Die.memWf (f (s.die d))) :
    Memory.wf (s.updDie d f) :=
  ⟨fun e he => by rcases mem_set he with rfl | he; exacts [hf, h.1 e he], h.2⟩

theorem Memory.wf_updCluster {s : State} (h : Memory.wf s) (d : Nat) {f : Cluster → Cluster} (hf : Cluster.memWf (f (s.cluster d))) :
    Memory.wf (s.updCluster d f) :=
  ⟨h.1, fun e he => by rcases mem_set he with rfl | he; exacts [hf, h.2 e he]⟩

theorem Memory.wf_foldl {α : Type} {f : State → α → State} (hf : ∀ s a, Memory.wf s → Memory.wf (f s a)) (l : List α) {s : State}
    (h : Memory.wf s) : Memory.wf (l.foldl f s) := by
  induction l generalizing s with
  | nil => exact h
  | cons a l ih => exact ih (hf s a h)

theorem Memory.wf_iter {f : Nat → State → State} (hf : ∀ n s, Memory.wf s → Memory.wf (f n s)) (n : Nat) {s : State}
    (h : Memory.wf s) : Memory.wf (iter n f s) := Memory.wf_foldl (fun s a => hf a s) _ h

theorem putChars_wf {s : State} (h : Memory.wf s) (d l at_ : Nat) (data : List Chr) : Memory.wf (s.putChars d l at_ data) :=
  let w := Memory.wf_die h d
  Memory.wf_updDie h d ⟨Sparse.wf_setList _ w.1 _, w.2.1, w.2.2⟩

theorem setLineInfo_wf {s : State} (h : Memory.wf s) (d l : Nat) (m : LineMeta) : Memory.wf (s.setLineInfo d l m) :=
  let w := Memory.wf_die h d
  Memory.wf_updDie h d ⟨w.1, Sparse.wf_set w.2.1 _ _, w.2.2⟩

theorem putLine_wf {s : State} (h : Memory.wf s) (d l : Nat) (chars : List Chr) (info : LineMeta) :
    Memory.wf (s.putLine d l chars info) :=
  let w := Memory.wf_die h d
  Memory.wf_updDie h d ⟨Sparse.wf_setList _ w.1 _, Sparse.wf_set w.2.1 _ _, w.2.2⟩

theorem clearRegion_wf {s : State} (h : Memory.wf s) (r : Region) (d : Nat) : Memory.wf (s.clearRegion r d) :=
  let w := Memory.wf_die h d
  Memory.wf_updDie h d ⟨Sparse.wf_clear w.1 _ _, Sparse.wf_clear w.2.1 _ _, w.2.2⟩

theorem foldl_set_wf {α β : Type} [DecidableEq α] {d : α} (key : β → Nat) (v : β → α) (l : List β) {m : Sparse α} (h : Sparse.wf d m) :
    Sparse.wf d (l.foldl (fun m i => Sparse.set d m (key i) (v i)) m) := by
  induction l generalizing m with
  | nil => exact h
  | cons a l ih => exact ih (Sparse.wf_set h _ _)

theorem rekey_wf {s : State} (h : Memory.wf s) (old : List Region) (p : Nat) : Memory.wf (s.rekey old p) := by
  unfold State.rekey
  refine Memory.wf_foldl (fun s r h => ?_) _ h
  refine Memory.wf_foldl (fun s d h => ?_) _ h
  let w := Memory.wf_die h d
  exact Memory.wf_updDie h d ⟨w.1, foldl_set_wf _ _ _ (Sparse.wf_nil _), w.2.2⟩

theorem qSetWord_wf {m : Sparse Chr} (h : Sparse.wf 0 m) (a : Nat) (w : Word) : Sparse.wf 0 (qSetWord m a w) := Sparse.wf_setList _ h _

theorem writeList_wf (q : Queue) (l : List Word) {m : Sparse Chr} (h : Sparse.wf 0 m) (v : Nat) : Sparse.wf 0 (q.writeList m v l) := by
  induction l generalizing m v with
  | nil => exact h
  | cons w l ih => exact ih (qSetWord_wf h _ _) _

theorem setQueue_wf {s : State} (h : Memory.wf s) (d p q : Nat) (v : Queue) : Memory.wf (s.setQueue d p q v) :=
  Memory.wf_updDie h d (Memory.wf_die h d)

theorem reservePacket_wf {s : State} (h : Memory.wf s) (d p q n : Nat) {t : State × Nat} (ht : s.reservePacket d p q n = some t) :
    Memory.wf t.1 := by
  unfold State.reservePacket at ht
  simp only at ht
  split at ht
  · cases ht
  · cases ht
    let w := Memory.wf_die h d
    exact setQueue_wf (Memory.wf_updDie h d ⟨w.1, w.2.1, qSetWord_wf w.2.2 ((s.queue d p q).addr (s.queue d p q).wptr) pendingMarker⟩) _ _ _ _

theorem fillPacket_wf {s : State} (h : Memory.wf s) (d p q ptr : Nat) (x : Word) (l : List Word) :
    Memory.wf (s.fillPacket d p q ptr x l) :=
  let w := Memory.wf_die h d
  Memory.wf_updDie h d ⟨w.1, w.2.1, qSetWord_wf (writeList_wf _ _ w.2.2 _) _ _⟩

theorem putPacket_wf {s : State} (h : Memory.wf s) (d p q : Nat) (x : Word) (l : List Word) {t : State × Nat}
    (ht : s.putPacket d p q x l = some t) : Memory.wf t.1 := by
  unfold State.putPacket at ht
  obtain ⟨y, hy, rfl⟩ := Option.map_eq_some_iff.1 ht
  exact fillPacket_wf (reservePacket_wf h d p q _ hy) _ _ _ _ _ _

theorem retype_wf {s : State} (h : Memory.wf s) (d p q v type : Nat) : Memory.wf (s.retype d p q v type) :=
  let w := Memory.wf_die h d
  Memory.wf_updDie h d ⟨w.1, w.2.1, qSetWord_wf w.2.2 _ _⟩

theorem cachePacket_wf {s : State} (h : Memory.wf s) (d p q ptr : Nat) (t : BitVec 48) : Memory.wf (s.cachePacket d p q ptr t) :=
  let h1 := retype_wf h d p q ptr 4
  let w := Memory.wf_die h1 d
  Memory.wf_updDie h1 d ⟨w.1, w.2.1, qSetWord_wf w.2.2 _ _⟩

theorem ramWrite_wf {s : State} (h : Memory.wf s) (d a : Nat) (l : List Chr) : Memory.wf (s.ramWrite d a l) := by
  unfold State.ramWrite
  split
  · exact h
  · split
    · split
      · exact setQueue_wf h _ _ _ _
      · exact h
    · let w := Memory.wf_die h d
      exact Memory.wf_updDie h d ⟨w.1, w.2.1, Sparse.wf_setList _ w.2.2 _⟩

theorem scratchWrite_wf {s : State} (h : Memory.wf s) (cl off : Nat) (l : List Chr) : Memory.wf (s.scratchWrite cl off l) :=
  let w := Memory.wf_cluster h cl
  Memory.wf_updCluster h cl ⟨w.1, Sparse.wf_setList _ w.2.1 _, w.2.2⟩

theorem setScratchInfo_wf {s : State} (h : Memory.wf s) (cl line : Nat) (m : LineMeta) : Memory.wf (s.setScratchInfo cl line m) :=
  let w := Memory.wf_cluster h cl
  Memory.wf_updCluster h cl ⟨w.1, w.2.1, Sparse.wf_set w.2.2 _ _⟩

theorem setCore_wf {s : State} (h : Memory.wf s) (c : Nat) (k : Core) : Memory.wf (s.setCore c k) := ⟨h.1, h.2⟩

theorem writeCode_wf {s : State} (h : Memory.wf s) (cl a : Nat) (v : Syll) : Memory.wf (s.writeCode cl a v) := by
  unfold State.writeCode
  apply Memory.wf_iter
  · intro n s h
    exact setCore_wf h _ _
  · have w := Memory.wf_cluster h cl
    apply Memory.wf_updCluster h cl
    exact ⟨Sparse.wf_set w.1 _ _, w.2.1, w.2.2⟩

theorem foldl_setList_wf {β : Type} (key : β → Nat) (v : β → List Syll) (l : List β) {m : Sparse Syll} (h : Sparse.wf 0 m) :
    Sparse.wf 0 (l.foldl (fun m i => Sparse.setList 0 m (key i) (v i)) m) := by
  induction l generalizing m with
  | nil => exact h
  | cons a l ih => exact ih (Sparse.wf_setList _ h _)

theorem loadCluster_wf {s : State} (h : Memory.wf s) (cl : Nat) : Memory.wf (s.loadCluster cl) := by
  unfold State.loadCluster
  refine Memory.wf_foldl (fun s x h => ?_) _ ?_
  · refine Memory.wf_foldl (fun s e h => ?_) _ h
    let w := Memory.wf_cluster h cl
    exact setScratchInfo_wf (Memory.wf_updCluster h cl ⟨w.1, Sparse.wf_setList _ w.2.1 _, w.2.2⟩) _ _ _
  · let w := Memory.wf_cluster h cl
    exact Memory.wf_updCluster h cl ⟨foldl_setList_wf _ _ _ (Sparse.wf_nil _), w.2.1, w.2.2⟩

theorem fencedOff_wf (e : Die) : Die.memWf e.fencedOff := Die.reset_memWf

end Sys2Proof.Machine
end

