-- ==== Sys2Proof/Laws/Run.lean ====
section
/-! SUPPORT. What running an instruction does, once for every instruction: a core that carries an instruction out takes up what
the instruction's own part answers; what corrections and logs leave alone. -/

namespace Sys2Proof.Machine

/-! ### Units read after a change -/

@[simp] theorem State.msixKey_u (s : State) (k : Nat) (o : Sent) : (s.msixKey k o).u = s.u := by
  unfold State.msixKey
  simp only
  split
  · exact State.updHost_u _ _
  · exact State.emit_u _ _

@[simp] theorem State.msix_u (s : State) (v : Nat) : (s.msix v).u = s.u := by
  unfold State.msix
  simp only
  split
  · split
    · exact State.msixKey_u _ _ _
    · exact State.msixKey_u _ _ _
  · rfl

@[simp] theorem State.event_u (s : State) (i : Nat) : (s.event i).u = s.u := by
  unfold State.event
  simp only
  split
  · rw [State.msix_u]; exact State.updHost_u _ _
  · exact State.updHost_u _ _

/-- An entry of the error log leaves every unit alone. -/
@[simp] theorem State.logErr_u (s : State) (a b c d e f g h) : (s.logErr a b c d e f g h).u = s.u := by
  unfold State.logErr
  simp only
  split
  · exact State.event_u _ _
  · rfl

/-- A corrected error changes no core and no cluster. -/
theorem State.correctedIn_core (s : State) (a c u w x n) : (s.correctedIn a c u w x).core n = s.core n := by
  unfold State.correctedIn State.core
  simp only [State.updDie, State.setDie, State.logErr_u]

theorem foldl_core {α : Type} {n : Nat} {f : State → α → State} (h : ∀ s a, (f s a).core n = s.core n) (l : List α) (s : State) :
    (l.foldl f s).core n = s.core n := by
  induction l generalizing s with
  | nil => rfl
  | cons a l ih => rw [List.foldl_cons, ih, h]

/-- What a fetch corrects leaves the core alone but for its mark of a correctable symbol. -/
theorem State.fetchCorrected_core (s : State) (c n : Nat) :
    (s.fetchCorrected c n).core c = { s.core c with regCe := none } := by
  unfold State.fetchCorrected
  simp only
  rw [foldl_core (fun s a => by rw [State.correctedIn_core]; rfl)]
  cases h : (s.core c).regCe with
  | none => simp only; rw [← h]
  | some r => simp only [State.correctedIn_core, State.updCore_core, if_true]

/-- What a fetch corrects changes no register. -/
theorem State.fetchCorrected_regs (s : State) (c n : Nat) : (s.fetchCorrected c n).regs c = s.regs c := by
  unfold State.regs
  rw [State.fetchCorrected_core]

/-- The bell of a core changes that mark of the core only. -/
theorem State.rung_core (s : State) (c : Nat) : (s.rung c).core c = { s.core c with bell := false } := by
  unfold State.rung
  split
  · rw [State.updCore_core, if_pos rfl]
  · rename_i h
    cases hk : (s.core c).bell with
    | true => exact absurd hk h
    | false => cases hc : s.core c; rw [hc] at hk; cases hk; rfl

theorem State.rung_regs (s : State) (c : Nat) : (s.rung c).regs c = s.regs c := by
  unfold State.regs
  rw [State.rung_core]

@[simp] theorem State.rung_clusters (s : State) (c : Nat) : (s.rung c).u.clusters = s.u.clusters := by
  unfold State.rung
  split
  · exact State.updCore_u_clusters _ _ _
  · rfl

@[simp] theorem State.rung_cluster (s : State) (c n : Nat) : (s.rung c).cluster n = s.cluster n := by
  unfold State.cluster
  rw [State.rung_clusters]

theorem State.codeAt_congr {s t : State} (h : t.u.clusters = s.u.clusters) (cl a : Nat) : t.codeAt cl a = s.codeAt cl a := by
  unfold State.codeAt State.cluster
  rw [h]

theorem State.fetchRun_congr {s t : State} (h : t.u.clusters = s.u.clusters) (cl : Nat) (buf : List (Nat × Syll)) (a n : Nat) :
    t.fetchRun cl buf a n = s.fetchRun cl buf a n := by
  induction n generalizing a with
  | zero => rfl
  | succ n ih => simp only [State.fetchRun, State.codeAt_congr h, ih]

/-- The bell decides nothing of a fetch. -/
theorem State.rung_fetchIs (s : State) (c : Nat) (ws : List Syll) : (s.rung c).fetchIs c ws = s.fetchIs c ws := by
  unfold State.fetchIs
  simp only [State.rung_core, State.rung_cluster, State.fetchRun_congr (State.rung_clusters s c)]

/-- A core that carries an instruction out holds the registers that it held. -/
theorem carries_regs {s : State} {c i x s1} (h : s.carries c i = some (x, s1)) : s1.regs c = s.regs c := by
  unfold State.carries at h
  simp only at h
  split at h
  · cases h
  · split at h
    · split at h
      · cases h; rfl
      · cases h
    · split at h
      · cases h; rw [State.fetchCorrected_regs, State.rung_regs]
      · cases h

/-- … and stands at the same address. -/
theorem carries_pc {s : State} {c i x s1} (h : s.carries c i = some (x, s1)) : (s1.core c).pc = (s.core c).pc := by
  unfold State.carries at h
  simp only at h
  split at h
  · cases h
  · split at h
    · split at h
      · cases h; rfl
      · cases h
    · split at h
      · cases h; rw [State.fetchCorrected_core, State.rung_core]
      · cases h

/-- The end of an instruction changes its core only. -/
theorem finish_eq (s0 s : State) (c : CoreId) (i : Instr) (next : Option Nat) (cc : Nat) :
    s0.finish s c i next cc = s.setCore c ((s0.finish s c i next cc).core c) := by
  unfold State.finish
  rw [State.setCore_core, if_pos rfl]

/-! ### Instructions -/

/-- A core that carries an instruction out takes up what its own part answers. -/
theorem instr_carries {s : State} {c i x s1} (h : s.carries c i = some (x, s1)) (body : Cur → State → Act) :
    s.instr c i body = s1.settle c i (body x s1) := by
  unfold State.carries at h
  unfold State.instr
  simp only at h ⊢
  split at h
  · cases h
  · rename_i hl
    simp only [Bool.or_eq_true, Bool.not_eq_eq_eq_not, Bool.not_true, not_or] at hl
    simp only [Bool.not_eq_false] at hl
    simp only [hl.1, hl.2, Bool.not_true, Bool.false_eq_true, if_false]
    split at h
    · rename_i y hy
      split at h
      · rename_i hc
        cases h
        simp only [hy, hc, if_true]
      · cases h
    · rename_i hy
      split at h
      · rename_i hc
        cases h
        simp only [Bool.and_eq_true, decide_eq_true_eq, Option.isNone_iff_eq_none, List.isEmpty_iff,
          Bool.not_eq_eq_eq_not, Bool.not_true] at hc
        obtain ⟨⟨⟨⟨h1, h2⟩, h3⟩, h4⟩, h5⟩ := hc
        have hw : Core.awaited { s.core c with bell := false } i = [] := h4
        simp only [hy, h1, h2, Option.isSome_none, decide_false, Bool.or_self, Bool.false_eq_true, if_false, reduceCtorEq]
        simp only [State.start, State.rung_fetchIs, State.rung_core, hw, h2, h3, h5, State.fetchStop, Bool.false_eq_true, if_false,
          Bool.not_true]
      · cases h

/-! ### From an instruction's own part to what a statement says of it -/

theorem updR_const (s : State) (c : CoreId) (f : CoreRegs → CoreRegs) {r} (h : s.regs c = r) : s.updR c f = s.updR c fun _ => f r := by
  subst h; rfl

theorem updCore_congr (s : State) (c : CoreId) {f g : Core → Core} (h : f (s.core c) = g (s.core c)) : s.updCore c f = s.updCore c g := by
  unfold State.updCore; rw [h]

/-- An instruction whose own part is done with state f ends so. -/
theorem ends_of {s c i cc next f} {body} (he : exec i s = .next (s.instr c i body))
    (hb : ∀ x s1, s.carries c i = some (x, s1) → body x s1 = .done (f s1) next cc) : Ends s c i cc next f := by
  intro x s1 h
  rw [he, instr_carries h, hb x s1 h]; rfl

/-- An operation on registers yields what its function gives. -/
theorem yields_of {s c i cc f} {g : CoreRegs → CoreRegs} (he : exec i s = s.regOp c i cc g) (hg : g (s.regs c) = f (s.regs c)) :
    Yields s c i cc f := by
  intro x s1 h
  rw [he, State.regOp, instr_carries h, updR_const _ _ g (carries_regs h), hg]; rfl

/-- An instruction whose own part is done with a change of its units starts them. -/
theorem starts_of {s c i cc f} {body} (he : exec i s = .next (s.instr c i body))
    (hb : ∀ x s1, s.carries c i = some (x, s1) → body x s1 = .done (s1.updCore c f) none cc) : Starts s c i cc f := by
  intro x s1 h
  rw [he, instr_carries h, hb x s1 h]; rfl

/-- An instruction whose own part faults raises the cause. -/
theorem raises_of {s c i cause a} {body} (he : exec i s = .next (s.instr c i body))
    (hb : ∀ x s1, s.carries c i = some (x, s1) → body x s1 = .fault cause a) : Raises s c i cause a := by
  intro x s1 h
  rw [he, instr_carries h, hb x s1 h]; rfl

end Sys2Proof.Machine
end

