-- ==== Sys2Proof/Machine/HostView.lean ====
section
/-! DEFINITION. What the host reads in BAR0: the global registers, the mailbox, the plan-status block, window rules and window errors,
the MSI-X table, the feature chain, the queue registers and the snapshot (R428, R437 to R439, R441 to R444, R446, R448, R454).
The opcode table has no command for these reads, and none but those of the space 2 view has an effect. -/

namespace Sys2Proof.Machine

abbrev Reg32 := BitVec 32
def r32 (n : Nat) : Reg32 := BitVec.ofNat 32 n
/-- Low or high half of a 64-bit register. -/
def half32 (n i : Nat) : Reg32 := r32 (n / 2 ^ (32 * i))

/-- HOST_STATUS (R439). -/
def State.hostStatus (s : State) : Reg32 :=
  r32 (s.pkgState * 2 ^ 28 + s.h.mirror.role.toNat * 2 ^ 26 + bit (!s.h.host.mbx.done) * 2 ^ 25)

/-- Global registers (R439). -/
def State.globalWord (s : State) (off : Nat) : Reg32 :=
  let g := s.h.host.g
  match off with
  | 0x00 => r32 (bit g.evtIen * 2 + bit g.epPoison)
  | 0x04 => s.hostStatus
  | 0x08 => g.evt.zeroExtend 32
  | 0x0C => g.evtEn.zeroExtend 32
  | 0x10 => r32 (g.evtVec.toNat * 2 ^ 16 + bit g.mbxIen * 2 ^ 15 + g.mbxVec.toNat)
  | 0x14 => r32 g.snapPeriod
  | 0x18 => s.patchVersion
  | 0x1C => r32 (g.width.toNat * 16 + g.rate.toNat)
  | 0x20 => g.err.zeroExtend 32
  | 0x24 => half32 g.h3Base.toNat 0
  | 0x28 => half32 g.h3Base.toNat 1
  | 0x2C => r32 (bit g.h3En)
  | _ => 0

/-- Mailbox registers (R444). -/
def Mailbox.word (m : Mailbox) (off : Nat) : Reg32 :=
  if off = 4 then r32 (bit m.done * 2 ^ 31 + m.tag.toNat * 2 ^ 16 + m.code.toNat * 2 ^ 8 + (if m.done then m.status.toNat else 0))
  else if 0x20 ≤ off ∧ off < 0x40 then Sparse.get 0 m.args ((off - 0x20) / 4)
  else if 0x40 ≤ off ∧ off < 0x60 then (if m.done then Sparse.get 0 m.res ((off - 0x40) / 4) else BitVec.allOnes 32)
  else 0

/-- Plan-status block (R428). -/
def State.planWord (s : State) (off : Nat) : Reg32 :=
  let h := s.h.plan.hp
  match off with
  | 0x00 => s.hpStatus
  | 0x04 => h.errOff
  | 0x08 => h.clamps
  | 0x0C => h.clampOff
  | 0x10 => half32 s.hpGen 0
  | 0x14 => half32 s.hpGen 1
  | 0x18 => half32 s.hpPend 0
  | 0x1C => half32 s.hpPend 1
  | _ => 0

/-- A window rule (R446). -/
def Win.word (w : Win) (off : Nat) : Reg32 :=
  match off with
  | 0 => r32 (bit w.en * 2 ^ 31 + bit w.sys * 2 ^ 30 + bit w.we * 2 ^ 29 + w.key.toNat * 2 ^ 20)
  | 4 => w.base.zeroExtend 32
  | _ => 0

/-- The window error record (R448). -/
def WinErr.word (e : WinErr) (off : Nat) : Reg32 :=
  match off with
  | 0 => r32 (bit e.valid * 2 ^ 31 + e.reason.toNat * 2 ^ 28 + e.window.toNat * 2 ^ 24 + bit e.vf * 2 ^ 23 + bit e.write * 2 ^ 22 + e.count)
  | 4 => half32 e.addr 0
  | 8 => r32 (e.addr / 2 ^ 32 % 256)
  | _ => 0

/-- An MSI-X table entry from a vector's key, and the pending bits (R437, R453). -/
def State.msixWord (s : State) (base off : Nat) : Reg32 :=
  let v := Sparse.get MsixVec.reset s.h.host.msix (base + off / 16)
  match off % 16 / 4 with
  | 0 => half32 v.addr.toNat 0
  | 1 => half32 v.addr.toNat 1
  | 2 => v.data
  | _ => r32 (bit v.masked)
def State.pendingWord (s : State) (base i : Nat) : Reg32 :=
  r32 ((List.range 32).foldl (fun a k => a + bit (Sparse.get MsixVec.reset s.h.host.msix (base + 32 * i + k)).pending * 2 ^ k) 0)

/-- Registers of a host queue (R454). -/
def HostQueue.word (r : HostQueue) (off : Nat) : Reg32 :=
  match off with
  | 0x00 => half32 r.base.toNat 0
  | 0x04 => half32 r.base.toNat 1
  | 0x08 => r32 (bit r.en * 2 ^ 31 + r.size * 2 ^ 24 + r.die * 2 ^ 16 + bit r.ien * 2 ^ 11 + r.vector)
  | 0x0C => r32 r.thresh
  | 0x10 => r32 r.wptr
  | 0x14 => r32 r.rptr
  | 0x18 => r32 (bit r.qerr * 2 ^ 30 + bit r.dmaErr * 2 ^ 29 + bit r.pend * 2 ^ 28 + r.used)
  | 0x1C => r.drops
  | _ => 0

/-- The pointer that a doorbell reads (R454). -/
def State.doorbellWord (s : State) (q : Nat) : Reg32 :=
  let r := s.hostQueue q
  r32 (if isSubmission q then r.wptr else r.rptr)

/-! ### The feature chain (R441, R442) -/

/-- A decimal number of three digits, digit by digit (PART_CODE of R442). -/
def digits3 (n : Nat) : Nat := n / 100 % 10 * 256 + n / 10 % 10 * 16 + n % 10

/-- DEVICE_ID after its header. -/
def State.deviceWords (s : State) : List Reg32 :=
  let f := s.h.fuses
  let fenced := (List.range 8).foldl (fun a d => a + bit (s.die d).fenced * 2 ^ d) 0
  [r32 (digits3 f.partCode * 2 ^ 16 + (0x41 + f.stepping.toNat / 16 - 10) * 2 ^ 8 + 0x30 + f.stepping.toNat % 16),
    r32 (f.present.toNat + fenced * 256), half32 f.serial.toNat 0, half32 f.serial.toNat 1,
    r32 (bit f.valid0 + bit f.revoke0 * 2 + bit (decide (f.key0 ≠ 0)) * 4 + bit f.valid1 * 2 ^ 4 + bit f.revoke1 * 2 ^ 5 +
      bit (decide (f.key1 ≠ 0)) * 2 ^ 6 + bit f.sigRequired * 2 ^ 8 + f.patchSvn * 2 ^ 16)]

/-- Records of the PF's chain: ID and the words after the header. -/
def State.pfRecords (s : State) : List (Nat × List Reg32) :=
  [(1, s.deviceWords), (2, [r32 0x2000]), (3, [r32 0x1000000, r32 0x600000]), (4, [r32 0x3000, 16, 32]), (5, [r32 0x1000, 1]),
    (6, [r32 0x20000, 64, 0]), (7, [r32 0x40000])]
/-- Records of a VF's chain. -/
def State.vfRecords (s : State) : List (Nat × List Reg32) := [(1, s.deviceWords), (4, [0, 1, 32]), (6, [r32 0x100, 4, 0])]

/-- A chain from an offset on, each record right after the one before. -/
def chainWords : Nat → List (Nat × List Reg32) → List Reg32
  | _, [] => []
  | at_, (id, l) :: rest =>
    let n := 2 + l.length
    r32 (id * 2 ^ 16 + (Config.featureVersion id).toNat * 2 ^ 8 + n) :: r32 (if rest.isEmpty then 0 else at_ + 4 * n) ::
      (l ++ chainWords (at_ + 4 * n) rest)

/-! ### The snapshot (R443) -/

def Snap.word64 (x : Snap) (i : Nat) : Nat :=
  if i = 0 then x.seq else if i = 1 then x.tick.toNat
  else if 0x20 ≤ i ∧ i < 0x120 then
    if (i - 0x20) % 16 < 10 then (Sparse.get 0 x.post (i - 0x20)).toNat else 0
  else if 0x120 ≤ i ∧ i < 0x320 then
    if (i - 0x120) % 16 < 14 then (Sparse.get 0 x.port (i - 0x120)).toNat else 0
  else 0

/-- What a 32-bit read of PF BAR0 returns, outside the space 2 view; an unaligned one zero (R439). -/
def State.bar0Word (s : State) (off : Nat) : Reg32 :=
  if off % 4 ≠ 0 then 0
  else if off < 0x1000 then s.globalWord off
  else if off < 0x2000 then s.h.host.mbx.word (off - 0x1000)
  else if off < 0x3000 then s.planWord (off - 0x2000)
  else if off < 0x3100 then (s.win ((off - 0x3000) / 16)).word (off % 16)
  else if off < 0x3110 then s.h.host.winErr.word (off - 0x3100)
  else if 0x4000 ≤ off ∧ off < 0xC000 then s.msixWord 0 (off - 0x4000)
  else if 0xC000 ≤ off ∧ off < 0xC100 then s.pendingWord 0 ((off - 0xC000) / 4)
  else if 0x10000 ≤ off ∧ off < 0x20000 then (chainWords 0x10000 s.pfRecords).getD ((off - 0x10000) / 4) 0
  else if 0x20000 ≤ off ∧ off < 0x21000 then (s.hostQueue ((off - 0x20000) / 64)).word (off % 64)
  else if 0x40000 ≤ off ∧ off < 0x42000 then half32 (s.h.host.snap.word64 ((off - 0x40000) / 8)) (off / 4 % 2)
  else 0

/-! ### The configuration space (R434, R436) -/

/-- Vendor ID in [15:0] and Device ID in [31:16] of a function, by part (R434). -/
def State.cfgIdWord (s : State) (f : HostFn) : Reg32 :=
  let part := s.h.fuses.partCode
  let pf := if part = 208 then 0x2080 else if part = 408 then 0x4080 else 0x8080
  r32 ((pf + (match f with | .pf => 0 | .vf _ => 1)) * 2 ^ 16 + 0x1F2D)

/-- Class code in [31:8] and Revision ID in [7:0] (R434). -/
def State.cfgClassWord (s : State) : Reg32 := r32 (0x120000 * 2 ^ 8 + s.h.fuses.stepping.toNat)

/-- A BAR of the PF or of the VFs: its address above the size, 64-bit memory, BAR4 prefetchable (R436). -/
def State.cfgBar (s : State) (vf : Bool) (i : Fin 3) : BitVec 64 :=
  BitVec.ofNat 64 ((Sparse.get 0 s.h.host.cfg.bars (barKey vf i)).toNat + 4 + (if i = 2 then 8 else 0))

/-- What a 32-bit read of VF p's BAR0 returns (R438). -/
def State.vfWord (s : State) (p : PartId) (off : Nat) : Reg32 :=
  if !s.hasFn (.vf p) || decide (off % 4 ≠ 0) then 0
  else if off < 16 then (s.win p).word off
  else if 0x100 ≤ off ∧ off < 0x200 then (s.hostQueue (4 * p + (off - 0x100) / 64)).word (off % 64)
  else if 0x1000 ≤ off ∧ off < 0x2000 then (chainWords 0x1000 s.vfRecords).getD ((off - 0x1000) / 4) 0
  else if 0x2000 ≤ off ∧ off < 0x2800 then s.msixWord (2048 + 128 * p) (off - 0x2000)
  else if 0x3000 ≤ off ∧ off < 0x3010 then s.pendingWord (2048 + 128 * p) ((off - 0x3000) / 4)
  else 0

end Sys2Proof.Machine
end

