-- ==== Sys2Proof/Tests/Slice0.lean ====
section
/-! SUPPORT. The model's own tests: what WellFormed refuses, words written out from the manual's encodings, single steps with
results worked out by hand from the rules, and, for each statement with hypotheses, states that meet them. -/

namespace Sys2Proof.Tests
open Sys2Proof Sys2Proof.Machine
set_option Elab.async false

/-! ### WellFormed refuses (one ill-formed term or more for each check) -/

theorem test_wf_refuses_pairs :
    ∀ i ∈ [Instr.ldp 0 31 (.off 0 0), .stp 0 31 (.off 0 0), .cvbdL 0 0 31, .cvdbL 0 31 0, .tlbRd 0 31 0, .cget 0 31 ⟨false, 0⟩],
      i.wellFormed = false := by decide
theorem test_wf_refuses_fields :
    ∀ i ∈ [Instr.ext 0 1 2 35 1, .ins 0 1 2 0 36, .mfs 0 1 26, .mts 0 26 1, .txnNext 0 30], i.wellFormed = false := by decide
theorem test_wf_refuses_mac_overlap :
    ∀ i ∈ [Instr.mac 0 31 0 2 0 3 1 1, .mac 0 4 0 2 0 2 1 1, .mac 0 4 0 4 0 2 1 1, .mac 0 4 0 5 0 2 1 1, .mac 0 4 0 2 0 4 1 1,
      .mac 0 4 0 2 0 5 1 1], i.wellFormed = false := by decide
theorem test_wf_refuses_decimal :
    ∀ i ∈ [Instr.dmulw 0 1 0, .dmulw 0 3 0, .ddiv 0 1 0 1 0, .dldw 0 0 0 (.off 0 0), .dstw 0 0 0 (.off 0 0), .daddm 0 0 0 (.off 0 0),
      .dsubm 0 0 0 (.off 0 0), .dcmpm 0 1 0 0 (.off 0 0), .dmulm 0 0 0 (.off 0 0), .dcas 0 1 0 2 (.offLong 0 0)],
      i.wellFormed = false := by decide
theorem test_wf_refuses_string_registers :
    ∀ i ∈ [Instr.movc 0 0 28 0 1 2, .movc 0 0 1 0 1 2, .fillc 0 0 3 4 3, .fillc 0 0 3 3 4], i.wellFormed = false := by decide
theorem test_wf_refuses_float :
    ∀ i ∈ [Instr.fadd 0 1 2 false 5, .fsub 0 1 2 false 6, .fmul 0 31 2 true 0, .fdiv 0 1 31 true 0, .fsqrt 0 31 2 true 0,
      .fcvtsl 0 31 1, .fcvtls 0 1 31 0, .fcvtfi 0 1 31 true 0, .fcvtif 0 31 1 true 0, .fneg 0 31 1 true, .fabs 0 1 31 true,
      .fcmp 0 1 31 2 true], i.wellFormed = false := by decide
theorem test_wf_refuses_capabilities :
    ∀ i ∈ [Instr.cmov 0 ⟨false, 8⟩ ⟨false, 1⟩, .cmov 0 ⟨false, 10⟩ ⟨false, 8⟩, .cclr 0 ⟨false, 10⟩, .csetb 0 ⟨false, 1⟩ ⟨false, 8⟩ 1 2,
      .candr 0 ⟨false, 12⟩ ⟨false, 1⟩ 1, .csetk 0 ⟨false, 1⟩ ⟨true, 10⟩ 1, .cget 0 1 ⟨false, 12⟩, .cld 0 ⟨false, 8⟩ (.off 0 0),
      .cst 0 ⟨false, 10⟩ (.off 0 0)], i.wellFormed = false := by decide

/-! ### Decoding: words written out from the encoding tables -/

/-- Formats P (R192), Y (R191: CALL, CALL.S), layouts S (R226), KM and TW (R288), C (R226) and the tail (R194). -/
theorem test_decode_words :
    decode 0 [0b10001010000111, 0b00000000000010] = some (.dpost 0 1 3 2 (.short 16386)) ∧
    decode 0 [0b11110101001110, 0, 5] = some (.dacc 0 2 7 5 (.long 5)) ∧
    decode 0 [0b01110000001110, 0, 0b00000001010000, 0, 3] = some (.call 0 5 3) ∧
    decode 0 [0b01110000001111, 0, 0b01010001000111] = some (.callS 0 5 2 7) ∧
    decode 0 [0b01111000001010, 0b00100000000000, 0b00100001000000] = some (.setkey 0 4 (.off 1 64)) ∧
    decode 0 [0b01111000010000, 0b00010000110000] = some (.tlbRd 0 2 3) ∧
    decode 0 [0b01100001110000, 0b00010001000000] = some (.ldc 0 3 (.idx 0 4)) ∧
    decode 0 [0b01100001110000, 0b00011001000000, 7] = some (.ldc 0 3 (.idxLong 0 4 7)) := by decide
/-- MINOR 31 of format X, MINOR 63 of format Y, a reserved position of CALL, of the index form and of SETKEY. -/
theorem test_decode_undefined :
    decode 0 [0b01100000111111] = none ∧ decode 0 [0o16077] = none ∧
    decode 0 [0b01110000001110, 0b00000100000000, 0b00000001010000, 0, 3] = none ∧
    decode 0 [0b01100001110000, 0b00010001000001] = none ∧
    decode 0 [0b01111000001010, 0b00100000000001, 0b00100001000000] = none := by decide

/-! ### A core that carries an instruction out -/

/-- A capability over the whole address space with every right. -/
def fullCap : Cap := { w0 := 0, w1 := 0o777777777740 }
def startRegs : CoreRegs := { CoreRegs.reset with k := Sparse.setList Cap.empty [] 0 (List.replicate 10 fullCap) }
/-- Core 0.0.0 runs, with instruction i fetched and registers changed by f. -/
def ready (i : Instr) (f : CoreRegs → CoreRegs) : State :=
  State.reset.setCore 0 { Core.reset with running := true, fetchQ := encode i, r := f startRegs }
def carried (i : Instr) (f : CoreRegs → CoreRegs) : Bool := ((ready i f).carries 0 i).isSome
/-- Wn with a value. -/
def withW (n : Reg) (v : Word) (r : CoreRegs) : CoreRegs := r.setW n v

/-- A core carries each instruction out: the hypotheses of FormatRResults, ImmediateResults, ThreeRegisterResults,
OneOperandShiftAndFieldResults and ConditionCodes. -/
theorem test_w_register_instructions_run :
    ∀ i ∈ [Instr.add 0 1 2, .sub 0 1 2, .and 0 1 2, .or 0 1 2, .mov 0 1 2, .ldi 0 1 2, .ldiL 0 1 2, .addi 0 1 2, .andi 0 1 2,
      .ori 0 1 2, .xori 0 1 2, .add3 0 1 2 3, .sub3 0 1 2 3, .and3 0 1 2 3, .or3 0 1 2 3, .xor3 0 1 2 3, .andn 0 1 2 3,
      .min 0 1 2 3, .max 0 1 2 3, .neg 0 1 2, .not 0 1 2, .popc 0 1 2, .clz 0 1 2, .shl 0 1 2 (.imm 3), .shrl 0 1 2 (.imm 3),
      .shra 0 1 2 (.imm 3), .rotl 0 1 2 (.imm 3), .ext 0 1 2 0 35, .ins 0 1 2 35 0, .cset 0 .lt 1 2 3, .cseti 0 .lt 1 2 3],
      carried i id = true := by decide +kernel
/-- The same for MultiplyAndDivideStart, DecimalUnitStarts and FloatOperationStarts. -/
theorem test_w_unit_starts_run :
    ∀ i ∈ [Instr.mul 0 1 2 3, .mulh 0 1 2 3, .mulhu 0 1 2 3, .div 0 1 2 3, .divu 0 1 2 3, .rem 0 1 2 3, .remu 0 1 2 3,
      .dmul 0 1 2, .dmulw 0 0 2, .ddiv 0 1 2 3 0, .drnd 0 1 2 0, .fadd 0 1 2 false 0, .fsub 0 1 2 true 0, .fmul 0 1 2 true 0,
      .fdiv 0 1 2 false 0, .fsqrt 0 1 2 true 0, .fcvtsl 0 1 2, .fcvtls 0 1 2 0, .fcvtfi 0 1 2 true 0, .fcvtif 0 1 2 true 0,
      .fneg 0 1 2 true, .fabs 0 1 2 false, .fcmp 0 1 2 3 true], carried i id = true := by decide +kernel
/-- The same for BranchTargets, SpecialRegisterAccess, HardwareLoopStart, BarriersAndControl and
BreakAndUndefinedEncodings. -/
theorem test_w_control_runs :
    ∀ i ∈ [Instr.cmpb 0 .eq 1 (.reg 2) 3, .cmpb 0 .ne 1 (.imm 2) 3, .br 0 3, .brL 0 3, .jr 0 1, .mfs 0 1 25, .mts 0 0 1, .mts 0 8 1,
      .mts 0 20 1, .mts 0 25 1, .loopOff 0, .nop 0, .isync 0, .msync 0, .fsync 0, .alarm 0 1, .alarmOff 0, .doorbell 0 255,
      .frec 0 1 2, .fclrt 0, .break_ 0 9, .home 0 1 2], carried i id = true := by decide +kernel
/-- The same for CapabilityRegisterOperations and CapabilityMemoryAndTlb. -/
theorem test_w_capability_instructions_run :
    ∀ i ∈ [Instr.cmov 0 ⟨false, 1⟩ ⟨false, 2⟩, .cclr 0 ⟨true, 1⟩, .csetb 0 ⟨false, 1⟩ ⟨false, 2⟩ 1 2, .candr 0 ⟨false, 1⟩ ⟨false, 2⟩ 1,
      .csetk 0 ⟨false, 1⟩ ⟨false, 2⟩ 1, .cget 0 1 ⟨false, 2⟩, .tlbInv 0 1, .tlbInva 0, .tlbLock 0 1, .tlbUnlk 0 1, .tlbRd 0 2 1],
      carried i id = true := by decide +kernel

/-- Divisors of zero and not; the most negative number. -/
theorem test_w_MultiplyAndDivideStart :
    (carried (.div 0 1 2 3) (withW 3 5) = true ∧ (withW 3 5 startRegs).wr 3 ≠ 0) ∧
    (carried (.remu 0 1 2 3) id = true ∧ startRegs.wr 3 = 0) := by decide +kernel

def withUnits (u : Beside) : State := State.reset.setCore 0 { Core.reset with u := u, running := true, r := startRegs }
def intOp : IntOp := { dest := 1, val := 7, due := 0 }
def decOp : DecOp := { writes := [(1, 7)], movf := true, due := 0 }
def fpOp : FpOp := { writes := [(1, 7)], flags := 1, traps := true, root := false, due := 0, record := [2 ^ 35] }
theorem test_w_UnitResults :
    ((withUnits { Beside.reset with mul := [intOp] }).core 0).u.mul = [intOp] ∧
    ((withUnits { Beside.reset with div := some intOp }).core 0).u.div = some intOp ∧
    ((withUnits { Beside.reset with dec := some decOp }).core 0).u.dec = some decOp ∧
    nextFp ((withUnits { Beside.reset with fp := [fpOp] }).core 0).u.fp = some fpOp ∧
    fpOp.due ≤ startRegs.cnt.clk ∧ fpOp.traps = true ∧ (Sparse.get 0 Beside.reset.trap 0).msb = false ∧
    (Sparse.get 0 (Sparse.set 0 [] 0 (2 ^ 35 : Word)) 0).msb = true := by decide +kernel

/-- A core at the end of a loop with count n. -/
def atLoopEnd (n : Word) : State :=
  ready (.nop 0) fun r => { r with sp := { r.sp with lcount := n, lend := 0 }, ctl := { r.ctl with lact := true } }
theorem test_w_InstructionEndFrame :
    ((atLoopEnd 2).regs 0).ctl.lact = true ∧ ((atLoopEnd 2).regs 0).sp.lend.toNat % 2 ^ 18 = ((atLoopEnd 2).core 0).pc ∧
    1 < ((atLoopEnd 2).regs 0).sp.lcount.toNat ∧ ¬ 1 < ((atLoopEnd 1).regs 0).sp.lcount.toNat ∧
    ((ready (.nop 0) id).regs 0).ctl.lact = false ∧
    ((ready (.nop 0) fun r => { r with shadow := some { left := 2, which := 0, old := 0, oldKc := Cap.empty } }).regs 0).shadow.isSome := by
  decide +kernel
theorem test_w_RegisterInstructionFrame :
    wordResult (.add 0 1 2) = some (0, 1) ∧ carried (.add 0 1 2) id = true ∧ wordResult (.mfs 0 1 2) = some (0, 1) := by decide +kernel
theorem test_w_SpecialRegisterAccess :
    carried (.mts 0 20 1) id = true ∧ (ready (.mts 0 20 1) id).queueHolds 0 = false := by decide +kernel

/-- n frames of 4 words. -/
def framed (n : Nat) (r : CoreRegs) : CoreRegs :=
  { r with frames := List.replicate n { set := false, ra := 5, mask := 3, regs := [8, 9] } }
/-- A mask of 32 registers needs 34 words: it fits beside 7 frames of 4, and no more beside 8. -/
theorem test_w_CallAndReturn :
    (carried (.call 0 5 0xFFFFFFFF) (framed 7) = true ∧ (framed 7 startRegs).fsp + ((maskRegs 0xFFFFFFFF).length + 2) = 62) ∧
    (carried (.call 0 5 0xFFFFFFFF) (framed 8) = true ∧ 64 < (framed 8 startRegs).fsp + ((maskRegs 0xFFFFFFFF).length + 2)) ∧
    (carried (.callS 0 5 1 3) id = true ∧ carried (.callr 0 4 1 3) id = true ∧
      startRegs.fsp + ((maskRegs (rangeMask 1 3)).length + 2) ≤ 64) ∧
    (carried (.ret 0) (framed 1) = true ∧ (framed 1 startRegs).frames.getLast? = some { set := false, ra := 5, mask := 3, regs := [8, 9] } ∧
      (maskRegs 3).length = 2) ∧
    (carried (.ret 0) id = true ∧ startRegs.fsdepth startRegs.ctl.exl = 0) ∧
    (carried (.ret 0) (fun r => { r with sp := { r.sp with fsdepth0 := 1 } }) = true) := by decide +kernel

def okAccess {α : Type} (r : Except Act α) : Bool := match r with | .ok _ => true | .error _ => false
/-- What f says of the instruction's progress and the state once core 0 carries it out. -/
def whenCarried (s : State) (i : Instr) (f : Cur → State → Bool) : Bool := (s.carries 0 i).any fun e => f e.1 e.2
def reads (i : Instr) (f : CoreRegs → CoreRegs) (os : List Operand) : Bool :=
  whenCarried (ready i f) i fun x s => okAccess (s.tryRead 0 x 0 os)
def stores (i : Instr) (f : CoreRegs → CoreRegs) (o : Operand) (n : Nat) : Bool :=
  whenCarried (ready i f) i fun x s => okAccess (s.tryStore 0 x 0 [o] .write false (List.replicate n 0))
/-- W4 points n characters into scratch. -/
def atScratch (n : Nat) : CoreRegs → CoreRegs := withW 4 (BitVec.ofNat 36 (scratchBase + n))
def window (n len align : Nat) (need : Need) : Operand :=
  { cap := fullCap, va := scratchBase + n, len := len, align := align, need := need }

theorem test_w_StepIdlesOnEmptyQueue : State.reset.pending = [] ∧ (ready (.nop 0) id).pending = [] := by decide +kernel
theorem test_w_CommandsLeaveQueueAlone : exec .pwrOkFall State.reset = .next State.reset := rfl

/-- A burn of SVN 64, the last fuse, is under way. -/
def burningState : State :=
  { State.reset with h := { Hub.reset with burning := some { fields := [.svn 64], patch := .reset } } }
theorem test_w_FuseInvariantKept : burningState.fuseInv ∧ step burningState = .next burningState := by
  refine ⟨⟨by decide, fun b h n hn => ?_⟩, rfl⟩
  cases h
  simp only [List.mem_singleton, FuseField.svn.injEq] at hn
  subst hn
  decide
theorem test_w_FusesNeverUnburn : ∃ t, exec .mbxComplete burningState = .next t ∧ t.h.fuses.patchSvn ≤ 64 := by
  refine ⟨_, rfl, ?_⟩
  decide +kernel
theorem test_w_EncodingRoundTrip :
    ([Instr.nop 0, .call 0 5 3, .dpost 0 1 3 2 (.long 5), .ldw 0 31 (.idxLong 7 31 0x3FFF), .fsqrt 0 30 30 true 7].all
      fun i => i.wellFormed && decide (encode i ≠ [])) = true := by decide
theorem test_w_DecodedInstructionsReencode :
    decode 0 [0b01100001110000, 0b00011001000000, 7, 9] = some (.ldc 0 3 (.idxLong 0 4 7)) := by decide
theorem test_w_OneOperandShiftAndFieldResults :
    (0#6).toNat + (35#6).toNat + 1 ≤ 36 ∧ (35#6).toNat + (0#6).toNat + 1 ≤ 36 ∧
    carried (.ext 0 1 2 0 35) id = true ∧ carried (.ins 0 1 2 35 0) id = true ∧ carried (.shl 0 1 2 (.reg 3)) id = true := by
  decide +kernel
theorem test_w_ConditionCodes : carried (.cset 0 .none 1 2 3) id = true ∧ carried (.cseti 0 .any 1 2 0x3FFF) id = true := by
  decide +kernel

/-- The spill area at n characters into scratch, with depth d. -/
def spilled (n : Nat) (d : Word) (r : CoreRegs) : CoreRegs :=
  { r with sp := { r.sp with fsmem0 := BitVec.ofNat 36 (scratchBase + n), fsdepth0 := d } }
theorem test_w_SpillAndFill :
    stores (.fspill 0) (fun r => framed 2 (spilled 0 0 r)) (window 0 16 4 .store) 16 = true ∧
    carried (.fspill 0) id = true ∧ carried (.ffill 0) id = true ∧
    whenCarried (ready (.ffill 0) (spilled 8 1)) (.ffill 0) (fun x s =>
      match s.tryRead 0 x 0 [window 4 4 4 .load] with
      | .ok (x1, h) => decide ((BitVec'.pos (Word.ofChars h) 0 6).toNat = 0) && okAccess (s.tryRead 0 x1 1 [window 0 8 4 .load])
      | .error _ => false) = true := by decide +kernel
/-- A length of the last instruction of 0 and 7; λ = B = 6; counts of 0 and more. -/
theorem test_w_HardwareLoopStart :
    (∀ i ∈ [Instr.loop 0 3 0 6, .loop 0 3 7 7, .loop 0 3 6 5, .loopr 0 4 0 6, .loop 0 0 6 6, .loop 0 1 6 6, .loopr 0 4 6 6],
      carried i id = true) ∧ startRegs.ctl.lact = false ∧ startRegs.wr 4 = 0 ∧ carried (.loopr 0 4 1 1) (withW 4 1) = true ∧
    carried (.loop 0 3 1 1) (fun r => { r with ctl := { r.ctl with lact := true } }) = true := by decide +kernel
/-- KC over the whole code store and beyond it; the last address of the store and the first behind it. -/
theorem test_w_BarriersAndControl :
    (ready (.msync 0) id).accesses = [] ∧ ((ready (.fsync 0) id).core 0).u.fp = [] ∧
    (carried (.codeWr 0 4 5) (withW 4 262143) = true ∧ startRegs.govKc.write = true ∧ startRegs.govKc.covers 262143 1 = true ∧
      startRegs.govKc.covers 262144 1 = true ∧ carried (.codeWr 0 4 5) (withW 4 262144) = true) ∧
    (let f (r : CoreRegs) : CoreRegs := withW 4 2 (r.setCap 8 (Cap.readWrite 0 2))
     carried (.codeWr 0 4 5) f = true ∧ (f startRegs).govKc.write = true ∧ (f startRegs).govKc.covers 2 1 = false) ∧
    (let f (r : CoreRegs) : CoreRegs := r.setCap 8 { fullCap with w1 := fullCap.w1 &&& ~~~(2 ^ 10) }
     carried (.codeWr 0 4 5) f = true ∧ (f startRegs).govKc.write = false) := by decide +kernel
theorem test_w_BreakAndUndefinedEncodings :
    let s := State.reset.setCore 0 { Core.reset with running := true, fetchQ := [0o16077, 0, 0, 0, 0, 0], r := startRegs }
    decode 0 (s.core 0).fetchQ = none ∧ lengthOf (s.core 0).fetchQ = 1 ∧ s.fetchIs 0 [0o16077] = .ready ∧
    carried (.break_ 0 7) id = true := by decide +kernel
def levels (exl bk1 : Bool) (r : CoreRegs) : CoreRegs := { r with ctl := { r.ctl with exl := exl, bk1 := bk1 } }
theorem test_w_ReturnsFromEntries :
    carried (.eret 0) (levels true false) = true ∧ carried (.eret 0) id = true ∧ carried (.eret 0) (levels true true) = true ∧
    carried (.pret 0) (levels false true) = true ∧ carried (.pret 0) id = true := by decide +kernel
theorem test_w_ExceptionEntries :
    (∀ e ∈ [(false, false), (false, true), (true, false), (true, true)],
      ((ready (.nop 0) (levels e.1 e.2)).regs 0).ctl.exl = e.1 ∧ ((ready (.nop 0) (levels e.1 e.2)).regs 0).ctl.bk1 = e.2) ∧
    (startRegs.shadow = none) ∧ (startRegs.startShadow 3 0 fullCap).shadow.isSome := by decide +kernel
def asking (p : Nat) (r : CoreRegs) : CoreRegs :=
  { r with sp := { r.sp with ipend := BitVec'.setAt 0 p true, ien := BitVec'.setAt 0 p true } }
theorem test_w_InterruptTaken :
    ((ready (.nop 0) (asking 32)).core 0).takeable = some .alarm ∧ ((ready (.nop 0) (asking 31)).core 0).takeable = some .aborted ∧
    ((ready (.nop 0) (asking 35)).core 0).takeable = some .doorbell ∧ ((ready (.nop 0) (asking 33)).core 0).takeable = some .hub ∧
    (let k := { (ready (.nop 0) (asking 35)).core 0 with tvPend := some 7, cur := some { Cur.begin (.txnWait 0) with soft := true } }
     k.takeable = some .target ∧ k.live = true ∧ { Cur.begin (.txnWait 0) with soft := true }.retrying = true) := by decide +kernel
/-- The last word of a cluster's scratch, and an unaligned one. -/
theorem test_w_LoadsComplete :
    reads (.ldc 0 1 (.idx 0 4)) (atScratch 262143) [window 262143 1 1 .load] = true ∧
    reads (.ldw 0 1 (.idx 0 4)) (atScratch 262140) [window 262140 4 1 .load] = true ∧
    reads (.ldw 0 1 (.idx 0 4)) (atScratch 63) [window 63 4 1 .load] = true ∧
    reads (.ldp 0 1 (.idx 0 4)) (atScratch 60) [window 60 8 4 .load] = true ∧
    reads (.mac 0 1 0 4 1 5 3 3) (fun r => withW 5 (BitVec.ofNat 36 (scratchBase + 4)) (atScratch 0 r))
      [window 0 4 4 .load, window 4 4 4 .load] = true := by decide +kernel
theorem test_w_StoresComplete :
    stores (.stc 0 1 (.idx 0 4)) (atScratch 262143) (window 262143 1 1 .store) 1 = true ∧
    stores (.stw 0 1 (.idx 0 4)) (atScratch 64) (window 64 4 1 .store) 4 = true ∧
    stores (.stw 0 1 (.idx 0 4)) (atScratch 62) (window 62 4 1 .store) 4 = true ∧
    stores (.stp 0 1 (.idx 0 4)) (atScratch 60) (window 60 8 4 .store) 8 = true := by decide +kernel
theorem test_w_ScratchAccess :
    (Cur.begin (.nop 0)).rounds = [] ∧ fullCap.covers (scratchBase + 262140) 4 = true ∧ fullCap.read = true ∧ fullCap.write = true ∧
    (State.reset.cluster 0).scratchBad = [] ∧ (State.reset.cluster 0).scratchCe = [] ∧
    ∀ line ∈ [0, 4095], (State.reset.scratchInfo 0 line).poison = false ∧ (State.reset.scratchInfo 0 line).capline = false := by
  decide +kernel

def withD (x : DReg) (v : Int) (r : CoreRegs) : CoreRegs := r.setD x v
/-- Sums and products of 62 digits and just beyond; words and pairs at the ends of their range. -/
theorem test_w_DecimalRegisterArithmetic :
    (carried (.dadd 0 1 2) (withD 1 (10 ^ 62 - 1)) = true ∧ carried (.dadd 0 1 2) (fun r => withD 2 1 (withD 1 (10 ^ 62 - 1) r)) = true) ∧
    (carried (.dsub 0 1 2) (withD 1 (1 - 10 ^ 62)) = true ∧ carried (.dsub 0 1 2) (fun r => withD 2 1 (withD 1 (1 - 10 ^ 62) r)) = true) ∧
    (∀ i ∈ [Instr.dcmp 0 3 1 2, .dmov 0 1 2, .dneg 0 1, .dabs 0 1, .dclr 0 1, .cvbd 0 1 31, .cvbdL 0 1 30], carried i id = true) ∧
    (carried (.dshl 0 1 61) (withD 1 9) = true ∧ carried (.dshl 0 1 62) (withD 1 1) = true) ∧
    (carried (.cvdb 0 3 1) (withD 1 (2 ^ 35 - 1)) = true ∧ carried (.cvdb 0 3 1) (withD 1 (2 ^ 35)) = true) ∧
    (carried (.cvdbL 0 30 1) (withD 1 (-2 ^ 71)) = true ∧ carried (.cvdbL 0 30 1) (withD 1 (-2 ^ 71 - 1)) = true) := by decide +kernel
theorem test_w_DecimalUnitStarts :
    carried (.ddiv 0 1 2 3 0) (withD 2 7) = true ∧ carried (.ddiv 0 1 2 3 0) id = true ∧ startRegs.dr 2 = 0 ∧
    carried (.dmul 0 1 2) (withD 1 (10 ^ 62 - 1)) = true ∧ carried (.drnd 0 1 63 7) (withD 1 (-5)) = true := by decide +kernel
/-- Fields of 1 and 7 words: a valid and an invalid one, and values that just fit and do not. -/
theorem test_w_PackedFieldInstructions :
    (∀ i ∈ [Instr.dldw 0 1 1 (.idx 0 4), .daddm 0 1 1 (.idx 0 4), .dsubm 0 1 1 (.idx 0 4), .dcmpm 0 1 3 1 (.idx 0 4),
      .dmulm 0 1 1 (.idx 0 4)], reads i (atScratch 60) [window 60 4 4 .load] = true) ∧
    packedValue (wordsOfChars ((packWords 1 (-99999999)).flatMap Word.chars)) = some (-99999999) ∧ packedValue [0xFFFFFFFFF#36] = none ∧
    stores (.dstw 0 1 1 (.idx 0 4)) (fun r => withD 1 (10 ^ 8 - 1) (atScratch 60 r)) (window 60 4 4 .store) 4 = true ∧
    whenCarried (ready (.dstw 0 1 1 (.idx 0 4)) fun r => withD 1 (10 ^ 8) (atScratch 60 r)) (.dstw 0 1 1 (.idx 0 4)) (fun x s =>
      match s.checkOperand 0 x.xlat (window 60 4 4 .store) with
      | .ok _ => true
      | _ => false) = true := by decide +kernel
/-- Lengths of 0, 1, 64 and 65; a value that just fits in its field, and one that does not. -/
theorem test_w_NumberConversions :
    (carried (.cvcd 0 1 2 0 4) id = true ∧ carried (.cvcd 0 1 2 0 4) (withW 2 65) = true) ∧
    (∀ n ∈ [1, 64], reads (.cvcd 0 1 2 0 4) (fun r => withW 2 (BitVec.ofNat 36 n) (atScratch 3 r)) [window 3 n 0 .load] = true) ∧
    carried (.cvdc 0 1 2 0 4) id = true ∧
    stores (.cvdc 0 1 2 0 4) (fun r => withD 1 99 (withW 2 2 (atScratch 3 r))) (window 3 2 0 .store) 2 = true ∧
    whenCarried (ready (.cvdc 0 1 2 0 4) fun r => withD 1 100 (withW 2 2 (atScratch 3 r))) (.cvdc 0 1 2 0 4) (fun x s =>
      match s.checkOperand 0 x.xlat (window 3 2 0 .store) with
      | .ok _ => true
      | _ => false) = true := by decide +kernel
/-! ### Transactions, accesses and claims -/

/-- A large page that maps address 0 of the partition to die 0, of the region kind given, with every right. -/
def page (kind : BitVec 2) : TlbEntry :=
  { v := true, lk := false, lg := true, rd := true, wr := true, pst := true, cp := true, se := true, kind := kind, rf := false, vpn := 0,
    frame := 0 }
/-- Core 0 carries i and holds slot 5 of die 0 with contents v, of partition 0; its TLB holds the page. -/
def inTxn (kind : BitVec 2) (v : Slot) (i : Instr) (f : CoreRegs → CoreRegs) : State :=
  (((ready i f).updCore 0 fun k => { k with txn := some 5, tlb := [(0, page kind)] }).updCluster 0
    fun z => { z with part := some 0 }).setSlot 0 5 v
def held (st : SlotSt) (claims : List ClaimReg) : Slot :=
  { Slot.reset with st := st, core := some 0, claims := claims, pos := ⟨1, 2, 3⟩ }
def onLine (n : Nat) (granted : Bool) : ClaimReg := { die := 0, line := n, lines := [n], granted := granted }
def runs (s : State) (i : Instr) : Bool := whenCarried s i fun _ _ => true
def passes {α : Type} (r : OperChk) (f : List (AccPart × Option TlbEntry) → α) (d : α) : α := match r with | .ok l => f l | _ => d
def withPlan (f : Plan → Plan) (s : State) : State := s.updPlan fun y => { y with eff := some (f Plan.empty) }
/-- A plan in which partition 0 has two homes. -/
def homed (s : State) : State := withPlan
  (fun z => { z with parts := [(0, { PlanPart.reset with homes := [0, 1], vbase := [0, 4096], clusters := 1 })] }) s

/-- Account 0 of one account, and account 1; a slot to take, the earlier of two; claims granted and not. -/
theorem test_w_TransactionStart :
    (let s := homed (inTxn 1 (held .taken []) (.home 0 1 2) id)
     s.partOf 0 = some 0 ∧ runs s (.home 0 1 2) = true ∧ ((s.regs 0).wr 2).toNat < s.paramN 81 0 1 ∧
       ¬ ((withW 2 1 (s.regs 0)).wr 2).toNat < s.paramN 81 0 1) ∧
    (let s := inTxn 1 (held .taken []) (.txnNext 0 1) id
     let z := (s.updCore 0 fun k => { k with txn := none }).setSlot 0 5 { held .queued [] with pos := ⟨0, 2, 3⟩ }
     let y := z.setSlot 0 9 { held .queued [] with pos := ⟨0, 2, 4⟩ }
     runs s (.txnNext 0 1) = true ∧ (s.core 0).txn.isSome = true ∧ (z.setSlot 0 5 .reset).takeableSlots 0 0 = [] ∧
       runs (z.setSlot 0 5 .reset) (.txnNext 0 1) = true ∧ y.takeableSlots 0 0 = [5, 9] ∧
       (y.slot 0 5).pos.before (y.slot 0 9).pos = true ∧ runs y (.txnNext 0 1) = true) ∧
    (∀ g ∈ [true, false], runs (inTxn 1 (held .declared [onLine 0 g]) (.txnWait 0) id) (.txnWait 0) = true) := by decide +kernel

/-- A claim list of n entries, all of line 0, at the start of scratch. -/
def listed (n : Nat) (s : State) : State := s.scratchWrite 0 0 (Word.chars (BitVec.ofNat 36 (n * 2 ^ 31 + 2 * 2 ^ 28)))
def claimable (n : Nat) (wide : Bool) : Bool :=
  let i : Instr := if wide then .txnClaimx 0 (.idx 0 4) else .txnClaim 0 (.idx 0 4)
  whenCarried (listed n (inTxn 1 (held .taken []) i (atScratch 0))) i fun x s =>
    match s.tryRead 0 x 0 [window 0 4 4 .load] with
    | .ok (x1, h) => decide ((Word.ofChars h).toNat / 2 ^ 31 = n) &&
      (match s.tryRead 0 x1 1 [window 4 (4 * n) 4 .load] with
      | .ok (x2, l) => passes (s.checkOperands 0 x2.xlat (claimOperands fullCap 1 (wordsOfChars l))) (fun _ => true) false
      | .error _ => false)
    | .error _ => false
theorem test_w_ClaimDeclaration :
    claimable 1 false = true ∧ claimable 8 false = true ∧ claimable 16 true = true ∧
    carried (.txnClaim 0 (.idx 0 4)) id = true ∧ carried (.txnClaimx 0 (.idx 0 4)) id = true := by decide +kernel

/-- FW 1 and no check. -/
def control : Word := BitVec.ofNat 36 (2 ^ 33)
def postable (i : Instr) (v : Slot) (f : State → List AccPart → Bool) : Bool :=
  whenCarried (inTxn 1 v i (withW 3 control)) i fun x s =>
    passes (s.checkOperand 0 x.xlat { cap := fullCap, va := 0, len := 4, align := 4, need := .post }) (fun l => f s (l.map Prod.fst)) false
theorem test_w_PostingInstructions :
    (∀ i ∈ [Instr.dpost 0 1 3 0 (.short 0), .dcas 0 1 2 3 (.off 0 0)],
      postable i (held .granted [onLine 0 true]) (fun s l => !s.txnAborted 0 && !s.ungranted 0 l) = true ∧
      postable i (held .declared [onLine 0 false]) (fun s l => !s.txnAborted 0 && s.ungranted 0 l) = true ∧
      postable i (held .aborted [onLine 0 true]) (fun s _ => s.txnAborted 0) = true) ∧
    postWidth control 0 = 4 ∧ badControl control 0 true = false ∧ badControl 0 0 true = true ∧
    (∀ n ∈ [0, 15, 16], whenCarried (inTxn 2 { held .declared [] with acc := List.replicate n ⟨0, 0, 0, 1, 1, 0, 0, false, false⟩ }
      (.dacc 0 1 3 0 (.short 0)) (withW 3 control)) (.dacc 0 1 3 0 (.short 0)) (fun x s =>
        passes (s.checkOperand 0 x.xlat { cap := fullCap, va := 0, len := 4, align := 4, need := .dacc })
          (fun l => l.any fun q => (s.target 0 0 q.1.pa).isSome) false) = true) := by decide +kernel

/-- A body of the least and of the greatest length; a transaction with every claim granted; outcomes already known. -/
theorem test_w_TransactionEnd :
    (∀ i ∈ [Instr.txnRespond 0 2 (.idx 0 4), .txnCommit 0 1, .txnAbort 0 1], carried i id = true) ∧
    (∀ n ∈ [1, 2048], whenCarried (inTxn 1 { held .taken [] with org := { Origin.none with host := true } } (.txnRespond 0 2 (.idx 0 4))
      fun r => withW 2 (BitVec.ofNat 36 n) (atScratch 0 r)) (.txnRespond 0 2 (.idx 0 4)) (fun x s =>
        okAccess (s.tryRead 0 x 0 [window 0 n 0 .load]) && (s.placeResponse 0 5 (List.replicate n 0)).isSome) = true) ∧
    (let s := inTxn 1 (held .granted [onLine 0 true]) (.txnCommit 0 1) id
     runs s (.txnCommit 0 1) = true ∧ s.storesOut 0 = false ∧ ((s.slot 0 5).claims.all ClaimReg.granted) = true) ∧
    (∀ i ∈ [Instr.txnCommit 0 1, .txnAbort 0 1], runs (inTxn 1 { held .aborted [] with outcome := some .curfew } i id) i = true) := by
  decide +kernel

def strReady (i : Instr) (n : Nat) (f : CoreRegs → CoreRegs) : State :=
  ready i fun r => f (withW 2 (BitVec.ofNat 36 (scratchBase + 100)) (withW 3 (BitVec.ofNat 36 n) (atScratch 0 r)))
def strFill : Instr := .fillc 0 0 4 3 5
def strMove : Instr := .movc 0 0 4 0 2 3
def fillOp (n : Nat) : StrOp := fillcOp 0 strFill (strOperand fullCap (BitVec.ofNat 36 scratchBase) (BitVec.ofNat 36 n).toNat .store) 0
def moveOp (n : Nat) : StrOp :=
  movcOp 0 strMove (strOperand fullCap (BitVec.ofNat 36 scratchBase) n .store) (strOperand fullCap (BitVec.ofNat 36 (scratchBase + 100)) n .load)
/-- FILLC and MOVC over 9 characters run to their end; MOVC resumed from the words of R250 does. -/
theorem test_w_StringInstructionRuns :
    (∀ e ∈ [(strFill, fillOp 9), (strMove, moveOp 9)],
      checkString e.2.operands = none ∧ e.2.empty = none ∧ e.2.ended .zero = false ∧
      whenCarried (strReady e.1 9 id) e.1 (fun x s =>
        !x.begun && (e.2.units 0 (unitBound 9) { x with begun := true } s).isSome) = true) ∧
    (let f (r : CoreRegs) : CoreRegs :=
       { (withW 31 (stateWord strFill) r) with ctl := { r.ctl with sres := true } }
     let r := (strReady strFill 9 f).regs 0
     let w (n : Nat) := Sparse.get 0 r.w n
     runs (strReady strFill 9 f) strFill = true ∧ r.ctl.sres = true ∧ w 31 = stateWord strFill ∧
       progWords strFill (wordsProg strFill (w 28) (w 29) (w 30)) = (w 28, w 29, w 30) ∧
       (fillOp 9).valid (wordsProg strFill (w 28) (w 29) (w 30)) = true) := by decide +kernel
theorem test_w_FillcInScratch :
    runs (strReady strFill 9 id) strFill = true ∧ ((strReady strFill 9 id).regs 0).ctl.sres = false ∧ fullCap.write = true ∧
    fullCap.covers scratchBase 9 = true ∧ ((strReady strFill 9 id).core 0).cur = none ∧
    ((strReady strFill 9 id).core 0).takeable = none := by decide +kernel
/-- One in both formats; numerators of one bit and of one bit more than the precision. -/
theorem test_w_FloatOperationStarts :
    carried (.fadd 0 2 4 true 0) (withW 2 (BitVec.ofNat 36 (1023 * 2 ^ 24))) = true ∧ bitLen 1 = 1 ∧ bitLen (2 ^ 61) = 62 ∧
    (1 : Int) - FFmt.long.bias ≤ 0 + 1 - 1 ∧ (0 : Int) + 62 - 1 ≤ FFmt.long.bias ∧ FFmt.long.p = 61 ∧ FFmt.short.p = 28 ∧
    FFmt.short.value (BitVec.ofNat 36 (127 * 2 ^ 27)).toNat = .fin false (2 ^ 27) (-27) ∧
    FFmt.long.value ((withW 2 (BitVec.ofNat 36 (1023 * 2 ^ 24)) startRegs).fpIn true 2) = .fin false (2 ^ 60) (-60) := by
  decide +kernel

/-! ### Capabilities, accesses in flight and claims -/

def kc (n : BitVec 4) : CapNum := ⟨false, n⟩
/-- K2 covers 100 characters from 1,000 with key 3. -/
def smallCap : Cap := { w0 := 1000, w1 := (Cap.readWrite 1000 100).w1 ||| 3 }
/-- The last base and length that fit, one beyond, and a base beyond 2^36. -/
theorem test_w_CapabilityRegisterOperations :
    (let f (b l : Nat) (r : CoreRegs) : CoreRegs := withW 1 (BitVec.ofNat 36 b) (withW 2 (BitVec.ofNat 36 l) (r.setCap 2 smallCap))
     carried (.csetb 0 (kc 1) (kc 2) 1 2) (f 40 60) = true ∧ smallCap.base + 40 + 60 = smallCap.top ∧ lexpOf 60 = 0 ∧
       smallCap.top < smallCap.base + 40 + 61 ∧ carried (.csetb 0 (kc 1) (kc 2) 1 2) (f 40 61) = true ∧
       2 ^ 36 ≤ smallCap.base + (2 ^ 36 - 1000)) ∧
    (let f (m : Word) (r : CoreRegs) : CoreRegs := withW 1 m (r.setCap 2 smallCap)
     smallCap.key = 3 ∧ (∀ n ∈ [3, 4], carried (.csetk 0 (kc 1) (kc 2) 1) (f (BitVec.ofNat 36 n)) = true) ∧ fullCap.key = 0) := by
  decide +kernel
/-- The second line of scratch is a capability line. -/
def capLine (i : Instr) : State := (ready i (atScratch 64)).setScratchInfo 0 1 { LineMeta.reset with capline := true }
/-- n locked pages. -/
def locked (n : Nat) : State :=
  (ready (.tlbLock 0 2) id).updCore 0 fun k => { k with tlb := (List.range n).map fun j => (j, { page 1 with lk := true, vpn := 256 }) }
/-- KS without SYS; a page to lock; seven and eight locked pages. -/
theorem test_w_CapabilityMemoryAndTlb :
    whenCarried (capLine (.cld 0 (kc 1) (.idx 0 4))) (.cld 0 (kc 1) (.idx 0 4))
      (fun x s => okAccess (s.tryRead 0 x 0 [window 64 8 8 .cld])) = true ∧
    whenCarried (capLine (.cst 0 (kc 1) (.idx 0 4))) (.cst 0 (kc 1) (.idx 0 4))
      (fun x s => okAccess (s.tryStore 0 x 0 [window 64 8 8 (.cst true)] .cst true (List.replicate 8 0))) = true ∧
    whenCarried (capLine (.capln 0 (.idx 0 4))) (.capln 0 (.idx 0 4))
      (fun x s => okAccess (s.tryStore 0 x 0 [window 64 64 64 .line] (.wholeLine true) true (List.replicate 64 0))) = true ∧
    (carried (.tlbInv 0 1) (fun r => r.setCap 9 (Cap.readWrite 0 1)) = true ∧ (Cap.readWrite 0 1).sys = false ∧
      (startRegs.cap 9).sys = true) ∧
    (page 1).maps 0 = true ∧ (page 1).rf = false ∧ runs (inTxn 1 (held .taken []) (.tlbLock 0 2) id) (.tlbLock 0 2) = true ∧
    runs (inTxn 1 (held .taken []) (.tlbUnlk 0 2) id) (.tlbUnlk 0 2) = true ∧
    (∀ n ∈ [7, 8], runs (locked n) (.tlbLock 0 2) = true ∧
      ((List.range 32).filter fun j =>
        let e := Sparse.get TlbEntry.reset ((locked n).core 0).tlb j
        e.v && e.lk).length = n ∧ ({ page 1 with lk := true, vpn := 256 }).maps 0 = false) := by decide +kernel

/-- A plan whose one region, lines 0 to 9 of die 0, is of the kind given; gate 0 admits partition 0 to it. -/
def aRegion (kind : Nat) : Region :=
  { part := 0, die := 0, slot := 0, kind := kind, flags := 15, key := 0, first := 0, last := 9 }
def aRule (kind : BitVec 2) : Rule :=
  { en := true, lock := false, kind := kind, rd := true, wr := true, pst := true, pmask := BitVec.allOnes 16, first := 0, last := 9 }
def mapped (kind : Nat) (s : State) : State :=
  (withPlan (fun z => { z with regions := [aRegion kind], parts := [(0, { PlanPart.reset with clusters := 1 })] }) s).setGate 0
    { Gate.reset with bank0 := [(0, aRule (BitVec.ofNat 2 kind))] }
def aPart (pa : Nat) (claimed : Bool) (key : BitVec 4) : AccPart :=
  { va := pa, pa := pa, len := 4, scratch := false, whole := true, claimed := claimed, void := false, key := key, sys := false,
    data := [1, 2, 3, 4], bank := false, slot := 0, cleared := false, refused := none, resp := none }
def anAccess (op : AccOp) (posted : Bool) (st : AccSt) (q : AccPart) : Access :=
  { id := 0, core := 0, op := op, part := 0, posted := posted, slot := some 5, parts := [q], arrival := 1, held := false, waited := false, st := st }
def flying (kind : Nat) (a : Access) : State :=
  mapped kind { inTxn 1 (held .granted [onLine 0 true]) (.nop 0) id with accesses := [a], nextId := 1 }
def answers (o : Host.Outcome State Fault Refusal) (f : State → Bool) : Bool := match o with | .next t => f t | _ => false
theorem test_w_AccessPath :
    (let s (q : AccPart) := flying 1 (anAccess .read false .sent q)
     let a (q : AccPart) := anAccess .read false .sent q
     (s (aPart 0 true 0)).heldBack (a (aPart 0 true 0)) = false ∧ (s (aPart 0 true 0)).sentBehind (a (aPart 0 true 0)) = false ∧ ((s (aPart 0 true 0)).partVerdict (a (aPart 0 true 0)) (aPart 0 true 0)).reason = 0 ∧
       ((s (aPart 640 true 0)).partVerdict (a (aPart 640 true 0)) (aPart 640 true 0)).reason ≠ 0) ∧
    (∀ op ∈ [AccOp.read, .write], let a := anAccess op (decide (op = .write)) .admitted (aPart 4 true 0)
      let s := flying 1 a
      s.findAccess 0 = some a ∧ s.target 0 0 4 = some (0, 0) ∧ s.alive 0 = true ∧ s.earlierOut a 0 4 = false ∧
        s.underRepair 0 0 = false ∧ s.rowWaits 0 0 = false ∧ s.lineKey 0 0 = 0 ∧ (s.lineInfo 0 0).poison = false ∧ (s.lineInfo 0 0).capline = false ∧
        s.regionOf 0 0 0 = some (aRegion 1) ∧ s.needsImage 0 0 (s.ownImage 0 5) = true ∧ s.imageRoom 0 = true ∧
        (s.partn 0).joinEpoch = none) ∧
    (let g : Image := ⟨0, 0, 3, none, false, List.replicate 64 1, .reset, []⟩
     let s := (flying 1 (anAccess .read false .admitted (aPart 4 false 0))).updDie 0 fun e => { e with m := { e.m with images := [g] } }
     s.imageAfter 0 0 (s.visibleAt 0 0) = some g ∧ g.info.poison = false ∧ g.hurt = []) ∧
    ((flying 0 (anAccess .write true .admitted (aPart 4 false 0))).regionOf 0 0 0 = some (aRegion 0)) ∧
    (let x := { Cur.begin (.ldw 0 1 (.off 0 0)) with acc := some 0 }
     let a := anAccess .read false .admitted { aPart 0 true 0 with resp := some [0, 0, 0, 7] }
     let s := (flying 1 a).updCore 0 fun k => { k with cur := some x }
     answers (exec (.memoryResponse 0 3) s) (fun t => decide ((t.regs 0).wr 1 = 7)) = true) ∧
    (let a := anAccess .write true (.failed .gateViolation 4) (aPart 4 false 0)
     answers (exec (.targetViolation 0) (flying 1 a)) (fun t => decide ((t.core 0).tvPend = some 4)) = true) ∧
    (let x := { Cur.begin (.nop 0) with walk := some 0 }
     let s := ((mapped 1 (inTxn 1 (held .taken []) (.nop 0) id)).updCore 0 fun k => { k with cur := some x }).updCluster 0
       fun z => { z with walks := [(0, 0)] }
     match s.walk 0 0 0 .clean .clean with | some (_, .error _) => true | _ => false) = true := by decide +kernel

/-- A posting operation on a field of zeros with a valid sign, and one on an invalid field. -/
def field8 (v : Int) (s : State) : State := s.putChars 0 0 0 ((packWords 1 v).flatMap Word.chars)
def posting (x : Int) : State := field8 99999990 (flying 1 (anAccess (.dpost control x) false .admitted (aPart 0 true 0)))
def accumulating (v : Int) : State :=
  field8 v ((mapped 2 State.reset).updDie 0 fun e => { e with m := { e.m with dacc := [(0, 0, 0, ⟨0, 0, 0, 1, 3, 0, 0, false, false⟩)] } })
theorem test_w_PostingUnit :
    (∀ x ∈ [(9 : Int), 10], let s := posting x
      let a := anAccess (.dpost control x) false .admitted (aPart 0 true 0)
      s.findAccess 0 = some a ∧ s.rowWaits 0 0 = false ∧ s.underRepair 0 0 = false ∧ a.op.ctl = some (control, false) ∧ badControl control 0 false = false ∧
        ((postOutcome a.op 0 (s.lineChars 0 0)).2.2 = if x = 9 then some 99999999 else none) ∧
        s.storeNeedsRoom a { aPart 0 true 0 with claimed := true } 0 0 = false) ∧
    badControl 0 0 false = true ∧
    (let x := { Cur.begin (.dpost 0 1 3 0 (.short 0)) with acc := some 0 }
     let s := (flying 1 (anAccess (.dpost control 1) false (.posted 0 7) (aPart 0 true 0))).updCore 0 fun k => { k with cur := some x }
     answers (exec (.postingResult 0 4) s) (fun t => decide ((t.regs 0).dr 1 = 7)) = true) ∧
    (let s := accumulating 5
     (s.verdict { part := 0, die := 0, sys := false, anyPart := false } 0 .acc true).reason = 0 ∧
       packedValue (lineWords (s.lineChars 0 0) 0 1) = some 5 ∧ (s.die 0).m.dacc.length = 1 ∧ s.outerWaits 0 0 = false ∧ s.imageRoom 0 = true ∧
       answers (exec (.daccApply 0 .clean) s) (fun t => decide (packedValue (lineWords (t.lineChars 0 0) 0 1) = some 8)) = true) := by
  decide +kernel

def aClaim (n : Nat) : Claim :=
  { line := n, lines := [n], part := 0, pos := ⟨0, 1, 1⟩, fromDie := 0, slot := 5, granted := false, overflow := false,
    hurt := [] }
def withMsg (m : Msg) (s : State) : State := s.post m
theorem test_w_ClaimEngine :
    (let s := withMsg (.claim 0 (aClaim 7)) State.reset
     (takeMsg (fun m => match m with | .claim e _ => decide (e = (0 : DieId)) | _ => false) [] s.msgs).isSome = true ∧ s.alive 0 = true) ∧
    (let s := State.reset.updDie 0 fun e => { e with o := { e.o with claims := [aClaim 7] } }
     (s.die 0).o.claims.find? (fun c => decide (c.line = 7) && s.grantable 0 c) = some (aClaim 7) ∧ s.grantable 0 (aClaim 8) = true) ∧
    (let s := withMsg (.grant 0 5 0 0 ⟨1, 2, 3⟩) (inTxn 1 (held .declared [onLine 0 false]) (.nop 0) id)
     (takeMsg (fun m => match m with | .grant f _ _ _ _ => decide (f = (0 : DieId)) | _ => false) [] s.msgs).isSome = true ∧
       (s.slot 0 5).pos = ⟨1, 2, 3⟩ ∧ answers (exec (.grantReceive 0 9) s) (fun t => decide ((t.slot 0 5).st = .granted)) = true) ∧
    (takeMsg (fun m => match m with | .claimRelease e _ _ _ => decide (e = (0 : DieId)) | _ => false) [] [.claimRelease 0 7 5 0]).isSome = true ∧
    (Sparse.get none (State.reset.die 0).o.frontSent 0 ≠ some (State.reset.frontierOf 0 0) ∧ State.reset.tandemOf 0 = none) ∧
    (takeMsg (fun m => match m with | .frontier _ e _ _ => decide (e = (1 : DieId)) | _ => false) [] [.frontier 0 1 3 ⟨1, 0, 0⟩]).isSome = true := by
  decide +kernel

def aTxn (o : Option Outcome) : GateTxn :=
  { pos := ⟨1, 2, 3⟩, epoch := 0, curfew := 9, die := 0, slot := 5, org := .none, octets := [], outcome := o }
/-- Every domain is on. -/
def powered (s : State) : State := s.updPwr fun p => { p with domains := BitVec.allOnes 128 }
def resolving (r : Resolve) : State :=
  withMsg (.resolve 0 5 ⟨1, 2, 3⟩ r) ((powered (inTxn 1 (held .resolving [onLine 0 true]) (.nop 0) id)).updPartn 0 fun q => { q with txns := [aTxn none] })
def waiting (i : Instr) : State :=
  (inTxn 1 (held .resolving [onLine 0 true]) i id).updCore 0 fun k => { k with cur := some { Cur.begin i with gate := true } }
theorem test_w_Resolution :
    (∀ r ∈ [Resolve.commit, .abort, .memerr], (resolving r).curfewDue 0 (aTxn none) = false ∧ (resolving r).up gateDomain 4 = true ∧
      ((resolving r).partn 0).txns.find? (fun t => decide (t.pos = ⟨1, 2, 3⟩)) = some (aTxn none) ∧ 5 ∈ (resolving r).slotsOf 0 0 ∧
      (takeMsg (fun m => match m with | .resolve _ _ _ _ => true | _ => false) [] (resolving r).msgs).isSome = true) ∧
    (answers (exec (.gateAnswer 0 3) (withMsg (.answer 0 5 ⟨1, 2, 3⟩ .committed) (waiting (.txnCommit 0 1))))
        (fun t => decide ((t.regs 0).wr 1 = 0) && (t.core 0).txn.isNone) = true ∧
      answers (exec (.gateAnswer 0 3) (withMsg (.answer 0 5 ⟨1, 2, 3⟩ .curfew) (waiting (.txnAbort 0 1))))
        (fun t => decide ((t.regs 0).wr 1 = 2)) = true) ∧
    answers (exec (.abortNotice 0) (withMsg (.notice 0 5 ⟨1, 2, 3⟩ .memerr) (inTxn 1 (held .taken []) (.nop 0) id)))
      (fun t => decide ((t.slot 0 5).st = .aborted)) = true ∧
    (let s := (inTxn 1 (held .aborted []) (.nop 0) id).updDie 0 fun e => { e with m := { e.m with
       images := [⟨7, 0, 0, some (0, 5), false, List.replicate 64 1, .reset, []⟩] } }
     (s.slot 0 5).st = .aborted ∧ (s.slot 0 5).restored = false ∧ s.txnStoresOut 0 5 = false ∧
       ((s.die 0).m.images.filter (s.ownImage 0 5)).length = 1 ∧ (s.restoreSlot 0 5).lineChars 0 7 = List.replicate 64 1) ∧
    (State.reset.updDie 0 fun e => { e with m := { e.m with repairs := [⟨7, 0, 0, false⟩] } }).underRepair 0 7 = true := by decide +kernel

/-! ### Ticks, epochs, Horizons and the Sundial -/

/-- Ticks run; die 0 participates and agrees with the hub that tick t, of epoch e, has begun. -/
def ticks (t : Nat) (e : Nat) : State :=
  (State.reset.updSd fun x => { x with
    g := { x.g with st := .free, tick := BitVec.ofNat 48 t, epoch := e, time := BitVec.ofNat 72 (100 * t), admitOpen := true }
    opened := true, hzHub := BitVec.ofNat 48 t, hzSeen := [(0, BitVec.ofNat 48 t)] }).updDie 0 fun d => { d with
      member := true, o := { d.o with tick := BitVec.ofNat 48 t } }
/-- Tick 19, the last of epoch 0, has passed; before it has, epoch 0 cannot be sealed; the alarm for tick 19 and for tick 20. -/
theorem test_w_TickEdgeActions :
    (ticks 19 0).ticking = true ∧ State.reset.ticking = false ∧ (ticks 19 0).alive 0 = true ∧ ((ticks 19 0).die 0).member = true ∧
    ((ticks 9 0).updPartn 0 fun q => { q with txns := [aTxn none], sealed := 2 ^ 72 - 1 }).curfewDue 0 (aTxn none) = true ∧
    (ticks 19 0).sealing 0 = true ∧ (ticks 19 0).followers = [] ∧ (powered (ticks 19 0)).up gateDomain 4 = true ∧
    (powered (ticks 19 0)).sealing 0 = true ∧
    (∀ t ∈ [18, 19], let s := (ticks t 0).updPartn 0 fun q => { q with sealed := 2 ^ 72 - 1, released := 2 ^ 72 - 1 }
      let x := (s.updSd fun z => { z with edgeStep := 3 }).takeDigests 0
      x.sealable 0 (epochNext (s.partn 0).sealed) = decide (t = 19) ∧
        (x.updPartn 0 fun z => { z with sealed := 0 }).sealable 0 1 = false ∧
        (x.epochOf x.hubHorizon + 1 + 2 ^ 72 - (s.partn 0).sealed % 2 ^ 72) % 2 ^ 72 = 2) ∧
    (let s := (ticks 20 1).updPartn 0 fun q => { q with sealed := 0, released := 2 ^ 72 - 1 }
     answers (exec (.releaseLaunch 0) s) (fun t => decide ((t.partn 0).released = 0 ∧ t.msgs = [.release 0 0 0])) = true) ∧
    (∀ w ∈ [19, 20], let s := (ticks 19 0).setCore 0 { Core.reset with running := true, alarm := some (BitVec.ofNat 36 w) }
      (s.die (coreDie 0)).o.edgeStep ≤ 5 ∧
      answers (exec (.alarmFire 0) s) (fun t => decide ((t.core 0).alarm.isNone = decide (w = 19))) = true) := by decide +kernel

theorem test_w_EpochsAndHorizons :
    (let s := withMsg (.release 0 0 4) (ticks 30 1)
     Sparse.get none (s.die 0).o.holding 0 = none ∧
       (takeMsg (fun m => match m with | .release x q _ => decide (x = (0 : DieId)) && decide (q = (0 : PartId)) | _ => false) [] s.msgs).isSome = true) ∧
    (let s := (ticks 30 1).updDie 0 fun d => { d with o := { d.o with holding := [(0, some 4)] } }
     s.readsOut 0 0 = false ∧ s.changesOpen 0 4 = false ∧
       (s.updDie 0 fun d => { d with m := { d.m with dacc := [(0, 4, 0, ⟨0, 0, 0, 1, 3, 0, 0, false, false⟩)] } }).changesOpen 0 4 = true) ∧
    (let s := withMsg (.switched 0 0 1) ((ticks 60 3).updPartn 0 fun q => { q with released := 1, visible := 0 })
     epochLe (epochNext (s.partn 0).visible) (s.partn 0).released = true ∧ s.members = [0] ∧
       answers (exec (.hubVisibleSwitch 0) s) (fun t => decide ((t.partn 0).visible = 1)) = true) ∧
    (∀ m ∈ [Msg.horizon (.die 1) (.die 0) 7, .horizon .hub (.die 0) 7, .horizon (.die 0) .hub 7],
      (takeMsg (fun x => decide (x = m)) [] (withMsg m (ticks 30 1)).msgs).isSome = true) ∧
    (let s := (ticks 90 4).updSd fun x => { x with hzSeen := [(0, 2)] }
     s.lagBeyond 0 2000 = true ∧ s.lagBeyond 0 8000 = true ∧ (s.h.sd.stalled.getLsbD 0) = false ∧ (ticks 90 4).lagBeyond 0 2000 = false) ∧
    (Sparse.get 0 ((ticks 30 1).die 0).scrub 0 + 4 < rowUnits) ∧ (powered (ticks 30 1)).up 8 4 = true ∧ (powered (ticks 30 1)).up 9 4 = true ∧
    ((ticks 10000 500).tick.toNat % (ticks 10000 500).h.host.g.snapPeriod = 0) := by decide +kernel

def withParams (l : List (Nat × Int)) (s : State) : State := withPlan (fun z => { z with params := l }) s
/-- A locked Sundial with primary and secondary sources of kind 4 and of kind 1; offsets of 1,000 and of 1,001 ns. -/
def lockedSun (second : Bool) : State :=
  ((withParams [(128, 1), (256, 1)] (powered (ticks 30 1))).updSdRegs fun g => { g with st := .locked, which := false }).updSd fun x => { x with
    pri := { x.pri with seen := true, qualified := true }, sec := { x.sec with seen := true, qualified := second } }
theorem test_w_SundialAndRegisters :
    State.reset.sourceKind false = 0 ∧ (lockedSun false).sourceKind false = 1 ∧
    (withParams [(128, 1)] State.reset).h.sd.g.st = .unset ∧ (withParams [(128, 1)] State.reset).sourceKind false = 1 ∧
    (withParams [(128, 1)] State.reset).measurable false = false ∧ (withParams [(128, 1)] (powered State.reset)).measurable false = true ∧
    (lockedSun false).measurable false = true ∧ (lockedSun true).measurable false = true ∧
    (answers (exec (.sourceMeasurement false 4000 3000 1) (lockedSun false)) (fun t => decide (t.h.sd.g.st = .locked))) = true ∧
    (answers (exec (.sourceMeasurement false 4001 3000 1) (lockedSun false)) (fun t => decide (t.h.sd.g.st = .holdover))) = true ∧
    (answers (exec (.sourceMeasurement false 4001 3000 1) (lockedSun true)) (fun t => decide (t.h.sd.g.which = true))) = true ∧
    (answers (exec (.sourceLoss false) (lockedSun false)) (fun t => decide (t.h.sd.g.st = .holdover))) = true ∧
    (answers (exec (.sourceLoss true) (lockedSun true)) (fun t => decide (t.h.sd.g.st = .locked))) = true ∧
    (let s := (withParams [(128, 3)] State.reset).updSd fun x => { x with running := true }
     s.sourceKind false = 3 ∧ s.sourceKind true ≠ 3 ∧
       answers (exec (.ppsEdge 0) s) (fun t => decide (t.h.sd.g.st = .acquiring)) = true) ∧
    (∀ t ∈ [(9999999, true), (9999998, false)], let g := { (ticks 0 0).h.sd.g with time := BitVec.ofNat 72 (100 * t.1 + 1) }
      decide (ceilDiv g.time.toNat 1000000000 * 1000000000 < g.time.toNat + g.tickNs) = t.2) ∧
    (let s := (ticks 0 0).updSdRegs fun g => { g with beforeOrigin := true }
     answers (exec .originReached s) (fun t => t.ticking) = true) ∧
    (let s := withParams [] State.reset
     s.h.plan.eff.isSome = true ∧ s.h.sd.opened = false ∧ s.h.sd.g.st ≠ .locked) ∧
    (let s := (withParams [(832, 1)] (ticks 30 1)).updSd fun x => { x with g := { x.g with st := .holdover, time := 1000000001 } }
     s.paramN 13 0 0 = 1 ∧ s.h.sd.holdStart + 1 * 1000000000 < s.h.sd.g.time.toNat + s.h.sd.g.tickNs) := by decide +kernel

/-! ### Ports, sessions and tandem pairs -/

def thePort : PlanPort := { mac := 5, untagged := true, vids := [], v4 := [10], v6 := [], steer := [], templates := [] }
def aPeer : Peer := { Peer.none with mac := 9, ip := 7, udp := 1111 }
def aMessage (type : Nat) (sid seq ack : BitVec 32) : Lpt :=
  { type := type, flags := 0, sid := sid, seq := seq, ack := ack, sack := 0, deadline := 0, steer := 0, tag := 0, body := [], octets := zeros 32,
    peer := aPeer }
def anOpen : List Octet := buildLpt 1 0 77 1 0 0 0 0 []
/-- A frame that carries an OPEN to port 0: UDP over IPv4, from 11 to 10, with valid checksums. -/
def aFrame : List Octet :=
  buildEth 5 9 0 0 0x0800 (buildIp false 11 10 17 64 0 (buildUdp false 11 10 1111 37412 anOpen))
/-- Port 0 is up in a package that admits; partition 0 has die 0 as its admit die, with an admit queue of 16 words. -/
def portUp (f : Port → Port) : State :=
  let s := withPlan (fun z => { z with
    ports := [(0, thePort)], parts := [(0, { PlanPart.reset with admitDie := List.replicate 32 0, clusters := 1 })] }) (ticks 30 1)
  (s.setQueue 0 0 0 { Queue.reset with en := true, kind := 3, size := 6, tmpl := 15 }).setPort 0 (f { Port.reset with up := true })
theorem test_w_PortsAndQueues :
    ((portUp id).port 0).up = true ∧ (portUp id).alive 0 = true ∧ (portUp id).portExists 0 = true ∧ (portUp id).mute 0 = false ∧
    aFrame.length = 74 ∧ (parseEth aFrame).any (fun e => (portUp id).takesMac 0 e.dst && ((portUp id).planPort 0).takesVid e.vid &&
      (match (portUp id).classify 0 e true with
      | .lpt i => (parseLpt i.udpBody (framePeer e i)).isSome
      | _ => false)) = true ∧
    (∀ n ∈ [59, 60], decide ((List.replicate n (0 : Octet)).length < 60) = decide (n = 59)) ∧
    ({ Port.reset with out := [(33, []), (80, [])] }.nextOut).isSome = true ∧
    (let m : List Octet := [1, 3, 0, 0, 1, 0, 0, 19] ++ zeros 27
     let o := buildEth 5 9 0 0 0x88B5 (m ++ octetsBE 4 (crc32c m).toNat)
     (parseEth o).any (fun e => decide (e.etype = 0x88B5) && (State.reset.parseMFrame e.body).isSome) = true ∧ 60 ≤ o.length) ∧
    (powered State.reset).up 113 4 = true ∧ (∀ n ∈ [0, 31, 32, 33], (powered State.reset).up (portDomain n) 4 = true) ∧
    (let delay (type len : Nat) : List Octet := octetsBE 1 type ++ [2] ++ octetsBE 2 len ++ [0] ++ zeros 15 ++ octetsBE 10 77 ++
       zeros (len - 30)
     ∀ x ∈ [(12, 44), (11, 64), (9, 54)], let s := withParams [(128, 1), (4032, 0)] State.reset
       (parseEth (buildEth 5 9 0 0 0x88F7 (delay x.1 x.2))).any (fun e => decide (e.ptp.1 = s.paramN 63 0 1) &&
         decide (34 ≤ e.ptp.2.length) && decide (beAt e.ptp.2 0 1 % 16 = x.1) && decide (beAt e.ptp.2 1 1 % 16 = 2) &&
         decide (beAt e.ptp.2 4 1 = s.paramN 61 0 0) && decide (beAt e.ptp.2 20 10 = 77)) = true) ∧
    (parseEth (buildEth 5 9 0 0 0x8808 (zeros 46))).any (fun e => decide (e.etype = 0x8808)) = true ∧
    (let r : Queue := { Queue.reset with en := true, kind := 1, size := 2, wptr := 3, rptr := 1 }
     r.used = 2 ∧ (3 % 8 + 8 - r.rptr) % 8 = r.used ∧ r.used < (4 % 8 + 8 - r.rptr) % 8 ∧
       { r with kind := 2 }.used + (5 % 8 + 8 - r.wptr) % 8 = 2 ^ 2) ∧
    (withParams [(128, 1), (4032, 0)] State.reset).isPtpSource 0 = true ∧ (withParams [(128, 1), (4032, 0)] State.reset).paramN 63 0 1 = 0 ∧
    State.reset.alive (BwLink.die (.hub 0)) = true := by decide +kernel

/-- Session 3 of port 0, with request number 8 expected, and its SID. -/
def aSession : Session := { Session.reset with isOpen := true, peer := aPeer, nonce := 77, base := 8, ackDue := true }
def inSession (l : List Lpt) : State := portUp fun z => { z with inbox := l, sessions := [(3, aSession)] }
def aResponse : Cached :=
  { part := 0, die := 0, slot := 5, departed := true, epoch := 0, sid := sidOf 1 3, seq := 7, tag := 0, peer := aPeer, sends := 0, due := 0,
    tick := 0, ptr := 0, retx := false }
def aCopy : Slot := { Slot.reset with st := .queued, pos := ⟨29, 0, 0⟩, octets := zeros 32, org := { Origin.none with port := 4 } }
theorem test_w_PostingTransport :
    (portUp id).admits = true ∧ (State.reset.setPort 0 { Port.reset with inbox := [aMessage 1 77 1 0] }).admits = false ∧
    (portUp id).paramN 56 0 0 ≠ 2 ∧ (portUp id).tableBase 0 aPeer = 0 ∧ 0 < (portUp id).paramN 49 0 16384 ∧
    (portUp id).msgSession 0 (aMessage 3 77 8 0) = none ∧
    ((inSession [aMessage 3 (sidOf 1 3) 8 0]).msgSession 0 (aMessage 3 (sidOf 1 3) 8 0) = some aSession ∧
      (inSession []).reqRow 0 (aMessage 3 (sidOf 1 3) 8 0) = .land 0 0 ∧
      ((inSession []).reqRow 0 (aMessage 3 (sidOf 1 3) 71 0) = .land 0 0) ∧ (inSession []).reqRow 0 (aMessage 3 (sidOf 1 3) 72 0) = .refuse 5) ∧
    (2 ^ 31 ≤ ((7 : BitVec 32) - aSession.base).toNat) ∧
    ((inSession []).session 0 3).isOpen = true ∧ ((inSession []).session 0 3).ackDue = true ∧ (inSession []).adopted 0 aPeer = false ∧
    (let s := withParams [(3392, 5)] (portUp fun z => { z with cached := [aResponse] })
     s.cachedFor 0 (sidOf 1 3) 7 = some aResponse ∧ s.paramN 53 0 0 = 5 ∧ aResponse.sends < s.paramN 54 0 2 ∧
       (s.packetRead 0 0 4 0).2 = false ∧ { aResponse with sends := 2 }.sends = s.paramN 54 0 2 ∧ aResponse.due = 0 ∧ s.mute 0 = false ∧
       ({ (s.port 0) with cached := [{ aResponse with due := 1 }] } : Port).nextResponse = some { aResponse with due := 1 } ∧
       (s.port 0).nextOut = none) ∧
    (let m := aMessage 3 (sidOf 1 3) 8 0
     ((inSession [m]).reserveFrame 0 0 m.octets.length).isSome = true) ∧
    (let s := withMsg (.copy 0 aCopy false none) (portUp id)
     (takeMsg (fun m => match m with | .copy e _ _ _ => decide (e = (0 : DieId)) | _ => false) [] s.msgs).isSome = true ∧
       (s.landPacket 0 { aCopy with chars := s.landed 4 (s.queue 0 0 0) aCopy.octets } 1).any (fun x =>
         decide (x.1.admitRefusal 0 0 32 = none) && decide (x.1.admitRefusal 0 0 2048 = none) &&
           decide (x.1.admitRefusal 0 0 2049 = some 2)) = true) ∧
    (let e := { aResponse with departed := false }
     let s := portUp fun z => { z with cached := [e] }
     s.departing 0 0 = [e] ∧ (portUp id).departing 0 0 = [] ∧
       (s.slot 0 5).org.port / 4 = 0) := by decide +kernel

/-- Pair 0 runs partition 0 in tandem mode, and its dies differ on epoch 1. -/
def paired : State :=
  let s := withPlan (fun z => { z with params := [(2048, 1)], parts := [(0, { PlanPart.reset with clusters := 1 })] }) (ticks 50 2)
  (s.updDie 1 fun d => { d with member := true }).updPartn 0 fun q => { q with digests := [(0, 1, 5, 0), (1, 1, 6, 0)] }
theorem test_w_TandemCommands :
    (let s := withPlan (fun z => { z with parts := [(0, { PlanPart.reset with clusters := 1 })] })
       ((ticks 50 2).updDie 0 fun d => { d with o := { d.o with hzSent := 50, hzSeen := [(8, 50)] } })
     s.runs 0 0 = true ∧ s.alive 0 = true ∧
       tickLe (s.lastTick (s.nextDigest 0 0 (s.partn 0).visible ((s.partn 0).digests.length + s.msgs.length))) (s.dieHorizon 0) = true ∧
       s.epochDone 0 0 1 = true) ∧
    (paired.tandemOf 0 = some 0 ∧ paired.beforePlan 0 = false ∧ (paired.partn 0).st = .normal ∧
      ((paired.takeDigests 0).partn 0).digestOf 0 1 = some (5, 0) ∧ ((paired.takeDigests 0).partn 0).digestOf 1 1 = some (6, 0) ∧
      answers (exec (.digestCompare 0) paired) (fun t => decide ((t.partn 0).st = .reexec)) = true) ∧
    (let s := (ticks 30 1).updDie 0 fun d => { d with fenceDue := some .supply }
     s.tandemPair 0 = false ∧ (∀ n ∈ List.range 16, s.tandemOf n = none ∧ (s.planPart n).homes = [] ∧ (s.planPart n).admitDie = []) ∧
       answers (exec (.dieFence 0) s) (fun t => (t.die 0).fenced) = true) := by decide +kernel

/-! ### Mirror groups, the host, the mailbox, the plan and power -/

def aMember (valid : Bool) : PlanMember := { valid := valid, primary := 0, secondary := 1, mac := 5, outer := 0, inner := 0 }
/-- A group of packages 0, this one, and 1, in the role given. -/
def inGroup (role : BitVec 2) (f : MFrame) (g : Mirror → Mirror) : State :=
  (withPlan (fun z => { z with mirror := [aMember true, aMember true, aMember false, aMember false], regions := [aRegion 1] })
    (ticks 50 2)).updMirror fun m => g { m with role := role, lead := if role = 2 then some 1 else none, inbox := [f] }
def aMFrame (term : Nat) (b : MPayload) : MFrame := { src := 1, term := term, fseq := 0, body := b }
def aFetch (e : Nat) : MFrame := aMFrame 0 (.fetch 0 0 7 e 9)
def joiningOf (e : Option Nat) (s : State) : State := s.updPartn 0 fun q => { q with st := .joining, joinEpoch := e }
theorem test_w_MirrorGroup :
    (let m := (inGroup 1 (aMFrame 0 (.join 0)) id).h.mirror
     m.role = 1 ∧ 1 ∈ (inGroup 1 (aMFrame 0 (.join 0)) id).peerIds ∧ 1 ∈ (inGroup 1 (aMFrame 0 (.join 0)) id).followers ∧
       ((inGroup 1 (aMFrame 0 (.join 0)) id).partn 0).joinEpoch = none) ∧
    ((aMFrame 0 (.join 0)).term < (inGroup 1 (aMFrame 0 (.join 0)) fun m => { m with term := 1 }).h.mirror.term) ∧
    (let s := inGroup 2 (aMFrame 0 (.log 0 true true 0 1 [] 0 0 0)) id
     s.h.mirror.lead = some (aMFrame 0 (.join 0)).src ∧
       epochLe 1 ((joiningOf (some 0) s).partn 0).heldTo = false ∧ Sparse.get [] ((joiningOf (some 0) s).partn 0).held 1 = [] ∧
       epochLe 0 ((s.updPartn 0 fun q => { q with st := .following }).partn 0).heldTo = true) ∧
    epochLe 1 (Sparse.get 0 ((inGroup 1 (aMFrame 0 (.ack 0 1 0 [])) id).partn 0).acked 1) = false ∧
    answers (exec (.heart 0) (inGroup 1 (aMFrame 0 (.heart 0 0 0 0 0 0 0 [])) id)) (fun t => t.h.mirror.dropped.getLsbD 1) = true ∧
    (∀ e ∈ [1, 2, 3], let s := (inGroup 1 (aMFrame 0 (.fetch 0 0 7 e 9)) id).updPartn 0 fun q => { q with sealed := 2, visible := 2 }
     epochAfter e (s.appliedOf 0) = decide (e = 3) ∧ epochAfter (s.partn 0).visible e = decide (e = 1) ∧
       s.msgs = [] ∧ s.outerWaits 0 7 = false ∧ (∀ g, s.imageAfter 0 7 e = some g → g.hurt = []) ∧ s.alive 0 = true ∧
       s.fetchReady (aFetch e).body = decide (e ≠ 3) ∧
       s.regionAt 0 7 = some (aRegion 1) ∧ (s.lineInfo 0 7).poison = false ∧ (s.lineAsOf 0 7 e).2.poison = false) ∧
    (let s := joiningOf (some 3) (inGroup 2 (aMFrame 0 (.line 0 0 7 3 0 0 0 (zeros 72))) id)
     (s.partn 0).st = .joining ∧ (s.partn 0).joinEpoch = some 3) ∧
    answers (exec .take (inGroup 2 (aMFrame 0 (.take 0 [])) id)) (fun t => decide (t.h.mirror.term = 1)) = true ∧
    answers (exec .joined (joiningOf none (inGroup 2 (aMFrame 0 (.joined 0 4 0)) id))) (fun t => decide ((t.partn 0).joinEpoch = some 4)) = true ∧
    answers (exec .join ((inGroup 1 (aMFrame 0 (.join 0)) fun m => { m with inbox := [] }).updPartn 0 fun q => { q with joinEpoch := some 4 }))
      (fun t => decide ((t.partn 0).joinEpoch = none)) = true ∧
    (let s := inGroup 2 (aMFrame 0 (.join 0)) fun m => { m with leadLost := true, synced := true }
     s.selfEligible = true ∧ s.leadElsewhere = false ∧ s.firstInLine (Config.peerHeld s.free) = true ∧ s.paramN 18 0 0 ≠ 1 ∧
       (joiningOf none s).allApplied = true ∧ (s.updPartn 0 fun q => { q with st := .reexec }).allApplied = false) ∧
    (let s := (inGroup 1 (aFetch 1) id).setPort 32 { Port.reset with up := true }
     1 ∈ s.peerIds ∧ (s.port (32 + (s.member 1).primary)).up = true) ∧
    (State.reset.port 32).up = false ∧ ((State.reset.setPort 32 { Port.reset with up := true }).port (32 + bit false)).up = true := by
  decide +kernel

/-- Window 0 over the queue RAM of die 0 with SYS, or over its ledger memory with the region's key. -/
def windowed (base : BitVec 16) (kind : Nat) (f : HostIf → HostIf) : State :=
  (mapped kind State.reset).updHost fun x => f { x with
    linkUp := true, busMaster := true, win := [(0, { Win.reset with en := true, sys := true, we := true, base := base })] }
def hostQ (used : Nat) : HostQueue := { HostQueue.reset with en := true, size := 6, wptr := used }
theorem test_w_HostInterface :
    (let s := windowed (BitVec.ofNat 16 (2 ^ 37 / 2 ^ 24)) 1 id
     s.fnAnswers .pf = true ∧ s.hostSends = true ∧ s.fnReaches .pf 0 = true ∧ s.fnReaches (.vf 0) 0 = false ∧ spaceOf ((s.win 0).address 8) = 1 ∧
       (s.winCheck .pf 0 ((s.win 0).address 8) false).2.isSome = true ∧ (s.winCheck .pf 0 ((s.win 0).address 8) true).2.isSome = true ∧
       (s.win 1).en = false ∧ (s.win 0).we = true) ∧
    (let s := windowed 0 1 id
     spaceOf ((s.win 0).address 0) = 0 ∧ ((s.winCheck .pf 0 0 false).2.any fun y =>
       !s.outerWaits (y.line 0).1 (y.line 0).2 && keyMatches (s.win 0).key (s.lineKey (y.line 0).1 (y.line 0).2)) = true) ∧
    (let s := (windowed 0 1 id).setGate 48 { Gate.reset with bank0 := [(0, { aRule 0 with last := 4095 })] }
     (s.verdict { part := 0, die := 0, sys := true, anyPart := true } (2 * 2 ^ 37 + 64) .rd true).reason = 0 ∧
       (s.verdict { part := 0, die := 0, sys := true, anyPart := true } (2 * 2 ^ 37 + 64) .rd true).dflt = false) ∧
    (0 < (windowed 0 1 fun x => { x with numVfs := 1 }).h.host.numVfs) ∧
    (let s := windowed 0 1 fun x => { x with numVfs := 1 }
     s.fnReaches (.vf 0) 0 = true ∧ s.hasFn (.vf 0) = true ∧ s.fnWritesQueue (.vf 0) 0 = true) ∧
    (powered State.reset).up 106 4 = true ∧ (powered State.reset).up 107 4 = true ∧ State.reset.up 106 4 = false ∧
    (State.reset.fnCfg 0).silent = true ∧
    (((State.reset.updHost fun x => { x with fns := [(0, ⟨true, false, false⟩)] }).fnCfg 0).silent = false) ∧ State.reset.present (coreDie 0) = true ∧
    (hostQ 4).used + (64 + 2 ^ 7 - 4) % 2 ^ 7 = 2 ^ 6 ∧ (hostQ 4).used < (5 + 2 ^ 7 - 0) % 2 ^ 7 ∧
    (let x : BitVec 64 := 0x0100000000000008
     x ≠ noWord ∧ (x.extractLsb' 56 8).toNat = 1 ∧ 1 + ceilDiv (x.extractLsb' 0 16).toNat 8 = (hostQ 2).used) ∧
    (∀ en ∈ [false, true], let s := (windowed 0 1 fun x => { x with
        q := [(2, { hostQ 0 with en := en })], resp := [(0, [{ q := 2, outcome := 0, tag := 0, pos := ⟨0, 0, 0⟩, epoch := none, body := [1] }])] })
      answers (exec (.hostResponseWrite 0) s) (fun t => decide (Sparse.get [] t.h.host.resp 0 = [])) = true) ∧
    (let s := windowed 0 1 fun x => { x with busMaster := false, q := [(2, hostQ 0)] }
     s.hostSends = false ∧ (s.hostQueue 2).en = true) := by decide +kernel

/-- PKG_STATE n from 2 to 6 (5 for a stale package), with a free mailbox and its first argument. -/
def package (n : Nat) (arg : BitVec 32) : State :=
  let s := (ticks 50 2).updPwr fun p => { p with
    pwrOk := true, st := if n = 6 then .night else if n = 4 then .noon else .dawn, bootStep := if n = 2 then 4 else 6 }
  let t := (s.updSdRegs fun g => { g with admitOpen := decide (n = 4) }).updMirror fun m => { m with role := if n = 5 then 3 else 0 }
  (withPlan (fun z => { z with parts := [(0, { PlanPart.reset with clusters := 1 })] }) t).updHost fun x => { x with
    mbx := { x.mbx with args := [(0, arg)] } }
def statusOf (o : Host.Outcome State Fault Refusal) (n : BitVec 8) : Bool :=
  answers o fun t => match t.h.host.mbx.waiting with | some r => decide (r.1 = n) | none => false
theorem test_w_MailboxCommands :
    (∀ n ∈ [2, 3, 4, 5, 6], (package n 0).settled.pkgState = n ∧ (package n 0).h.host.mbx.done = true ∧ (package n 0).h.pwr.hubDead = false) ∧
    (State.reset.pkgState = 0 ∧ ((package 4 0).updHost fun x => { x with mbx := { x.mbx with done := false } }).h.host.mbx.done = false) ∧
    statusOf (exec (.mailboxNop 1) (package 4 0)) 0 = true ∧ statusOf (exec (.unknownMailboxCode 1 12) (package 4 0)) 3 = true ∧
    statusOf (exec (.planWithdraw 1) (package 4 0)) 1 = true ∧ statusOf (exec (.planWithdraw 1) (package 2 0)) 1 = true ∧
    (package 4 0).selfEligible = false ∧ (package 4 0).mayEnterNight = true ∧ (package 4 0).powerState = .noon ∧
    (∀ n ∈ [7, 8], decide ((package 4 (BitVec.ofNat 32 n)).arg 0 < 8) = decide (n = 7)) ∧
    (package 4 0).commandable 0 = true ∧ (package 4 1).commandable 1 = false ∧ statusOf (exec (.retire 1) (package 4 64)) 2 = true ∧
    (package 4 0).remap 0 0 0 0 = none ∧ ((package 4 0).calItem 0x0100).isSome = true ∧
    statusOf (exec (.planLoad 1 .host .failed) (package 2 0)) 6 = true ∧ (package 2 0).settled.h.plan.staged = none ∧
    statusOf (exec (.patchLoad 1 .failed true) (package 4 0)) 1 = true ∧ (package 4 0).alive 0 = true ∧
    ((package 4 0).updDie 0 fun d => { d with fenced := true }).alive 0 = false ∧
    (∀ n ∈ [1, 2], statusOf (exec (.wake 1) (package 6 (BitVec.ofNat 32 n))) 1 = decide (n = 2)) ∧
    (Fuses.reset.checkPatch [] true = 1) ∧
    (let s := (package 2 0).updPwr fun p => { p with bootStep := 3, straps := { p.straps with bootSrc := 1 } }
     s.fromHost = true ∧ s.pkgState = 1 ∧ s.h.burning = none ∧ statusOf (exec (.patchLoad 1 .failed true) s) 0 = true) ∧
    (let s := (package 4 0).updHost fun x => { x with mbx := { x.mbx with done := false, waiting := some (3, []) } }
     answers (exec .mbxComplete s) (fun t => t.h.host.mbx.done) = true) := by decide +kernel

def aStaged (committed : Bool) (pl : Plan) : Staged :=
  { plan := pl, part := 0, epoch := 2, gen := 1, committed := committed, octets := [] }
/-- An image staged for epoch 2; the last tick of epoch 1, 39, and the one before. -/
theorem test_w_PlanAndPower :
    (∀ t ∈ [38, 39], tickLe ((ticks t 1).lastTick (epochPrev 2)) (ticks t 1).tick = decide (t = 39)) ∧
    (let s := (ticks 40 2).updPlan fun y => { y with staged := some (aStaged true Plan.empty), eff := some Plan.empty }
     epochLe 2 s.h.sd.g.epoch = true ∧ answers (exec .planTakeEffect s) (fun t => t.h.plan.staged.isNone) = true) ∧
    epochLe 2 (ticks 39 1).h.sd.g.epoch = false ∧
    answers (exec (.pwrOkRise ⟨none, none, none, none, none, none⟩ true true) State.reset)
      (fun t => t.h.pwr.pwrOk && decide (t.h.pwr.queue = [105, 106, 107])) = true ∧
    (package 4 0).h.pwr.pwrOk = true ∧
    (let s := State.reset.updPwr fun p => { p with domains := BitVec.allOnes 128 }
     s.up (clusterDomain 0) 4 = true ∧ (s.cluster 0).selfChecked = false ∧ (s.cluster 0).retired = false) ∧
    (∀ e ∈ [2, 3], answers (exec .clockSwitch ((package 4 0).updPwr fun p => { p with clockTo := some (.dusk, e) }))
      (fun t => decide (t.h.pwr.st = .dusk) == decide (e = 2)) = true) ∧
    (∀ e ∈ [2, 3], let s := (package 4 0).updPwr fun p => { p with nightAt := some e }
      let z := iter 16 (fun n x => x.updPartn n fun q => { q with released := 1 }) s
      z.nightReady e = decide (e = 2)) ∧
    (State.reset.alive 0 = true ∧ (State.reset.die 0).fenceDue = none ∧ State.reset.remap 0 0 0 0 = none ∧ State.reset.sparesLeft 0 0 = 32) ∧
    (let s := State.reset.updDie 0 fun d => { d with m := { d.m with remaps := (List.range 32).map fun n => (0, 0, n, true) } }
     s.sparesLeft 0 0 = 0 ∧ s.remap 0 0 0 32 = none ∧ s.remap 0 0 0 31 = some (0, 0, 31, true)) ∧
    (let s := State.reset.updDie 0 fun d => { d with m := { d.m with copying := [(0, 1, 2)] } }
     (0, 1, 2) ∈ (s.die 0).m.copying ∧ (0, 1, 3) ∉ (s.die 0).m.copying ∧
       answers (exec (.spareRowCopyDone 0 0 1 2) s) (fun t => (t.die 0).m.copying.isEmpty && (t.remap 0 0 1 2).isSome) = true) ∧
    burningState.h.burning.isSome = true ∧ State.reset.h.burning = none := by decide +kernel

/-! ### Single steps and tables of the manual, with the results that the manual gives or that follow from it by hand -/

/-- What f says of the state after core 0 has carried i out. -/
def after (i : Instr) (f : CoreRegs → CoreRegs) (g : State → Bool) : Bool := answers (exec i (ready i f)) g
def two (a b : Word) (r : CoreRegs) : CoreRegs := withW 2 a (withW 3 b r)
/-- The state that exec answers, 100 cc later. -/
def atClk (s : State) (i : Instr) : State :=
  match exec i s with
  | .next t => t.updCore 0 fun k => { k with r := { k.r with cnt := { k.r.cnt with clk := 100 } } }
  | _ => s

/-- R189: 2^36 − 1 + 1 wraps to 0, in 2 cc, and the core goes on at syllable 1. -/
theorem test_add_wraps : after (.add 0 2 3) (two (-1) 1)
    (fun t => decide ((t.regs 0).wr 2 = 0 ∧ (t.regs 0).cnt.cycles = 2 ∧ (t.core 0).pc = 1)) = true := by decide +kernel
theorem test_sub_from_itself : after (.sub 0 2 2) (two 5 0) (fun t => decide ((t.regs 0).wr 2 = 0)) = true := by decide +kernel
/-- R201: a shift by the width or more; the arithmetic shift keeps the sign. -/
theorem test_shifts_beyond_the_width :
    after (.shl 0 1 2 (.imm 36)) (two (-1) 0) (fun t => decide ((t.regs 0).wr 1 = 0)) = true ∧
    after (.shra 0 1 2 (.reg 3)) (two (-2) 63) (fun t => decide ((t.regs 0).wr 1 = -1)) = true := by decide +kernel
/-- R202: positions 0 to 2 of 0o6000_0000_0001 hold 6. -/
theorem test_ext : after (.ext 0 1 2 0 2) (two 0o600000000001 0) (fun t => decide ((t.regs 0).wr 1 = 6)) = true := by decide +kernel
/-- R198, R199: −7 by 2 is −3; −2^35 by −1 is −2^35; the upper word of (2^36 − 1)^2 is 2^36 − 2. -/
theorem test_divide_and_multiply :
    after (.div 0 1 2 3) (two (-7) 2) (fun t => decide ((t.core 0).u.div.map IntOp.val = some (-3))) = true ∧
    after (.rem 0 1 2 3) (two (-7) 2) (fun t => decide ((t.core 0).u.div.map IntOp.val = some (-1))) = true ∧
    after (.div 0 1 2 3) (two 0o400000000000 (-1)) (fun t => decide ((t.core 0).u.div.map IntOp.val = some 0o400000000000)) = true ∧
    after (.mulhu 0 1 2 3) (two (-1) (-1)) (fun t => decide ((t.core 0).u.mul.map IntOp.val = [-2])) = true := by decide +kernel
/-- R198, R199, R269: from the state that exec answers, the unit's command writes the product, the quotient and the short sum. -/
theorem test_w_unit_instructions_complete :
    (let s := atClk (ready (.mul 0 1 2 3) (two 6 7)) (.mul 0 1 2 3)
     ((ready (.mul 0 1 2 3) (two 6 7)).core 0).u.mul = [] ∧ answers (exec (.multiplyResult 0) s) (fun t => decide ((t.regs 0).wr 1 = 42)) = true) ∧
    answers (exec (.divideResult 0) (atClk (ready (.div 0 1 2 3) (two 42 6)) (.div 0 1 2 3))) (fun t => decide ((t.regs 0).wr 1 = 7)) = true ∧
    (let one : Word := BitVec.ofNat 36 (127 * 2 ^ 27)
     let s := ready (.fadd 0 2 3 false 0) (two one one)
     (s.core 0).u.fp = [] ∧ answers (exec (.floatResult 0) (atClk s (.fadd 0 2 3 false 0)))
       (fun t => decide ((t.regs 0).wr 2 = BitVec.ofNat 36 (128 * 2 ^ 27))) = true) := by decide +kernel
/-- R170, R179: BREAK is 0o53; EPC is the BREAK, and the core goes on at EXC_ENTRY with the other set of capabilities. -/
theorem test_break_entry : after (.break_ 0 7) (fun r => { r with sp := { r.sp with excEntry := 100 } })
    (fun t => decide ((t.regs 0).sp.cause = 0o530000000000 ∧ (t.regs 0).sp.epc = 0 ∧ (t.core 0).pc = 100 ∧ (t.regs 0).ctl.exl = true ∧
      (t.regs 0).cap 0 = Cap.empty ∧ (t.regs 0).cap 16 = fullCap)) = true := by decide +kernel
/-- R35: the character at the lowest address is the most significant of its word. -/
theorem test_ldp_order :
    answers (exec (.ldp 0 2 (.idx 0 4)) ((ready (.ldp 0 2 (.idx 0 4)) (atScratch 4)).scratchWrite 0 4 [1, 0, 0, 2, 3, 0, 0, 4]))
      (fun t => decide ((t.regs 0).wr 2 = BitVec.ofNat 36 (2 ^ 27 + 2) ∧ (t.regs 0).wr 3 = BitVec.ofNat 36 (3 * 2 ^ 27 + 4))) = true := by
  decide +kernel
/-- R213, R156: the last instruction of a loop with one iteration left ends the loop, for 1 cc more. -/
theorem test_loop_ends : answers (exec (.nop 0) (atLoopEnd 1))
    (fun t => decide ((t.core 0).pc = 1 ∧ (t.regs 0).ctl.lact = false ∧ (t.regs 0).cnt.cycles = 2)) = true := by decide +kernel
/-- R43, R44: −12 in one word is 00000012 with the preferred negative sign; any valid sign is read. -/
theorem test_packed_symbols :
    packWords 1 (-12) = [0x00000012D] ∧ packedValue [0x00000012A] = some 12 ∧ packedValue [0x00000012B] = some (-12) ∧
    packedValue [0x0000001A1] = none := by decide +kernel
/-- R280 for the short format: s, n and M with the results and flags (IV, DZ, OF, UF, NX, SB) of its rows. -/
def sShort : Nat := 1
def nShort : Nat := 0o001000000000
def mShort : Nat := 0o376777777777
def infShort : Nat := 0o377000000000
theorem test_float_table :
    let f := FFmt.short
    let got (r : Nat × FFlags) : Nat × Nat := (r.1, r.2.word.toNat)
    got (f.two (f.add 0) mShort mShort) = (infShort, 10) ∧ got (f.two (fun u v => f.add 0 u v.negate) mShort mShort) = (0, 0) ∧
    got (f.two (f.mulV 0) mShort mShort) = (infShort, 10) ∧ got (f.two (f.divV 0) mShort mShort) = (0o177000000000, 0) ∧
    got (f.two (f.add 0) mShort sShort) = (mShort, 1) ∧ got (f.two (f.divV 0) mShort sShort) = (infShort, 17) ∧
    got (f.two (f.divV 0) sShort sShort) = (0o377400000000, 33) ∧ got (f.two (f.mulV 0) nShort 0o176000000000) = (0, 7) ∧
    (f.one f.quiet (f.sqrtV 0) mShort).2.word = 2 ∧ got (f.toInt 0 mShort) = (0o377777777777, 32) := by decide +kernel
/-- R41: octet 4 of a group straddles the two words. -/
theorem test_dense_landing :
    denseWords 9 [1, 2, 3, 4, 0xAB, 6, 7, 8, 9] = [0x01020304A, 0xB06070809] := by decide +kernel
/-- The check value of CRC-32C over the digits 1 to 9. -/
theorem test_crc32c : crc32c [0x31, 0x32, 0x33, 0x34, 0x35, 0x36, 0x37, 0x38, 0x39] = 0xE3069283 := by decide +kernel
/-- R380: one changed symbol, and one in each of two codewords, are corrected; two symbols of one codeword are not. -/
theorem test_symbol_code :
    readUnit160 [(3, 5)] = .corrected [(3, 0)] [] ∧ readUnit160 [(3, 5), (4, 1)] = .corrected [(0, 1), (3, 0)] [] ∧
    readUnit160 [(3, 5), (7, 1)] = .uncorrectable := by decide +kernel
/-- R401: the first test vector of RFC 8032, and the same signature over another message. -/
theorem test_ed25519 :
    let key := 11903303657706407974989296177215005343713679411332034699907763981919547054807
    let sig := octetsLE 64 579488080156766215249739962176400057674288061147964324404111256169078651336588898642120458533972652238312526671324459760923016998024714157205975099201253
    ed25519 key [] sig = true ∧ ed25519 key [0] sig = false := by decide +kernel
/-- R453: with one VF its entry, not the PF's, is unmasked for vector 0, and the PF's for vector 128. -/
theorem test_msix_delegated_vector :
    let s := (State.reset.updHost fun x => { x with numVfs := 1 })
    answers (exec (.msiXUnmask 0) s) (fun t => decide ((Sparse.get MsixVec.reset t.h.host.msix 2048).masked = false)) = true ∧
    answers (exec (.msiXUnmask 128) s) (fun t => decide ((Sparse.get MsixVec.reset t.h.host.msix 128).masked = false)) = true := by
  decide +kernel
/-- R81: before any frame the Horizon is the tick before; R78: 2^18 events fill a tick. -/
theorem test_stamp_overflows_into_next_tick :
    (((ticks 30 1).updSd fun x => { x with seq := [(33, 2 ^ 18)], seqTick := 30 }).stamp 33).2 = ⟨31, 33, 0⟩ := by decide +kernel
/-- R79: ticks compare within half of their range. -/
theorem test_position_order :
    (⟨0, 5, 0⟩ : Position).before ⟨0, 5, 1⟩ = true ∧ (⟨-1, 5, 0⟩ : Position).before ⟨0, 0, 0⟩ = true ∧
    (⟨0, 0, 9⟩ : Position).before ⟨0, 1, 0⟩ = true := by decide +kernel

end Sys2Proof.Tests
end

section
/-! PROOFS of the scope statements O1, O4 and O22. Frames of the commands: on top of the frames of the shared operations
(Sys2Proof/Laws/Kept.lean), a lemma `execX_kept` says that command X keeps the queue, the fuses and the burn under way, and
`execX_keptOrBurned` that it does so but for a burn under way, which a mailbox command may find complete (`State.settled`, R435). -/

/-! ### What a command does to the queue of commands, the fuses and a burn under way -/

namespace Sys2Proof.Machine

/-! #### Shared forms of instructions -/

@[simp] theorem stateOr_next (s t : State) : stateOr s (.next t) = t := rfl

@[simp] theorem kept_ite (p : Prop) [Decidable p] (s t : State) :
    (if p then s else t).kept = if p then s.kept else t.kept := apply_ite State.kept p s t

/-- `State.instr_kept` for the meaning of a command that is one instruction. -/
theorem instr_next_kept {s : State} {c : CoreId} {i : Instr} {body : Cur → State → Act} (h : ∀ x t, (body x t).Keeps t) :
    (stateOr s (.next (s.instr c i body))).kept = s.kept := State.instr_kept s c i h

/-- An instruction that faults under p, with nothing performed, and otherwise acts as a. -/
theorem Act.keeps_faultIf {s : State} {p : Prop} [Decidable p] {cause : Cause} {faddr : Nat} {a : Act} (h : a.Keeps s) :
    (if p then .fault cause faddr else a : Act).Keeps s := by
  split
  · trivial
  · exact h

theorem State.regOp_kept (s : State) (c : CoreId) (i : Instr) (cc : Nat) (f : CoreRegs → CoreRegs) :
    (stateOr s (s.regOp c i cc f)).kept = s.kept :=
  instr_next_kept fun _ t => State.updR_kept t c f

theorem State.startMul_kept (s : State) (c : CoreId) (i : Instr) (d : Reg) (f : CoreRegs → Word) :
    (stateOr s (s.startMul c i d f)).kept = s.kept :=
  instr_next_kept fun _ t => State.updCore_kept t c _

theorem State.startDiv_kept (s : State) (c : CoreId) (i : Instr) (d b : Reg) (f : CoreRegs → Word) :
    (stateOr s (s.startDiv c i d b f)).kept = s.kept :=
  instr_next_kept fun _ t => Act.keeps_faultIf (State.updCore_kept t c _)

theorem State.jump_kept (s : State) (c : CoreId) (i : Instr) (cc : Nat) (target : Core → Nat) :
    (stateOr s (s.jump c i cc target)).kept = s.kept :=
  instr_next_kept fun _ t => Eq.refl t.kept

theorem State.call_kept (s : State) (c : CoreId) (i : Instr) (len : Nat) (mask : BitVec 32) (target : Core → Nat) :
    (stateOr s (s.call c i len mask target)).kept = s.kept := by
  refine instr_next_kept fun _ t => ?_
  dsimp only
  split
  · trivial
  · exact State.updR_kept t c _

theorem State.startLoop_kept (s : State) (c : CoreId) (i : Instr) (len : Nat) (count : Core → Nat) (lam : BitVec 3)
    (b : BitVec 11) : (stateOr s (s.startLoop c i len count lam b)).kept = s.kept := by
  refine instr_next_kept fun _ t => ?_
  dsimp only
  repeat' split
  · trivial
  · trivial
  · exact Eq.refl t.kept
  · exact State.updR_kept (t.updCore c Core.dropBuf) c _

theorem State.decOpr_kept (s : State) (c : CoreId) (i : Instr) (x : DReg) (cc : Nat) (f : CoreRegs → Int) :
    (stateOr s (s.decOpr c i x cc f)).kept = s.kept :=
  instr_next_kept fun _ t => State.decResult_keeps (Eq.refl t.kept)

theorem State.startFp_keeps (t : State) (c : CoreId) (cc lat : Nat) (root lo : Bool) (v : Nat) (g : FFlags) (x : FpDesc) :
    (t.startFp c cc lat root lo v g x).Keeps t := State.updCore_kept t c _

theorem State.fpTwo_kept (s : State) (c : CoreId) (i : Instr) (d b : Reg) (l : Bool) (rm : BitVec 3) (lat : Nat) (root : Bool)
    (op : FFmt → Nat → FVal → FVal → Nat × FFlags) : (stateOr s (s.fpTwo c i d b l rm lat root op)).kept = s.kept :=
  instr_next_kept fun _ t => State.startFp_keeps t c _ _ _ _ _ _ _

theorem State.fpOne_kept (s : State) (c : CoreId) (i : Instr) (d b : Reg) (li lo l : Bool) (mode : CoreRegs → Nat) (lat : Nat)
    (root : Bool) (op : Nat → Nat → Nat × FFlags) : (stateOr s (s.fpOne c i d b li lo l mode lat root op)).kept = s.kept :=
  instr_next_kept fun _ t => State.startFp_keeps t c _ _ _ _ _ _ _

theorem State.afterUnit_kept (s : State) (c : CoreId) (i : Instr) (cc : Nat) (f : Core → Core) :
    (stateOr s (s.afterUnit c i cc f)).kept = s.kept := by
  refine instr_next_kept fun _ t => ?_
  split
  · trivial
  · exact State.updCore_kept t c f

theorem State.tlbOp_kept (s : State) (c : CoreId) (i : Instr) {body : Cur → State → Act} (h : ∀ x t, (body x t).Keeps t) :
    (stateOr s (s.tlbOp c i body)).kept = s.kept := instr_next_kept fun x t => Act.keeps_faultIf (h x t)

/-! #### Instructions with a body of their own -/

@[simp] theorem execMultiplyResult_kept (c : CoreId) (s : State) : (stateOr s (execMultiplyResult c s)).kept = s.kept := by
  unfold execMultiplyResult
  dsimp only
  (repeat' split) <;> simp
@[simp] theorem execDivideResult_kept (c : CoreId) (s : State) : (stateOr s (execDivideResult c s)).kept = s.kept := by
  unfold execDivideResult
  dsimp only
  (repeat' split) <;> simp
@[simp] theorem execDecimalUnitResult_kept (c : CoreId) (s : State) : (stateOr s (execDecimalUnitResult c s)).kept = s.kept := by
  unfold execDecimalUnitResult
  dsimp only
  (repeat' split) <;> simp
@[simp] theorem execFloatResult_kept (c : CoreId) (s : State) : (stateOr s (execFloatResult c s)).kept = s.kept := by
  unfold execFloatResult
  dsimp only
  (repeat' split) <;> simp

@[simp] theorem execCmpb_kept (c : CoreId) (cc : Cond) (a : Reg) (b : CmpArg) (disp : BitVec 14) (s : State) :
    (stateOr s (execCmpb c cc a b disp s)).kept = s.kept :=
  instr_next_kept fun _ t => Eq.refl t.kept
@[simp] theorem execMfs_kept (c : CoreId) (d : Reg) (n : BitVec 6) (s : State) : (stateOr s (execMfs c d n s)).kept = s.kept :=
  instr_next_kept fun _ t => State.updR_kept t c _
@[simp] theorem execMts_kept (c : CoreId) (n : BitVec 6) (a : Reg) (s : State) : (stateOr s (execMts c n a s)).kept = s.kept :=
  instr_next_kept fun _ t => State.updR_kept t c _
@[simp] theorem execRet_kept (c : CoreId) (s : State) : (stateOr s (execRet c s)).kept = s.kept := by
  refine instr_next_kept fun _ t => ?_
  dsimp only
  split
  · split <;> trivial
  · split
    · exact Eq.refl t.kept
    · split <;> trivial
@[simp] theorem execLoopOff_kept (c : CoreId) (s : State) : (stateOr s (execLoopOff c s)).kept = s.kept :=
  instr_next_kept fun _ t => State.updR_kept (t.updCore c Core.dropBuf) c _
@[simp] theorem execBreak_kept (c : CoreId) (code : BitVec 14) (s : State) : (stateOr s (execBreak c code s)).kept = s.kept :=
  instr_next_kept fun _ t => State.updCore_kept t c _
@[simp] theorem execIsync_kept (c : CoreId) (s : State) : (stateOr s (execIsync c s)).kept = s.kept :=
  instr_next_kept fun _ t => State.updCore_kept t c _
@[simp] theorem execMsync_kept (c : CoreId) (s : State) : (stateOr s (execMsync c s)).kept = s.kept := by
  refine instr_next_kept fun _ t => ?_
  split <;> exact Eq.refl t.kept
@[simp] theorem execEret_kept (c : CoreId) (s : State) : (stateOr s (execEret c s)).kept = s.kept := by
  refine instr_next_kept fun _ t => ?_
  dsimp only
  split
  · exact State.updR_kept t c _
  · trivial
@[simp] theorem execPret_kept (c : CoreId) (s : State) : (stateOr s (execPret c s)).kept = s.kept := by
  refine instr_next_kept fun _ t => ?_
  dsimp only
  split
  · exact State.updR_kept t c _
  · trivial
@[simp] theorem execAlarm_kept (c : CoreId) (a : Reg) (s : State) : (stateOr s (execAlarm c a s)).kept = s.kept :=
  instr_next_kept fun _ t => State.updCore_kept t c _
@[simp] theorem execAlarmOff_kept (c : CoreId) (s : State) : (stateOr s (execAlarmOff c s)).kept = s.kept :=
  instr_next_kept fun _ t => State.updCore_kept t c _
@[simp] theorem execDoorbell_kept (c : CoreId) (mask : BitVec 8) (s : State) : (stateOr s (execDoorbell c mask s)).kept = s.kept :=
  instr_next_kept fun _ t => iter_kept (fun _ x => by simp) 8 t
@[simp] theorem execCodeWr_kept (c : CoreId) (a b : Reg) (s : State) : (stateOr s (execCodeWr c a b s)).kept = s.kept := by
  refine instr_next_kept fun _ t => ?_
  dsimp only
  repeat' split
  · trivial
  · trivial
  · trivial
  · exact State.writeCode_kept t _ _ _
@[simp] theorem execUndefinedEncoding_kept (c : CoreId) (s : State) : (stateOr s (execUndefinedEncoding c s)).kept = s.kept := by
  unfold execUndefinedEncoding
  dsimp only
  repeat' split
  case h_1 h => exact (State.fetchStop_kept _ _ _ _ h).trans (State.rung_kept s c)
  all_goals simp

@[simp] theorem execHome_kept (c : CoreId) (d a : Reg) (s : State) : (stateOr s (execHome c d a s)).kept = s.kept :=
  instr_next_kept fun _ t => Act.keeps_faultIf (State.updR_kept t c _)
@[simp] theorem execTxnNext_kept (c : CoreId) (d : Reg) (s : State) : (stateOr s (execTxnNext c d s)).kept = s.kept := by
  refine instr_next_kept fun _ t => ?_
  repeat' split
  · trivial
  · trivial
  · trivial
  · exact State.nextTaken_kept t c d _
@[simp] theorem execTxnWait_kept (c : CoreId) (s : State) : (stateOr s (execTxnWait c s)).kept = s.kept := by
  refine instr_next_kept fun _ t => ?_
  (repeat' split) <;> trivial

@[simp] theorem execDmul_kept (c : CoreId) (x y : DReg) (s : State) : (stateOr s (execDmul c x y s)).kept = s.kept :=
  instr_next_kept fun _ t => State.decProduct_keeps (Eq.refl t.kept)
@[simp] theorem execDmulw_kept (c : CoreId) (x y : DReg) (s : State) : (stateOr s (execDmulw c x y s)).kept = s.kept :=
  instr_next_kept fun _ t => State.startDec_keeps (Eq.refl t.kept)
@[simp] theorem execDdiv_kept (c : CoreId) (x y z : DReg) (rm : BitVec 3) (s : State) :
    (stateOr s (execDdiv c x y z rm s)).kept = s.kept :=
  instr_next_kept fun _ t => Act.keeps_faultIf (State.startDec_keeps (Eq.refl t.kept))
@[simp] theorem execCvdb_kept (c : CoreId) (d : Reg) (x : DReg) (s : State) : (stateOr s (execCvdb c d x s)).kept = s.kept :=
  instr_next_kept fun _ t => Act.keeps_faultIf (State.updR_kept t c _)
@[simp] theorem execCvdbL_kept (c : CoreId) (d : Reg) (x : DReg) (s : State) : (stateOr s (execCvdbL c d x s)).kept = s.kept :=
  instr_next_kept fun _ t => Act.keeps_faultIf (State.updR_kept t c _)

@[simp] theorem execCsetb_kept (c : CoreId) (kd ks : CapNum) (wb wl : Reg) (s : State) :
    (stateOr s (execCsetb c kd ks wb wl s)).kept = s.kept :=
  instr_next_kept fun _ t => Act.keeps_faultIf (State.updR_kept t c _)
@[simp] theorem execCsetk_kept (c : CoreId) (kd ks : CapNum) (wk : Reg) (s : State) :
    (stateOr s (execCsetk c kd ks wk s)).kept = s.kept :=
  instr_next_kept fun _ t => Act.keeps_faultIf (State.updR_kept t c _)
@[simp] theorem execTlbInv_kept (c : CoreId) (a : Reg) (s : State) : (stateOr s (execTlbInv c a s)).kept = s.kept := by
  refine State.tlbOp_kept _ _ _ fun _ t => ?_
  dsimp only
  split
  · exact Eq.refl t.kept
  · exact State.updCore_kept t c _
@[simp] theorem execTlbInva_kept (c : CoreId) (s : State) : (stateOr s (execTlbInva c s)).kept = s.kept :=
  State.tlbOp_kept _ _ _ fun _ t => State.updCore_kept t c _
@[simp] theorem execTlbUnlk_kept (c : CoreId) (a : Reg) (s : State) : (stateOr s (execTlbUnlk c a s)).kept = s.kept := by
  refine State.tlbOp_kept _ _ _ fun _ t => ?_
  dsimp only
  split
  · simp [Act.Keeps]
  · exact Eq.refl t.kept
@[simp] theorem execTlbRd_kept (c : CoreId) (d a : Reg) (s : State) : (stateOr s (execTlbRd c d a s)).kept = s.kept :=
  State.tlbOp_kept _ _ _ fun _ t => State.updR_kept t c _
@[simp] theorem execFsqrt_kept (c : CoreId) (d b : Reg) (l : Bool) (rm : BitVec 3) (s : State) :
    (stateOr s (execFsqrt c d b l rm s)).kept = s.kept := by
  unfold execFsqrt
  exact State.fpOne_kept s _ _ _ _ _ _ _ _ _ _ _
@[simp] theorem execFneg_kept (c : CoreId) (d b : Reg) (l : Bool) (s : State) : (stateOr s (execFneg c d b l s)).kept = s.kept := by
  unfold execFneg
  exact State.fpOne_kept s _ _ _ _ _ _ _ _ _ _ _
@[simp] theorem execFabs_kept (c : CoreId) (d b : Reg) (l : Bool) (s : State) : (stateOr s (execFabs c d b l s)).kept = s.kept := by
  unfold execFabs
  exact State.fpOne_kept s _ _ _ _ _ _ _ _ _ _ _
@[simp] theorem execFcmp_kept (c : CoreId) (d a b : Reg) (l : Bool) (s : State) : (stateOr s (execFcmp c d a b l s)).kept = s.kept :=
  instr_next_kept fun _ t => State.startFp_keeps t c _ _ _ _ _ _ _


/-! #### Events of the package -/

/-- The frame of an event's meaning is that of the state it answers. -/
theorem next_kept {s t : State} (h : t.kept = s.kept) : (stateOr s (.next t)).kept = s.kept := h

/-- The state of an answer that a pattern names, from the frame of the operation that answers it. -/
theorem kept_of_eq {α : Type} {s t : State} {p : State × α} {x : α} (h : p = (t, x)) (hp : p.1.kept = s.kept) :
    t.kept = s.kept := by
  rwa [h] at hp

/-- `State.receive_kept` for an effect that may answer the state before the message was taken. -/
theorem State.receive_kept_of (s : State) (sel : Msg → Bool) {f : State → Msg → State}
    (h : ∀ x m, x.kept = s.kept → (f x m).kept = s.kept) : (s.receive sel f).kept = s.kept := by
  unfold State.receive
  split
  · rfl
  · exact h _ _ rfl

/-! Access.lean -/

@[simp] theorem execGateCheck_kept (id : Nat) (s : State) : (stateOr s (execGateCheck id s)).kept = s.kept := by
  refine next_kept ?_
  simp only []
  (repeat' split) <;> simp

@[simp] theorem execTargetViolation_kept (id : Nat) (s : State) :
    (stateOr s (execTargetViolation id s)).kept = s.kept := by
  refine next_kept ?_
  (repeat' split) <;> simp

@[simp] theorem execLineAccess_kept (id k : Nat) (e : Ecc) (s : State) :
    (stateOr s (execLineAccess id k e s)).kept = s.kept := by
  refine next_kept ?_
  (repeat' split) <;> simp

@[simp] theorem execMemoryResponse_kept (id cc : Nat) (s : State) :
    (stateOr s (execMemoryResponse id cc s)).kept = s.kept := by
  refine next_kept ?_
  (repeat' split) <;> simp

@[simp] theorem execHost3Completion_kept (id : Nat) (r : Host3Result) (cc : Nat) (s : State) :
    (stateOr s (execHost3Completion id r cc s)).kept = s.kept := by
  refine next_kept ?_
  simp only []
  (repeat' split) <;> simp

@[simp] theorem execPageWalk_kept (cl : ClusterId) (x1 x2 : Ecc) (cc : Nat) (s : State) :
    (stateOr s (execPageWalk cl x1 x2 cc s)).kept = s.kept := by
  refine next_kept ?_
  simp only []
  (repeat' split) <;> simp
  case h_2 hw => exact State.walk_kept _ _ _ _ _ _ _ hw
  case h_3 hw => exact State.walk_kept _ _ _ _ _ _ _ hw

@[simp] theorem execInterruptTake_kept (c : CoreId) (s : State) :
    (stateOr s (execInterruptTake c s)).kept = s.kept := by
  refine next_kept ?_
  (repeat' split) <;> simp

/-! Posting.lean -/

@[simp] theorem execClaimArrive_kept (d : DieId) (s : State) : (stateOr s (execClaimArrive d s)).kept = s.kept := by
  refine next_kept (State.receive_kept _ _ fun x m => ?_)
  (repeat' split) <;> simp

@[simp] theorem execGrantReceive_kept (d : DieId) (waitNs : Nat) (s : State) :
    (stateOr s (execGrantReceive d waitNs s)).kept = s.kept := by
  refine next_kept (State.receive_kept _ _ fun x m => ?_)
  (repeat' split) <;> simp

@[simp] theorem execClaimRelease_kept (d : DieId) (s : State) : (stateOr s (execClaimRelease d s)).kept = s.kept := by
  refine next_kept (State.receive_kept _ _ fun x m => ?_)
  split
  · refine (foldl_kept (fun y l => ?_) _ _).trans (State.updDie_kept _ _ _)
    simp
  · rfl

@[simp] theorem execFrontierSend_kept (d : DieId) (p : PartId) (s : State) :
    (stateOr s (execFrontierSend d p s)).kept = s.kept := by
  refine next_kept ?_
  dsimp only
  split
  · rfl
  split
  · simp
  · refine (foldl_kept (fun x e => ?_) _ _).trans (State.updDie_kept _ _ _)
    split <;> simp

@[simp] theorem execFrontierReceive_kept (d : DieId) (s : State) :
    (stateOr s (execFrontierReceive d s)).kept = s.kept := by
  refine next_kept (State.receive_kept _ _ fun x m => ?_)
  (repeat' split) <;> simp

@[simp] theorem execPostingRequest_kept (id : Nat) (e : Ecc) (s : State) :
    (stateOr s (execPostingRequest id e s)).kept = s.kept := by
  refine next_kept ?_
  simp only []
  (repeat' split) <;> simp

@[simp] theorem execPostingResult_kept (id cc : Nat) (s : State) :
    (stateOr s (execPostingResult id cc s)).kept = s.kept := by
  refine next_kept ?_
  (repeat' split) <;> simp

@[simp] theorem execDaccApply_kept (d : DieId) (e : Ecc) (s : State) :
    (stateOr s (execDaccApply d e s)).kept = s.kept := by
  refine next_kept ?_
  simp only []
  (repeat' split) <;> simp

@[simp] theorem execResolveRequest_kept (s : State) : (stateOr s (execResolveRequest s)).kept = s.kept := by
  refine next_kept ?_
  split
  · rfl
  · refine State.receive_kept_of _ _ fun x m hx => ?_
    simp only []
    (repeat' split) <;> simp [hx]

@[simp] theorem execGateAnswer_kept (d : DieId) (cc : Nat) (s : State) :
    (stateOr s (execGateAnswer d cc s)).kept = s.kept := by
  refine next_kept (State.receive_kept _ _ fun x m => ?_)
  simp only []
  (repeat' split) <;> simp

@[simp] theorem execAbortNotice_kept (d : DieId) (s : State) : (stateOr s (execAbortNotice d s)).kept = s.kept := by
  refine next_kept (State.receive_kept _ _ fun x m => ?_)
  split
  · dsimp only
    (repeat' split) <;> simp
  · rfl

/-! Order.lean -/

@[simp] theorem execTickEdge_kept (s : State) : (stateOr s (execTickEdge s)).kept = s.kept := by
  refine next_kept ?_
  dsimp only
  split
  · simp
  · rw [State.tryAdmission_kept, State.holdTime_kept, iter_kept fun d x => by split <;> simp]
    simp

@[simp] theorem execCurfewCheck_kept (p : PartId) (s : State) : (stateOr s (execCurfewCheck p s)).kept = s.kept := by
  refine next_kept (State.atStep_kept _ _ fun x => ?_)
  split
  · rfl
  · exact foldl_kept (fun y t => by simp) _ _

@[simp] theorem execEpochSeal_kept (p : PartId) (s : State) : (stateOr s (execEpochSeal p s)).kept = s.kept := by
  refine next_kept (State.atStep_kept _ _ fun x => ?_)
  split
  · rfl
  · dsimp only
    rw [State.shipSealed_kept]
    split
    · exact (State.sealFrom_kept _ _ _).trans (State.takeDigests_kept x p)
    · exact State.takeDigests_kept x p

@[simp] theorem execReleaseLaunch_kept (p : PartId) (s : State) :
    (stateOr s (execReleaseLaunch p s)).kept = s.kept := by
  refine next_kept (State.atStep_kept _ _ fun x => ?_)
  dsimp only
  split
  · rfl
  · exact State.releaseFrom_kept x p _

@[simp] theorem execReleaseReceive_kept (d : DieId) (p : PartId) (s : State) :
    (stateOr s (execReleaseReceive d p s)).kept = s.kept := by
  refine next_kept ?_
  split
  · rfl
  · refine State.receive_kept _ _ fun x m => ?_
    (repeat' split) <;> simp

@[simp] theorem execVisibleEpochSwitch_kept (d : DieId) (p : PartId) (s : State) :
    (stateOr s (execVisibleEpochSwitch d p s)).kept = s.kept := by
  refine next_kept ?_
  (repeat' split) <;> simp

@[simp] theorem execHubVisibleSwitch_kept (p : PartId) (s : State) :
    (stateOr s (execHubVisibleSwitch p s)).kept = s.kept := by
  refine next_kept ?_
  simp only []
  (repeat' split) <;> simp

@[simp] theorem execAlarmFire_kept (c : CoreId) (s : State) : (stateOr s (execAlarmFire c s)).kept = s.kept := by
  refine next_kept ?_
  split
  · rfl
  split
  · simp
  · refine State.dieStep_kept _ _ _ fun x => ?_
    split <;> simp

@[simp] theorem execScrubSlice_kept (d : DieId) (row : Bool) (es : List Ecc) (s : State) :
    (stateOr s (execScrubSlice d row es s)).kept = s.kept := by
  refine next_kept (State.dieStep_kept _ _ _ fun x => ?_)
  split
  · rfl
  · exact foldl_kept (fun y e => State.scrubNext_kept y _ _ e) _ _

@[simp] theorem execStatisticsSnapshot_kept (s : State) : (stateOr s (execStatisticsSnapshot s)).kept = s.kept := by
  refine next_kept ?_
  split
  · rfl
  · exact State.atStep_kept _ _ fun x => by simp

@[simp] theorem execHorizonAnnounce_kept (u : HzUnit) (s : State) :
    (stateOr s (execHorizonAnnounce u s)).kept = s.kept := by
  refine next_kept ?_
  (repeat' split) <;> simp

@[simp] theorem execHorizonReceive_kept (dst src : HzUnit) (s : State) :
    (stateOr s (execHorizonReceive dst src s)).kept = s.kept := by
  refine next_kept (State.receive_kept _ _ fun x m => ?_)
  (repeat' split) <;> simp

/-! Lpt.lean -/

@[simp] theorem execOpen_kept (n : PortId) (s : State) : (stateOr s (execOpen n s)).kept = s.kept := by
  refine next_kept (State.takeLpt_kept _ _ _ fun x m => ?_)
  simp only []
  (repeat' split) <;> simp

@[simp] theorem execAck_kept (n : PortId) (s : State) : (stateOr s (execAck n s)).kept = s.kept := by
  refine next_kept (State.takeLpt_kept _ _ _ fun x m => ?_)
  (repeat' split) <;> simp

@[simp] theorem execClose_kept (n : PortId) (s : State) : (stateOr s (execClose n s)).kept = s.kept := by
  refine next_kept (State.takeLpt_kept _ _ _ fun x m => ?_)
  (repeat' split) <;> simp

@[simp] theorem execLptResend_kept (n : PortId) (sid seq : BitVec 32) (s : State) :
    (stateOr s (execLptResend n sid seq s)).kept = s.kept := by
  refine next_kept ?_
  (repeat' split) <;> simp

@[simp] theorem execLptHoldExpiry_kept (n : PortId) (sid seq : BitVec 32) (s : State) :
    (stateOr s (execLptHoldExpiry n sid seq s)).kept = s.kept := by
  refine next_kept ?_
  (repeat' split) <;> simp

@[simp] theorem execFrameCopyArrive_kept (d : DieId) (s : State) :
    (stateOr s (execFrameCopyArrive d s)).kept = s.kept := by
  refine next_kept (State.receive_kept _ _ fun x m => ?_)
  (repeat' split) <;> simp

@[simp] theorem execRequest_kept (n : PortId) (s : State) : (stateOr s (execRequest n s)).kept = s.kept := by
  refine next_kept (State.takeLpt_kept _ _ _ fun x m => ?_)
  extract_lets row s1 peer
  have h1 : s1.kept = x.kept := by simp only [s1]; split <;> simp
  clear_value row s1 peer
  split
  case h_7 =>
    split
    · simp [h1]
    case h_2 hr => simpa using (State.reserveFrame_kept _ _ _ _ _ hr).trans h1
  all_goals simp [h1]

@[simp] theorem execStandinResponse_kept (p : PartId) (s : State) :
    (stateOr s (execStandinResponse p s)).kept = s.kept := by
  refine next_kept ?_
  simp only []
  (repeat' split) <;> simp

@[simp] theorem execDeparturePass_kept (n : PortId) (p : PartId) (s : State) :
    (stateOr s (execDeparturePass n p s)).kept = s.kept := by
  refine next_kept ?_
  split
  · rfl
  · exact foldl_kept (fun x e => State.depart_kept x _ e) _ _

/-! Ports.lean -/

@[simp] theorem execFrameTransmit_kept (n : PortId) (s : State) :
    (stateOr s (execFrameTransmit n s)).kept = s.kept := by
  refine next_kept ?_
  extract_lets sent d s1
  have hs (x : State) (o : List Octet) : (sent x o).kept = x.kept := by simp [sent]
  have h1 : s1.kept = s.kept := iter_kept (fun p x => State.cleanSide_kept x d p _) 16 s
  clear_value sent s1
  split
  · rfl
  split
  · simp [hs]
  split
  · split
    case h_1 hr => exact (hs _ _).trans (kept_of_eq hr (State.sendResponse_kept _ _ _))
    case h_2 hr => exact kept_of_eq hr (State.sendResponse_kept _ _ _)
  split
  · rfl
  split
  case h_1 hr =>
    obtain ⟨p, _, hp⟩ := List.exists_of_findSome?_eq_some hr
    have h2 := (State.takeSide_kept _ _ _ _ _ hp).trans h1
    split
    · exact h2
    · exact (hs _ _).trans h2
  case h_2 => exact h1

@[simp] theorem execPtpMessage_kept (n : PortId) (t : PtpStamps) (s : State) :
    (stateOr s (execPtpMessage n t s)).kept = s.kept := by
  refine next_kept ?_
  (repeat' split) <;> simp

/-! Tandem.lean -/

@[simp] theorem execDieFence_kept (d : DieId) (s : State) : (stateOr s (execDieFence d s)).kept = s.kept := by
  refine next_kept ?_
  (repeat' split) <;> simp

/-! Apply.lean -/

@[simp] theorem execStagingDeadline_kept (s : State) : (stateOr s (execStagingDeadline s)).kept = s.kept := by
  refine next_kept ?_
  (repeat' split) <;> simp

@[simp] theorem execPlanTakeEffect_kept (s : State) : (stateOr s (execPlanTakeEffect s)).kept = s.kept := by
  refine next_kept ?_
  split
  · rfl
  repeat' split
  · rfl
  · exact State.takeEffect_kept s _
  · rfl
  · exact State.atStep_kept s 1 fun y => State.takeEffect_kept y _
  · rfl

/-! Mirror.lean -/

@[simp] theorem execHeartSend_kept (s : State) :
    (stateOr s (execHeartSend s)).kept = s.kept := next_kept (foldl_kept (fun x _ => State.sendMirrorOn_kept x _ _ _) _ _)

@[simp] theorem execHeart_kept (t2 : Int) (s : State) : (stateOr s (execHeart t2 s)).kept = s.kept := by
  refine next_kept (State.takeMirror_kept _ _ fun x f => ?_)
  (repeat' split) <;> simp

@[simp] theorem execLog_kept (s : State) : (stateOr s (execLog s)).kept = s.kept := by
  refine next_kept (State.takeMirror_kept _ _ fun x f => ?_)
  (repeat' split) <;> simp

@[simp] theorem execMirrorAck_kept (s : State) : (stateOr s (execMirrorAck s)).kept = s.kept := by
  refine next_kept (State.takeMirror_kept _ _ fun x f => ?_)
  split
  · dsimp only
    split
    · rfl
    · rw [State.edgePassed_kept, foldl_kept fun y m => by simp]
      split <;> simp
  · rfl

@[simp] theorem execDigestCompare_kept (p : PartId) (s : State) :
    (stateOr s (execDigestCompare p s)).kept = s.kept := by
  refine next_kept ?_
  simp only []
  (repeat' split) <;> simp

@[simp] theorem execLine_kept (s : State) : (stateOr s (execLine s)).kept = s.kept := by
  refine next_kept ?_
  split
  · refine State.receive_kept _ _ fun x m => ?_
    (repeat' split) <;> simp
  · simp

@[simp] theorem execJoin_kept (s : State) : (stateOr s (execJoin s)).kept = s.kept := by
  refine next_kept ?_
  dsimp only
  split
  · refine State.takeMirror_kept _ _ fun x f => ?_
    (repeat' split) <;> simp
  · (repeat' split) <;> simp

@[simp] theorem execJoined_kept (s : State) : (stateOr s (execJoined s)).kept = s.kept := by
  refine next_kept (State.takeMirror_kept _ _ fun x f => ?_)
  (repeat' split) <;> simp

@[simp] theorem execLeadLost_kept (s : State) : (stateOr s (execLeadLost s)).kept = s.kept := by
  refine next_kept ?_
  (repeat' split) <;> simp

@[simp] theorem execTake_kept (s : State) : (stateOr s (execTake s)).kept = s.kept := by
  refine next_kept (State.takeMirror_kept _ _ fun x f => ?_)
  (repeat' split) <;> simp

/-! Host.lean -/

@[simp] theorem execConfigurationSpaceWrite_kept (w : CfgWrite) (s : State) :
    (stateOr s (execConfigurationSpaceWrite w s)).kept = s.kept := by
  refine next_kept ?_
  (repeat' split) <;> simp

@[simp] theorem execWindowRead_kept (f : HostFn) (w : PartId) (off : Nat) (e : Ecc) (s : State) :
    (stateOr s (execWindowRead f w off e s)).kept = s.kept := by
  refine next_kept ?_
  extract_lets pa
  clear_value pa
  split
  · rfl
  split
  case h_1 hc => exact (State.answerWord_kept _ _).trans (kept_of_eq hc (State.winCheck_kept _ _ _ _ _))
  case h_2 s1 v hc =>
    have h1 := kept_of_eq hc (State.winCheck_kept _ _ _ _ _)
    have hw := State.winWord_kept s1 f w pa e v
    generalize s1.winWord f w pa e v = r at hw ⊢
    obtain ⟨s2, x⟩ := r
    split
    · rfl
    · rw [State.answerWord_kept]; exact hw.trans h1

@[simp] theorem execSpace2ViewAccess_kept (off size : Nat) (v : Option (BitVec 64)) (s : State) :
    (stateOr s (execSpace2ViewAccess off size v s)).kept = s.kept := by
  refine next_kept ?_
  simp only []
  (repeat' split) <;> simp

@[simp] theorem execHostInjection_kept (q : Fin 64) (header : BitVec 64) (r : DmaResult) (s : State) :
    (stateOr s (execHostInjection q header r s)).kept = s.kept := by
  refine next_kept ?_
  (repeat' split) <;> simp

@[simp] theorem execHostResponseWrite_kept (p : PartId) (s : State) :
    (stateOr s (execHostResponseWrite p s)).kept = s.kept := by
  refine next_kept ?_
  simp only []
  (repeat' split) <;> simp

@[simp] theorem execRegisterWrite_kept (r : RegTarget) (s : State) :
    (stateOr s (execRegisterWrite r s)).kept = s.kept := by
  refine next_kept ?_
  (repeat' split) <;> simp

/-! Mailbox.lean -/

@[simp] theorem execRowPprDone_kept (d : DieId) (pc bank row : Nat) (s : State) :
    (stateOr s (execRowPprDone d pc bank row s)).kept = s.kept := by
  refine next_kept ?_
  (repeat' split) <;> simp

/-! Power.lean -/

@[simp] theorem execDomainPowerGrant_kept (s : State) : (stateOr s (execDomainPowerGrant s)).kept = s.kept := by
  refine next_kept ?_
  rw [State.progress_kept, foldl_kept fun x i => State.domainOn_kept x i]
  exact State.updPwr_kept _ _

@[simp] theorem execClockSwitch_kept (s : State) : (stateOr s (execClockSwitch s)).kept = s.kept := by
  refine next_kept ?_
  repeat' split
  · exact State.atStep_kept s 2 fun x => by simp
  · rfl
  · rfl

@[simp] theorem execNightEntry_kept (s : State) : (stateOr s (execNightEntry s)).kept = s.kept := by
  refine next_kept ?_
  (repeat' split) <;> simp

/-! #### Mailbox commands, which may complete a burn that is under way -/

/-- t has the queue, the fuses and the burn of s, or those that s has once its burn is complete. -/
def KeptOrBurned (s t : State) : Prop := t.kept = s.kept ∨ t.kept = s.burned.kept

theorem KeptOrBurned.pending {s t : State} (h : KeptOrBurned s t) : t.pending = s.pending := by
  rcases h with h | h
  · exact congrArg Prod.fst h
  · exact (congrArg Prod.fst h).trans (State.burned_pending s)

theorem KeptOrBurned.of_kept {s t u : State} (h : KeptOrBurned s t) (hu : u.kept = t.kept) : KeptOrBurned s u :=
  h.imp hu.trans hu.trans

theorem State.burned_of_none {s : State} (h : s.h.burning = none) : s.burned = s := by
  unfold State.burned
  rw [h]

theorem State.settled_keptOrBurned (s : State) : KeptOrBurned s s.settled := by
  unfold State.settled
  split
  · exact .inl rfl
  · exact .inr rfl

/-- Completing a burn twice does no more than completing it once. -/
theorem State.settled_settled (s : State) : s.settled.settled = s.settled := by
  by_cases hc : (s.fromHost && !s.h.host.mbx.done) = true
  · have h : s.settled = s := if_pos hc
    rw [h, h]
  · have h : s.settled = s.burned := if_neg hc
    rw [h]
    unfold State.settled
    rw [State.burned_of_none (State.burned_burning s), ite_self]

theorem command_keptOrBurned (s : State) (tag code : BitVec 8) (legal : List Nat) {f : State → State}
    (h : ∀ x, (f x).kept = x.kept) : KeptOrBurned s (s.command tag code legal f) :=
  s.settled_keptOrBurned.of_kept (State.command_kept s tag code legal h)

/-- `command_keptOrBurned` for the meaning of a command that is one mailbox command. -/
theorem command_next_keptOrBurned {s : State} {tag code : BitVec 8} {legal : List Nat} {f : State → State}
    (h : ∀ x, (f x).kept = x.kept) : KeptOrBurned s (stateOr s (.next (s.command tag code legal f))) :=
  command_keptOrBurned s tag code legal h

theorem execMailboxNop_keptOrBurned (tag : BitVec 8) (s : State) : KeptOrBurned s (stateOr s (execMailboxNop tag s)) :=
  command_next_keptOrBurned fun x => State.mbxResult_kept x _ _ _
theorem execUnknownMailboxCode_keptOrBurned (tag code : BitVec 8) (s : State) :
    KeptOrBurned s (stateOr s (execUnknownMailboxCode tag code s)) := by
  unfold execUnknownMailboxCode
  rw [stateOr_next]
  split
  · exact .inl rfl
  · exact command_keptOrBurned s _ _ _ fun x => State.mbxResult_kept x _ _ _
theorem execMbxComplete_keptOrBurned (s : State) : KeptOrBurned s (stateOr s (execMbxComplete s)) := by
  unfold execMbxComplete
  extract_lets s0
  have h0 : KeptOrBurned s s0 := by
    simp only [s0]
    split
    · exact .inr rfl
    · exact .inl rfl
  refine h0.of_kept ?_
  rw [stateOr_next]
  clear_value s0
  (repeat' split) <;> simp
theorem execPlanLoad_keptOrBurned (tag : BitVec 8) (src : PlanSource) (r : DmaResult) (s : State) :
    KeptOrBurned s (stateOr s (execPlanLoad tag src r s)) := by
  unfold execPlanLoad
  rw [stateOr_next]
  refine s.settled_keptOrBurned.of_kept ?_
  cases src
  case host =>
    exact (State.command_kept s.settled _ _ _ fun y => State.hostPlanLoad_kept y r).trans (congrArg State.kept s.settled_settled)
  all_goals simp
theorem execPlanWithdraw_keptOrBurned (tag : BitVec 8) (s : State) : KeptOrBurned s (stateOr s (execPlanWithdraw tag s)) :=
  command_next_keptOrBurned fun x => by simp
theorem execPlanRead_keptOrBurned (tag : BitVec 8) (s : State) : KeptOrBurned s (stateOr s (execPlanRead tag s)) :=
  command_next_keptOrBurned fun x => by simp
theorem execTakeoverCommand_keptOrBurned (tag : BitVec 8) (s : State) : KeptOrBurned s (stateOr s (execTakeoverCommand tag s)) :=
  command_next_keptOrBurned fun x => by simp
theorem execFence_keptOrBurned (tag : BitVec 8) (s : State) : KeptOrBurned s (stateOr s (execFence tag s)) :=
  command_next_keptOrBurned fun x => by simp
theorem execRetire_keptOrBurned (tag : BitVec 8) (s : State) : KeptOrBurned s (stateOr s (execRetire tag s)) :=
  command_next_keptOrBurned fun x => by simp
theorem execRestart_keptOrBurned (tag : BitVec 8) (s : State) : KeptOrBurned s (stateOr s (execRestart tag s)) :=
  command_next_keptOrBurned fun x => by simp [iter_kept]
theorem execRowRepair_keptOrBurned (tag : BitVec 8) (s : State) : KeptOrBurned s (stateOr s (execRowRepair tag s)) :=
  command_next_keptOrBurned fun x => by
    dsimp only
    (repeat' split) <;> simp
theorem execPower_keptOrBurned (tag : BitVec 8) (s : State) : KeptOrBurned s (stateOr s (execPower tag s)) := by
  unfold execPower
  rw [stateOr_next]
  split
  · exact .inl rfl
  · refine command_keptOrBurned s _ _ _ fun x => ?_
    dsimp only
    (repeat' split) <;> simp
theorem execCalSet_keptOrBurned (tag : BitVec 8) (s : State) : KeptOrBurned s (stateOr s (execCalSet tag s)) :=
  command_next_keptOrBurned fun x => by
    dsimp only
    (repeat' split) <;> simp
theorem execWake_keptOrBurned (tag : BitVec 8) (s : State) : KeptOrBurned s (stateOr s (execWake tag s)) := by
  unfold execWake
  rw [stateOr_next]
  split
  · exact .inl rfl
  · exact command_keptOrBurned s _ _ _ fun x => by simp


/-! #### Commands that burn fuses of their own or reset the package -/

theorem State.command_pending (s : State) (tag code : BitVec 8) (legal : List Nat) {f : State → State}
    (h : ∀ x, (f x).pending = x.pending) : (s.command tag code legal f).pending = s.pending := by
  rw [← State.settled_pending s]
  unfold State.command
  extract_lets s1 s2
  split
  · rfl
  split
  · exact congrArg Prod.fst (State.hostErr_kept s1 2)
  split
  · exact h s2
  · exact congrArg Prod.fst (State.mbxResult_kept s2 _ _ _)

theorem execPatchLoad_pending (tag : BitVec 8) (r : DmaResult) (vpgm : Bool) (s : State) :
    (stateOr s (execPatchLoad tag r vpgm s)).pending = s.pending := by
  have done (x : State) : x.patchDone.pending = x.pending := congrArg Prod.fst (State.patchDone_kept x)
  unfold execPatchLoad
  rw [stateOr_next]
  split
  · refine State.command_pending s _ _ _ fun x => ?_
    split
    · exact done x
    split
    · exact congrArg Prod.fst (State.mbxResult_kept x _ _ _)
    · exact State.takePatch_pending x _ _ _
  split
  · rfl
  split
  · exact done s
  split
  · exact done s
  · exact State.takePatch_pending s _ _ _
theorem execVpgmOutOfRange_pending (s : State) : (stateOr s (execVpgmOutOfRange s)).pending = s.pending := by
  unfold execVpgmOutOfRange
  rw [stateOr_next]
  split
  · rfl
  · exact congrArg Prod.fst (State.patchRejected_kept _ _)
theorem execPwrOkRise_pending (lands : StrapLands) (railsOk fusesOk : Bool) (s : State) :
    (stateOr s (execPwrOkRise lands railsOk fusesOk s)).pending = s.pending := by
  unfold execPwrOkRise
  rw [stateOr_next]
  split
  · rfl
  · exact congrArg Prod.fst (State.booted_kept s _ _ _)
theorem execPwrOkFall_pending (s : State) : (stateOr s (execPwrOkFall s)).pending = s.pending := by
  unfold execPwrOkFall
  rw [stateOr_next]
  split <;> rfl
theorem execSysRstN_pending (s : State) : (stateOr s (execSysRstN s)).pending = s.pending := by
  unfold execSysRstN
  rw [stateOr_next]
  split
  · rfl
  · exact congrArg Prod.fst (State.booted_kept s _ _ _)

/-! #### Every command -/

/-- The commands that begin or break off a burn, and those that put the package back to its state at reset (R478, R480, R472). -/
def burnsOrResets : Instr → Bool
  | .patchLoad .. | .vpgmOutOfRange | .pwrOkRise .. | .pwrOkFall | .sysRstN => true
  | _ => false

/-- What any other command does to the queue, the fuses and the burn: nothing, or it completes the burn under way. -/
theorem exec_keptOrBurned (i : Instr) (s : State) (h : burnsOrResets i = false) : KeptOrBurned s (stateOr s (exec i s)) := by
  cases i with
  | patchLoad | vpgmOutOfRange | pwrOkRise | pwrOkFall | sysRstN => cases h
  | add | sub | and | or | mov | ldi | ldiL | addi | andi | ori | xori | add3 | sub3 | and3 | or3 | xor3 | andn | min | max |
    neg | not | popc | clz | shl | shrl | shra | rotl | ext | ins | cset | cseti | nop | dcmp | dmov | dneg | dabs | dclr |
    drnd | cvbd | cvbdL | cmov | cclr | candr | cget =>
    unfold exec
    exact .inl (State.regOp_kept _ _ _ _ _)
  | mul | mulh | mulhu =>
    unfold exec
    exact .inl (State.startMul_kept _ _ _ _ _)
  | div | divu | rem | remu =>
    unfold exec
    exact .inl (State.startDiv_kept _ _ _ _ _ _)
  | loopr | loop =>
    unfold exec
    exact .inl (State.startLoop_kept _ _ _ _ _ _ _)
  | jr | br | brL =>
    unfold exec
    exact .inl (State.jump_kept _ _ _ _ _)
  | callr | call | callS =>
    unfold exec
    exact .inl (State.call_kept _ _ _ _ _ _)
  | fsync | frec | fclrt =>
    unfold exec
    exact .inl (State.afterUnit_kept _ _ _ _ _)
  | dadd | dsub | dshl =>
    unfold exec
    exact .inl (State.decOpr_kept _ _ _ _ _ _)
  | fadd | fsub | fmul | fdiv =>
    unfold exec
    exact .inl (State.fpTwo_kept _ _ _ _ _ _ _ _ _ _)
  | fcvtsl | fcvtls | fcvtfi | fcvtif =>
    unfold exec
    exact .inl (State.fpOne_kept _ _ _ _ _ _ _ _ _ _ _ _)
  | mailboxNop => exact execMailboxNop_keptOrBurned _ _
  | unknownMailboxCode => exact execUnknownMailboxCode_keptOrBurned _ _ _
  | mbxComplete => exact execMbxComplete_keptOrBurned _
  | planLoad => exact execPlanLoad_keptOrBurned _ _ _ _
  | planWithdraw => exact execPlanWithdraw_keptOrBurned _ _
  | planRead => exact execPlanRead_keptOrBurned _ _
  | takeoverCommand => exact execTakeoverCommand_keptOrBurned _ _
  | fence => exact execFence_keptOrBurned _ _
  | retire => exact execRetire_keptOrBurned _ _
  | restart => exact execRestart_keptOrBurned _ _
  | rowRepair => exact execRowRepair_keptOrBurned _ _
  | power => exact execPower_keptOrBurned _ _
  | calSet => exact execCalSet_keptOrBurned _ _
  | wake => exact execWake_keptOrBurned _ _
  | claimGrant | abortRestore | repairTimeout =>
    unfold exec
    exact .inl (by simp [execClaimGrant, execAbortRestore, execRepairTimeout])
  | tickCheck | originReached | horizonStall | horizonStallFence =>
    unfold exec
    exact .inl (by simp [execTickCheck, execOriginReached, execHorizonStall, execHorizonStallFence])
  | sourceMeasurement | sourceLoss | ppsEdge | ppsOutPulse | lockWaitExpiry | holdLimitExpiry | sdSetLoWrite | grantMaxRead =>
    unfold exec
    exact .inl (by simp [execSourceMeasurement, execSourceLoss, execPpsEdge, execPpsOutPulse, execLockWaitExpiry,
      execHoldLimitExpiry, execSdSetLoWrite, execGrantMaxRead])
  | lptSessionIdle | lptAckDelay =>
    unfold exec
    exact .inl (by simp [execLptSessionIdle, execLptAckDelay])
  | frameReceive | linkStateChange | ptpDelayRequest =>
    unfold exec
    exact .inl (by simp [execFrameReceive, execLinkStateChange, execPtpDelayRequest])
  | queueRptrWrite | queueWptrWrite | queueCondition | boardwalkLinkRetry | boardwalkLinkLost =>
    unfold exec
    exact .inl (by simp [execQueueRptrWrite, execQueueWptrWrite, execQueueCondition, execBoardwalkLinkRetry,
      execBoardwalkLinkLost])
  | digestSend =>
    unfold exec
    exact .inl (by simp [execDigestSend])
  | swapDone =>
    unfold exec
    exact .inl (by simp [execSwapDone])
  | logResend | fetch | followerDropped | takeover | secondaryPortSwitch | peerHeardExpiry | mirrorLinkFallback =>
    unfold exec
    exact .inl (by simp [execLogResend, execFetch, execFollowerDropped, execTakeover, execSecondaryPortSwitch,
      execPeerHeardExpiry, execMirrorLinkFallback])
  | msiXUnmask | perst | pfFlr | vfFlr | hostLinkStateChange | windowWrite | windowRuleWrite | hubMsgWrite | bar0BadAccess |
    doorbellWrite | qCtlWrite =>
    unfold exec
    exact .inl (by simp [execMsiXUnmask, execPerst, execPfFlr, execVfFlr, execHostLinkStateChange, execWindowWrite,
      execWindowRuleWrite, execHubMsgWrite, execBar0BadAccess, execDoorbellWrite, execQCtlWrite])
  | mbxCmdWhileBusy | spareRowCopyDone =>
    unfold exec
    exact .inl (by simp [execMbxCmdWhileBusy, execSpareRowCopyDone])
  | romSelfCheck | thermalAlert | dieThermalFault | hubThermalFault =>
    unfold exec
    exact .inl (by simp [execRomSelfCheck, execThermalAlert, execDieThermalFault, execHubThermalFault])
  -- Every other command has an `execX_kept` of its own.
  | _ =>
    unfold exec
    exact .inl (by simp)

theorem exec_pending (i : Instr) (s : State) : (stateOr s (exec i s)).pending = s.pending := by
  cases h : burnsOrResets i with
  | false => exact (exec_keptOrBurned i s h).pending
  | true =>
    cases i with
    | patchLoad => exact execPatchLoad_pending _ _ _ s
    | vpgmOutOfRange => exact execVpgmOutOfRange_pending s
    | pwrOkRise => exact execPwrOkRise_pending _ _ _ s
    | pwrOkFall => exact execPwrOkFall_pending s
    | sysRstN => exact execSysRstN_pending s
    | _ => cases h

/-- Settles O1: `step` takes the first command off the queue. -/
theorem stepRunsFrontCommand : Obligations.StepRunsFrontCommand := fun _ _ _ => rfl

/-- Settles O4: `exec_pending` holds of the state that any command answers. -/
theorem commandsLeaveQueueAlone : Obligations.CommandsLeaveQueueAlone := by
  intro i s t h
  have hp := exec_pending i s
  rwa [h] at hp

end Sys2Proof.Machine
end

section
/-! ### Special registers -/

namespace Sys2Proof.Machine

/-- Keeping the low k positions of a word is masking it. -/
theorem ofNat_mod_two_pow (v : Word) {k : Nat} (h : k ≤ 36) :
    BitVec.ofNat 36 (v.toNat % 2 ^ k) = v &&& BitVec.ofNat 36 (2 ^ k - 1) := by
  have hk : 2 ^ k - 1 < 2 ^ 36 := (Nat.sub_lt (Nat.two_pow_pos k) Nat.one_pos).trans_le (Nat.pow_le_pow_right (by decide) h)
  apply BitVec.eq_of_toNat_eq
  rw [BitVec.toNat_and, BitVec.toNat_ofNat, BitVec.toNat_ofNat, Nat.mod_eq_of_lt hk, Nat.and_two_pow_sub_one_eq_mod,
    Nat.mod_eq_of_lt ((Nat.mod_le _ _).trans_lt v.isLt)]

theorem low18_eq_and (v : Word) : low18 v = v &&& 0x3FFFF := ofNat_mod_two_pow v (by decide)

theorem causeWrite_eq_and (v : Word) : causeWrite v = v &&& ~~~0x1FFFFC0#36 := BitVec.or_zero

theorem savemodeWrite_eq_and (v : Word) : savemodeWrite v = v &&& ~~~0x3FF000000#36 := BitVec.or_zero

/-- MTS ends in 3 cc with the registers that `CoreRegs.mts` gives. -/
theorem exec_mts_of_carries {s : State} {c : CoreId} {n : BitVec 6} {a : Reg} {x : Cur} {s1 : State}
    (h : s.carries c (.mts c n a) = some (x, s1)) : exec (.mts c n a) s =
      .next (s1.finish (s1.updR c fun _ => (s.regs c).mts n.toNat ((s.regs c).wr a) (s1.queueHolds c)) c (.mts c n a) none 3) := by
  have he : exec (.mts c n a) s = execMts c n a s := rfl
  rw [he, execMts, instr_carries h, updR_const s1 c _ (carries_regs h)]
  rfl

/-- A write that no queue's condition bears on yields what `CoreRegs.mts` gives. -/
theorem yields_mts {s : State} {c : CoreId} {n : BitVec 6} {a : Reg} {f : CoreRegs → CoreRegs}
    (h : ∀ keep, (s.regs c).mts n.toNat ((s.regs c).wr a) keep = f (s.regs c)) : Yields s c (.mts c n a) 3 f := by
  intro x s1 hc
  rw [exec_mts_of_carries hc, h]

/-- CORE_ID, the counters and the numbers after them are read-only (R150). -/
theorem mts_of_readOnly (r : CoreRegs) {n : Nat} (h : n = 14 ∨ 21 ≤ n) (v : Word) (keep : Bool) : r.mts n v keep = r := by
  rcases h with rfl | h
  · rfl
  · obtain ⟨k, rfl⟩ := Nat.exists_eq_add_of_le' h
    rfl

/-- IPEND loses the positions written as 1, where no queue's condition holds one (R356). -/
theorem exec_mts_ipend {s : State} {c : CoreId} {a : Reg} {x : Cur} {s1 : State} (h : s.carries c (.mts c 20 a) = some (x, s1))
    (hq : s1.queueHolds c = false) : exec (.mts c 20 a) s =
      .next (s1.finish (s1.updR c fun r => { r with sp := { r.sp with ipend := r.sp.ipend &&& ~~~(s.regs c).wr a } }) c
        (.mts c 20 a) none 3) := by
  rw [exec_mts_of_carries h, hq]
  conv_rhs => rw [updR_const s1 c _ (carries_regs h)]
  rfl

/-- IEN has its five positions 31 to 35 only. -/
theorem mts_ien (r : CoreRegs) (v : Word) (keep : Bool) : r.mts 19 v keep = { r with sp := { r.sp with ien := v &&& 31 } } := by
  have hv : BitVec.ofNat 36 (v.toNat % 32) = v &&& 31 := ofNat_mod_two_pow v (k := 5) (by decide)
  rw [← hv]
  rfl

/-- Settles O22: `CoreRegs.mts` gives each register's write, and the masks are those of its reserved fields. -/
theorem specialRegisterAccess : Obligations.SpecialRegisterAccess := by
  intro s c d a n _
  refine ⟨ends_of rfl fun _ _ _ => rfl, ?_⟩
  intro v _
  refine ⟨?_, ?_, ?_, ?_, ?_, ?_, ?_, ?_, ?_, ?_, ?_, ?_, ?_, ?_, ?_, ?_, ?_, ?_, ?ipend, ?ien, ?readOnly⟩
  case ipend =>
    rintro rfl x s1 hc hq
    exact exec_mts_ipend hc hq
  case readOnly =>
    exact fun hn => yields_mts (mts_of_readOnly _ (hn.imp_left (congrArg BitVec.toNat)) _)
  case ien =>
    rintro rfl
    exact yields_mts (mts_ien _ _)
  all_goals
    rintro rfl
    refine yields_mts fun _ => ?_
    simp [CoreRegs.mts, CoreRegs.startShadow, causeWrite_eq_and, low18_eq_and, savemodeWrite_eq_and, v]

end Sys2Proof.Machine
end

section
/-! PROOF of O49: the claim engine of a die (R116 to R121) and the messages between dies that it takes and sends (R30, R32). -/

namespace Sys2Proof.Machine

/-! ### Messages -/

/-- A message that is taken is one that sel names, and none before it is of its lane or of a lane held up. -/
theorem takeMsg_eq_some {sel : Msg → Bool} {held : List (Nat × Nat × Nat)} {l l' : List Msg} {m : Msg}
    (h : takeMsg sel held l = some (m, l')) :
    sel m = true ∧ m.lane ∉ held ∧ ∃ a b, l = a ++ m :: b ∧ l' = a ++ b ∧ ∀ x ∈ a, x.lane ≠ m.lane := by
  induction l generalizing held l' with
  | nil => cases h
  | cons x l ih =>
    unfold takeMsg at h
    split at h
    next hx =>
      cases h
      simp only [Bool.and_eq_true, decide_eq_true_eq] at hx
      exact ⟨hx.1, hx.2, [], _, rfl, rfl, by simp⟩
    next =>
      obtain ⟨⟨m', l₁⟩, h₁, heq⟩ := Option.map_eq_some_iff.1 h
      cases heq
      obtain ⟨hs, hheld, a, b, rfl, rfl, ha⟩ := ih h₁
      rw [List.mem_cons, not_or] at hheld
      exact ⟨hs, hheld.2, x :: a, b, rfl, rfl, List.forall_mem_cons.2 ⟨Ne.symm hheld.1, ha⟩⟩

theorem State.receive_of_takeMsg {s : State} {sel : Msg → Bool} {m : Msg} {rest : List Msg}
    (h : takeMsg sel [] s.msgs = some (m, rest)) (f : State → Msg → State) : s.receive sel f = f { s with msgs := rest } m := by
  unfold State.receive
  rw [h]

/-- The claims that travel to die d. -/
def Msg.isClaimTo (d : DieId) : Msg → Bool
  | .claim e _ => decide (e = d)
  | _ => false

/-- The grants that travel to die d. -/
def Msg.isGrantTo (d : DieId) : Msg → Bool
  | .grant e _ _ _ _ => decide (e = d)
  | _ => false

/-- The claim releases that travel to die d. -/
def Msg.isReleaseTo (d : DieId) : Msg → Bool
  | .claimRelease e _ _ _ => decide (e = d)
  | _ => false

/-- The frontiers that travel to die d. -/
def Msg.isFrontierTo (d : DieId) : Msg → Bool
  | .frontier _ e _ _ => decide (e = d)
  | _ => false

@[simp] theorem State.post_msgs (s : State) (m : Msg) : (s.post m).msgs = s.msgs ++ [m] := rfl

@[simp] theorem State.post_die (s : State) (m : Msg) (d : Nat) : (s.post m).die d = s.die d := rfl

@[simp] theorem State.withMsgs_die (s : State) (l : List Msg) (d : Nat) : ({ s with msgs := l } : State).die d = s.die d := rfl

@[simp] theorem State.withMsgs_alive (s : State) (l : List Msg) (d : Nat) :
    ({ s with msgs := l } : State).alive d = s.alive d := rfl

/-! ### A claim arrives (R116, R120) -/

/-- Entries that claims cs take up of the slice of a line (R120). -/
def sliceUsed (cs : List Claim) (line : Nat) : Nat :=
  (cs.filter fun q => !q.overflow && decide (rowOf q.line = rowOf line)).length

theorem exec_claimArrive {s : State} {d : DieId} {c : Claim} {rest : List Msg}
    (h : takeMsg (Msg.isClaimTo d) [] s.msgs = some (.claim d c, rest)) (ha : s.alive d = true) :
    ∃ t, exec (.claimArrive d) s = .next t ∧ t.msgs = rest ∧ (t.die d).o.claims = (s.die d).o.claims ++
      [{ c with granted := false, overflow := decide (sliceEntries ≤ sliceUsed (s.die d).o.claims c.line) }] := by
  have hna : ¬ (!State.alive { s with msgs := rest } d) = true := by simpa using ha
  refine ⟨_, congrArg Host.Outcome.next ((State.receive_of_takeMsg h _).trans (if_neg hna)), rfl, ?_⟩
  rw [State.updDie_die, if_pos rfl]
  rfl

/-! ### Granting (R118) -/

/-- What `State.grantable` says. -/
theorem State.grantable_iff (s : State) (d : Nat) (c : Claim) : s.grantable d c = true ↔
    c.granted = false ∧ tickLe c.pos.tick (s.dieHorizon d) = true ∧ s.frontiersPassed d c.part c.pos = true ∧
      ∀ q ∈ (s.die d).o.claims, q.meets c = true → q.pos.before c.pos = false := by
  simp [State.grantable, and_assoc]

/-- A claim held in an entry of its slice, or in a sound unit of the overflow area, is read as it stands. -/
theorem State.claimRead_of_clean {s : State} {d : DieId} {c : Claim} (h : c.overflow = true → readUnit160 c.hurt = .clean) :
    s.claimRead d c = (s, false) := by
  unfold State.claimRead
  cases hc : c.overflow with
  | false => rfl
  | true => simp [h hc]

/-- A line without a claim that R118 allows is left as it is. -/
theorem State.tryGrant_of_none {s : State} {d : DieId} {line : Nat}
    (h : ∀ c ∈ (s.die d).o.claims, c.line = line → s.grantable d c = false) : s.tryGrant d line = s := by
  have hn : (s.die d).o.claims.find? (fun c => decide (c.line = line) && s.grantable d c) = none := by
    rw [List.find?_eq_none]
    intro c hc
    by_cases hl : c.line = line <;> simp [hl, h c hc]
  unfold State.tryGrant
  rw [hn]

/-- The claim that R118 allows is granted, and its slot is told so. -/
theorem exec_claimGrant {s : State} {d : DieId} {line : Nat} {c : Claim}
    (h : (s.die d).o.claims.find? (fun c => decide (c.line = line) && s.grantable d c) = some c)
    (hc : c.overflow = true → readUnit160 c.hurt = .clean) :
    ∃ t, exec (.claimGrant d line) s = .next t ∧ t.msgs = s.msgs ++ [.grant c.fromDie c.slot line d c.pos] ∧
      { c with granted := true } ∈ (t.die d).o.claims := by
  refine ⟨s.tryGrant d line, rfl, ?_⟩
  unfold State.tryGrant
  simp only [h, State.claimRead_of_clean hc, Bool.false_eq_true, if_false]
  refine ⟨rfl, ?_⟩
  rw [State.post_die, State.updDie_die, if_pos rfl]
  exact List.mem_map.2 ⟨c, List.mem_of_find?_eq_some h, by simp⟩

/-! ### A grant arrives -/

/-- A slot's claims once the one on a line of die e is granted. -/
def grantClaim (e line : Nat) (cs : List ClaimReg) : List ClaimReg :=
  cs.map fun q => if q.die = e ∧ q.line = line then { q with granted := true } else q

theorem grantClaim_granted {e line : Nat} {cs : List ClaimReg} {q : ClaimReg} (h : q ∈ grantClaim e line cs) (hd : q.die = e)
    (hl : q.line = line) : q.granted = true := by
  obtain ⟨r, _, rfl⟩ := List.mem_map.1 h
  by_cases hr : r.die = e ∧ r.line = line
  · rw [if_pos hr]
  · rw [if_neg hr] at hd hl
    exact absurd ⟨hd, hl⟩ hr

theorem grantClaim_lines (e line : Nat) (cs : List ClaimReg) :
    (grantClaim e line cs).map (fun q => (q.die, q.line)) = cs.map fun q => (q.die, q.line) := by
  unfold grantClaim
  rw [List.map_map]
  refine List.map_congr_left fun q _ => ?_
  dsimp only [Function.comp]
  split <;> rfl

@[simp] theorem State.updPartn_slot (s : State) (p : Nat) (f : Partition → Partition) (d n : Nat) :
    (s.updPartn p f).slot d n = s.slot d n := rfl

@[simp] theorem State.withMsgs_slot (s : State) (l : List Msg) (d n : Nat) :
    ({ s with msgs := l } : State).slot d n = s.slot d n := rfl

theorem exec_grantReceive {s : State} {d e : DieId} {n line ns : Nat} {pos : Position} {rest : List Msg}
    (h : takeMsg (Msg.isGrantTo d) [] s.msgs = some (.grant d n line e pos, rest)) (hp : (s.slot d n).pos = pos)
    (hq : ∃ q ∈ (s.slot d n).claims, q.die = e.val ∧ q.line = line) :
    ∃ t, exec (.grantReceive d ns) s = .next t ∧ t.msgs = rest ∧
      (t.slot d n).claims = grantClaim e line (s.slot d n).claims ∧
      ((s.slot d n).st = .declared → (∀ q ∈ grantClaim e line (s.slot d n).claims, q.granted = true) →
        (t.slot d n).st = .granted) ∧
      ∀ m, m ≠ n → t.slot d m = s.slot d m := by
  have hg : ¬ (¬ (s.slot d n).pos = pos ∨
      ¬ (s.slot d n).claims.any (fun q => decide (q.die = e.val) && decide (q.line = line)) = true) := by
    simpa [hp] using hq
  refine ⟨_, congrArg Host.Outcome.next ((State.receive_of_takeMsg h _).trans (if_neg hg)), rfl, ?_, fun hst hall => ?_,
    fun m hm => ?_⟩
  · simp [grantClaim]
  · have hall' := List.all_eq_true.2 hall
    unfold grantClaim at hall'
    simp [hst, hall']
  · simp [hm]

/-! ### A claim is released (R119) -/

/-- What names a claim of an engine: its line, and the slot, the die and the position of its transaction. -/
def Claim.key (q : Claim) : Nat × Nat × DieId × Position := (q.line, q.slot, q.fromDie, q.pos)

/-- The keys of the claims that die d holds. -/
def State.claimKeys (s : State) (d : Nat) : List (Nat × Nat × DieId × Position) := (s.die d).o.claims.map Claim.key

/-- Corrections in a reserved area are counted and logged; they leave the claims alone. -/
theorem State.correctedArea_claims (s : State) (d row : Nat) (at_ : List (Nat × Nat)) (e : Nat) :
    ((s.correctedArea d row at_).die e).o.claims = (s.die e).o.claims := by
  unfold State.correctedArea
  induction at_ generalizing s with
  | nil => rfl
  | cons x at_ ih =>
    rw [List.foldl_cons, ih, State.updDie_die]
    unfold State.die
    rw [State.logErr_u]
    split
    next h => rw [h]
    next => rfl

/-- A change of claims, one by one, that keeps the key of each keeps the keys of the engine. -/
theorem State.claimKeys_updClaims (s : State) (d : Nat) {f : Claim → Claim} (hf : ∀ q, (f q).key = q.key) :
    (s.updDie d fun e => { e with o := { e.o with claims := e.o.claims.map f } }).claimKeys d = s.claimKeys d := by
  simp [State.claimKeys, Function.comp_def, hf]

theorem State.claimRead_claimKeys (s : State) (d : DieId) (c : Claim) : (s.claimRead d c).1.claimKeys d = s.claimKeys d := by
  unfold State.claimRead
  split
  · rfl
  split
  · rfl
  · refine (State.claimKeys_updClaims _ _ fun q => ?_).trans (congrArg _ (State.correctedArea_claims _ _ _ _ _))
    split <;> rfl
  · simp [State.claimKeys, State.areaLost, State.die]

/-- Granting keeps every claim of the engine. -/
theorem State.tryGrant_claimKeys (s : State) (d : DieId) (line : Nat) : (s.tryGrant d line).claimKeys d = s.claimKeys d := by
  unfold State.tryGrant
  split
  · rfl
  next c _ =>
    refine Eq.trans ?_ (s.claimRead_claimKeys d c)
    dsimp only
    split
    · rfl
    · refine State.claimKeys_updClaims _ _ fun q => ?_
      split <;> rfl

/-- Applying R118 to any number of lines keeps every claim. -/
theorem State.foldl_tryGrant_claimKeys (d : DieId) (line : Nat) (ls : List Nat) (s : State) :
    (ls.foldl (fun y l => if l = line then y.tryGrant d l else y) s).claimKeys d = s.claimKeys d := by
  induction ls generalizing s with
  | nil => rfl
  | cons l ls ih =>
    rw [List.foldl_cons, ih]
    split
    · exact s.tryGrant_claimKeys d l
    · rfl

theorem exec_claimRelease {s : State} {d src : DieId} {line n : Nat} {rest : List Msg}
    (h : takeMsg (Msg.isReleaseTo d) [] s.msgs = some (.claimRelease d line n src, rest)) :
    ∃ t, exec (.claimRelease d) s = .next t ∧ t.claimKeys d = ((s.die d).o.claims.filter
      (fun q => !(decide (q.line = line) && decide (q.slot = n) && decide (q.fromDie = src)))).map Claim.key := by
  refine ⟨_, congrArg Host.Outcome.next (State.receive_of_takeMsg h _), (State.foldl_tryGrant_claimKeys _ _ _ _).trans ?_⟩
  simp [State.claimKeys]

/-! ### Frontiers (R117) -/

/-- Frontiers sent to the dies of a list change no die's state. -/
theorem foldl_frontier_die (d : DieId) (p : PartId) (f : Position) (l : List Nat) (s : State) (k : Nat) :
    (l.foldl (fun x e => if h : e < 8 then x.post (.frontier d ⟨e, h⟩ p f) else x) s).die k = s.die k := by
  induction l generalizing s with
  | nil => rfl
  | cons e l ih =>
    rw [List.foldl_cons, ih]
    split <;> rfl

/-- They are under way to every die of the list, and what was under way still is. -/
theorem mem_foldl_frontier (d : DieId) (p : PartId) (f : Position) (l : List Nat) (s : State) (m : Msg)
    (hm : m ∈ s.msgs ∨ ∃ e : DieId, e.val ∈ l ∧ m = .frontier d e p f) :
    m ∈ (l.foldl (fun x e => if h : e < 8 then x.post (.frontier d ⟨e, h⟩ p f) else x) s).msgs := by
  induction l generalizing s with
  | nil => simpa using hm
  | cons k l ih =>
    refine ih _ ?_
    dsimp only
    obtain hm | ⟨e, he, rfl⟩ := hm
    · left
      split
      · exact List.mem_append_left _ hm
      · exact hm
    · obtain rfl | he := List.mem_cons.1 he
      · left
        rw [dif_pos e.isLt]
        exact List.mem_append_right _ List.mem_cons_self
      · exact .inr ⟨e, he, rfl⟩

theorem exec_frontierSend {s : State} {d : DieId} {p : PartId} (ha : s.alive d = true)
    (hf : Sparse.get none (s.die d).o.frontSent p ≠ some (s.frontierOf d p)) (ht : s.tandemOf p = none) :
    ∃ t, exec (.frontierSend d p) s = .next t ∧ Sparse.get none (t.die d).o.frontSent p = some (s.frontierOf d p) ∧
      ∀ e : DieId, e ≠ d → e.val ∈ s.ledgerDies p → Msg.frontier d e p (s.frontierOf d p) ∈ t.msgs := by
  refine ⟨_, rfl, ?_⟩
  simp only [ha, hf, ht, Bool.not_true, decide_false, Bool.or_self, Bool.false_eq_true, if_false, Option.isSome_none]
  refine ⟨?_, fun e hne he => mem_foldl_frontier _ _ _ _ _ _ (.inr ⟨e, List.mem_filter.2 ⟨he, ?_⟩, rfl⟩)⟩
  · rw [foldl_frontier_die, State.updDie_die, if_pos rfl]
    simp
  · exact decide_eq_true fun h => hne (Fin.ext h)

theorem exec_frontierReceive {s : State} {d src : DieId} {p : PartId} {f : Position} {rest : List Msg}
    (h : takeMsg (Msg.isFrontierTo d) [] s.msgs = some (.frontier src d p f, rest)) :
    ∃ t, exec (.frontierReceive d) s = .next t ∧ t.msgs = rest ∧
      Sparse.get none (t.die d).o.frontier (16 * src + p) = some f ∧ (t.die d).o.claims = (s.die d).o.claims := by
  refine ⟨_, congrArg Host.Outcome.next (State.receive_of_takeMsg h _), rfl, ?_⟩
  simp

/-! ### The obligation -/

/-- Settles O49: each clause is what one command of the engine does, and `takeMsg_eq_some` what a message taken is. -/
theorem claimEngine : Obligations.ClaimEngine := by
  intro s d got
  refine ⟨?message, ?arrive, ?grant, ?noGrant, ?grantReceive, fun line n src rest => exec_claimRelease,
    fun p => exec_frontierSend, fun src p f rest => exec_frontierReceive⟩
  case message =>
    intro sel l m l' h
    obtain ⟨hs, _, hl⟩ := takeMsg_eq_some h
    exact ⟨hs, hl⟩
  case arrive =>
    intro c rest h ha
    obtain ⟨t, he, hm, hcs⟩ := exec_claimArrive h ha
    exact ⟨t, _, he, hm, hcs, decide_eq_true_iff⟩
  case grant =>
    intro line c h hc
    obtain ⟨t, he, hm, hin⟩ := exec_claimGrant h hc
    have hg := List.find?_some h
    rw [Bool.and_eq_true, State.grantable_iff] at hg
    exact ⟨t, he, hm, hin, hg.2⟩
  case noGrant =>
    exact fun line h => congrArg Host.Outcome.next (State.tryGrant_of_none h)
  case grantReceive =>
    intro n line e pos rest ns h hp hq
    obtain ⟨t, he, hm, hcs, hst, hslots⟩ := exec_grantReceive (ns := ns) h hp hq
    refine ⟨t, he, hm, ?_, ?_, ?_, hslots⟩
    · exact fun q hin => grantClaim_granted (hcs ▸ hin)
    · rw [hcs, grantClaim_lines]
    · exact fun hd hall => hst hd (hcs ▸ hall)

end Sys2Proof.Machine
end

section
/-! PROOF of O12 and O32 and refutation of O31 and O45: the word registers from each other, from memory and to memory (R189, R207 to
R210), and capabilities resized (R289). -/

namespace Sys2Proof.Machine

/-! ### From an instruction's own part that reads or stores to what a statement says of it -/

/-- An instruction whose own part goes on with the characters of operands that the registers name. -/
theorem reads_of {s : State} {c : CoreId} {i : Instr} {ops : CoreRegs → List Operand} {k : State → List Chr → Act}
    {f : State → List Chr → State}
    (he : exec i s = .next (s.instr c i fun cur x => x.reading c cur 0 (ops (x.regs c)) fun _ l => k x l))
    (hk : ∀ s1 l, s1.regs c = s.regs c → s1.settle c i (k s1 l) = f s1 l) : Reads s c i (ops (s.regs c)) f := by
  intro x s1 x1 l hc hr
  have hregs := carries_regs hc
  rw [he, instr_carries hc, State.reading, hregs, hr]
  exact congrArg Host.Outcome.next (hk s1 l hregs)

/-- An instruction whose own part stores characters that the registers give. -/
theorem stores_of {s : State} {c : CoreId} {i : Instr} {o : CoreRegs → Operand} {op : AccOp} {precise : CoreRegs → Bool}
    {data : CoreRegs → List Chr} {cc : CoreRegs → Nat}
    (he : exec i s = .next (s.instr c i fun cur x => x.storing c cur 0 [o (x.regs c)] op (precise (x.regs c)) (data (x.regs c))
      fun _ y => .done y none (cc (x.regs c)))) :
    Stores s c i (o (s.regs c)) op (precise (s.regs c)) (data (s.regs c)) (cc (s.regs c)) := by
  intro x s1 x1 t hc ht
  rw [he, instr_carries hc, State.storing, carries_regs hc, ht]
  rfl

/-! ### Register to register -/

/-- A difference of words is that of the integers they spell, modulo 2^36. -/
theorem sub_eq_ofInt_toInt_sub (a b : Word) : a - b = BitVec.ofInt 36 (a.toInt - b.toInt) :=
  BitVec.eq_of_toInt_eq (by rw [BitVec.toInt_sub, BitVec.toInt_ofInt])

/-- A sum of words is that of the numbers they spell, modulo 2^36. -/
theorem add_eq_ofNat_toNat_add (a b : Word) : a + b = BitVec.ofNat 36 (a.toNat + b.toNat) :=
  BitVec.eq_of_toNat_eq (by rw [BitVec.toNat_add, BitVec.toNat_ofNat])

/-- Settles O12: each result is the sum or difference modulo 2^36, the logical function, or the register itself. -/
theorem formatRResults : Obligations.FormatRResults := by
  intro s c d a
  refine ⟨yields_of rfl ?add, yields_of rfl ?sub, yields_of rfl rfl, yields_of rfl rfl, yields_of rfl rfl⟩
  case add => rw [add_eq_ofNat_toNat_add]
  case sub => rw [sub_eq_ofInt_toInt_sub]

/-! ### Stores -/

/-- The four characters of a word spell it (R6). -/
theorem Word.ofChars_chars (w : Word) : Word.ofChars w.chars = w := by
  simp only [Word.ofChars, Word.chars, BitVec'.pos]
  rw [BitVec.extractLsb'_append_extractLsb'_eq_extractLsb' (by rfl), BitVec.extractLsb'_append_extractLsb'_eq_extractLsb' (by rfl),
    BitVec.extractLsb'_append_extractLsb'_eq_extractLsb' (by rfl)]
  exact BitVec.extractLsb'_eq_self

/-- Settles O32: each store takes up its characters, and a split word or a pair is precise. -/
theorem storesComplete : Obligations.StoresComplete := by
  intro s c a t r o split
  refine ⟨?stc, ?stw, ?stp, Word.ofChars_chars⟩
  case stc =>
    exact stores_of (o := fun r => Tail.operand r t 1 1 .store) (precise := fun _ => false) (cc := fun _ => 3 + Tail.cc t)
      (data := fun r => [(r.wr a).truncate 9]) rfl
  case stw =>
    have h := stores_of (s := s) (c := c) (i := .stw c a t) (o := fun r => Tail.operand r t 4 1 .store) (op := .write)
      (precise := fun r => (Tail.operand r t 4 1 .store).split || false) (data := fun r => (r.wr a).chars)
      (cc := fun r => 3 + Tail.cc t + if (Tail.operand r t 4 1 .store).split then 2 else 0) rfl
    rwa [Bool.or_false] at h
  case stp =>
    exact stores_of (o := fun r => Tail.operand r t 8 4 .store) (precise := fun _ => true) (cc := fun _ => 4 + Tail.cc t)
      (data := fun r => (r.wr a).chars ++ (r.wr (Reg.next a)).chars) rfl

/-! ### Loads -/

/-- The progress of a MAC whose two index registers are one, W2, once it has read its two words. Its encoding is undefined (R210),
so no core begins it; nothing in `State.carries` keeps a core from having begun it. -/
def sharedIndexMac : Cur := { Cur.begin (.mac 0 0 0 2 0 2 1 0) with rounds := [List.replicate 8 0] }

/-- Core 0 waits with that progress, its registers as at reset. -/
def sharedIndexState : State := State.reset.setCore 0 { Core.reset with running := true, cur := some sharedIndexMac }

/-- Refutes O31: MAC computes both index registers from those before it, so when both are W2 with increments 4 and 0, W2 keeps its value 0;
the statement adds the second increment to what the first has left, 4. -/
theorem not_loadsComplete : ¬ Obligations.LoadsComplete := by
  unfold Obligations.LoadsComplete
  intro h
  obtain ⟨_, _, _, hmac, _⟩ := h sharedIndexState 0 0 0 2 2 (.off 0 0) 0 0 1 0
  have hnext := hmac sharedIndexMac sharedIndexState sharedIndexMac (List.replicate 8 0) (by decide +kernel) rfl
  have hw2 := congrArg (fun o => ((stateOr sharedIndexState o).regs 0).wr 2) hnext
  exact absurd hw2 (by decide +kernel)

/-! ### Capabilities -/

/-- W0 of core 0 is 2^36 − 1, its other registers as at reset. -/
def onesInW0 : State := State.reset.setCore 0 { Core.reset with r := Core.reset.r.setW 0 (BitVec.allOnes 36) }

/-- Refutes O45: with W0 for base and length and an empty source, the base is 2^36 − 1 and the limit lies far beyond 2^36. The statement
gives the resized capability that limit as its top, but a top lies within the address space: it is 2^36. -/
theorem not_capabilityRegisterOperations : ¬ Obligations.CapabilityRegisterOperations := by
  unfold Obligations.CapabilityRegisterOperations
  intro h
  obtain ⟨_, _, _, _, _, _, _, _, _, hresized, _⟩ := h onesInW0 0 ⟨false, 0⟩ ⟨false, 1⟩ 0 0 0 0
  obtain ⟨_, htop, _⟩ := hresized (by decide +kernel)
  exact absurd htop (by decide +kernel)

end Sys2Proof.Machine
end

section
/-! PROOF of O36: packed decimal fields in memory (R43 to R46, R235, R238 to R240). -/

namespace Sys2Proof.Machine

/-! ### Words of symbols (R43) -/

/-- The words of characters that words give are these words (R6). -/
theorem wordsOfChars_flatMap_chars (l : List Word) : wordsOfChars (l.flatMap Word.chars) = l := by
  induction l with
  | nil => rfl
  | cons w l ih => exact congrArg₂ List.cons (Word.ofChars_chars w) ih

/-- A word made of nine symbols holds these symbols. -/
theorem symbols_symbolsWord {l : List Nat} (hl : l.length = 9) (hs : ∀ x ∈ l, x < 16) : symbols (symbolsWord l) = l := by
  match l, hl with
  | [a, b, c, d, e, f, g, h, i], _ =>
    simp only [List.mem_cons, List.not_mem_nil, or_false, forall_eq_or_imp, forall_eq] at hs
    simp only [symbols, symbolsWord, List.foldl_cons, List.foldl_nil, BitVec.toNat_ofNat, List.range_succ, List.range_zero,
      List.map_cons, List.map_nil, List.nil_append, List.cons_append, List.cons.injEq, and_true]
    norm_num only
    omega

/-- The words of 9n symbols. -/
def packSymbols (n : Nat) (ss : List Nat) : List Word := (List.range n).map fun i => symbolsWord ((ss.drop (9 * i)).take 9)

theorem packSymbols_succ (n : Nat) (ss : List Nat) : packSymbols (n + 1) ss = symbolsWord (ss.take 9) :: packSymbols n (ss.drop 9) := by
  simp [packSymbols, List.range_succ_eq_map, Function.comp_def, mul_add, add_comm]

/-- 9n symbols in n words are there in their order. -/
theorem flatMap_symbols_packSymbols (n : Nat) {ss : List Nat} (hl : ss.length = 9 * n) (hs : ∀ x ∈ ss, x < 16) :
    (packSymbols n ss).flatMap symbols = ss := by
  induction n generalizing ss with
  | zero => rw [List.length_eq_zero_iff.1 hl]; rfl
  | succ n ih =>
    have htake : symbols (symbolsWord (ss.take 9)) = ss.take 9 :=
      symbols_symbolsWord (by rw [List.length_take]; omega) fun x hx => hs x (List.mem_of_mem_take hx)
    have hdrop := ih (ss := ss.drop 9) (by rw [List.length_drop]; omega) fun x hx => hs x (List.mem_of_mem_drop hx)
    rw [packSymbols_succ, List.flatMap_cons, htake, hdrop, List.take_append_drop]

/-- Symbol j of word i of a field is symbol 9i + j of the field. -/
theorem symbols_getD_packSymbols {n i j : Nat} {ss : List Nat} (hl : ss.length = 9 * n) (hs : ∀ x ∈ ss, x < 16) (hi : i < n)
    (hj : j < 9) : (symbols ((packSymbols n ss).getD i 0)).getD j 0 = ss.getD (9 * i + j) 0 := by
  have hword : (packSymbols n ss).getD i 0 = symbolsWord ((ss.drop (9 * i)).take 9) := by simp [packSymbols, List.getD, hi]
  rw [hword, symbols_symbolsWord]
  · simp [List.getD, hj]
  · rw [List.length_take, List.length_drop]; omega
  · exact fun x hx => hs x (List.mem_of_mem_drop (List.mem_of_mem_take hx))

/-! ### Digits and signs (R44, R46) -/

theorem digitsOf_length (n m : Nat) : (digitsOf n m).length = n := by
  induction n with
  | zero => rfl
  | succ n ih => rw [digitsOf, List.length_cons, ih]

theorem lt_ten_of_mem_digitsOf {n m x : Nat} (h : x ∈ digitsOf n m) : x < 10 := by
  induction n with
  | zero => cases h
  | succ n ih =>
    rcases List.mem_cons.1 h with rfl | h
    · exact Nat.mod_lt _ (by decide)
    · exact ih h

/-- Read one after another, the n digits of m spell its low n digits. -/
theorem foldl_digitsOf (n m a : Nat) : (digitsOf n m).foldl (fun a x => 10 * a + x) a = a * 10 ^ n + m % 10 ^ n := by
  induction n generalizing a with
  | zero => simp [digitsOf, Nat.mod_one]
  | succ n ih =>
    rw [digitsOf, List.foldl_cons, ih, pow_succ, Nat.mod_mul]
    ring

/-- The sign that a field is given (R46). -/
def signSymbol (v : Int) : Nat := if v < 0 then 13 else 12

/-- The symbols of a field of n words. -/
def fieldSymbols (n : Nat) (v : Int) : List Nat := digitsOf (9 * n - 1) v.natAbs ++ [signSymbol v]

theorem packWords_eq (n : Nat) (v : Int) : packWords n v = packSymbols n (fieldSymbols n v) := rfl

theorem fieldSymbols_length {n : Nat} (hn : n ≠ 0) (v : Int) : (fieldSymbols n v).length = 9 * n := by
  rw [fieldSymbols, List.length_append, digitsOf_length, List.length_singleton]
  omega

theorem lt_sixteen_of_mem_fieldSymbols {n : Nat} {v : Int} {x : Nat} (h : x ∈ fieldSymbols n v) : x < 16 := by
  rcases List.mem_append.1 h with h | h
  · exact (lt_ten_of_mem_digitsOf h).trans (by decide)
  · rw [List.mem_singleton.1 h, signSymbol]
    split <;> decide

/-- The last symbol of a field is a sign, the others are digits. -/
theorem symbolOk_fieldSymbols {n k : Nat} {v : Int} (hk : k < 9 * n) :
    symbolOk (decide (k + 1 = 9 * n)) ((fieldSymbols n v).getD k 0) = true := by
  have hlen := digitsOf_length (9 * n - 1) v.natAbs
  by_cases hlast : k + 1 = 9 * n
  · have hget : (fieldSymbols n v).getD k 0 = signSymbol v := by
      rw [fieldSymbols, List.getD_append_right _ _ _ _ (by omega), hlen, show k - (9 * n - 1) = 0 by omega]
      rfl
    rw [hget, decide_eq_true hlast, signSymbol]
    split <;> rfl
  · have hget : (fieldSymbols n v).getD k 0 ∈ digitsOf (9 * n - 1) v.natAbs := by
      rw [fieldSymbols, List.getD_append _ _ _ _ (by omega), List.getD_eq_getElem _ _ (by omega)]
      exact List.getElem_mem _
    rw [decide_eq_false hlast]
    exact decide_eq_true (lt_ten_of_mem_digitsOf hget)

/-- A field that has been packed holds no invalid symbol (R45). -/
theorem firstInvalid_packWords {n : Nat} (hn : n ≠ 0) (v : Int) : firstInvalid (packWords n v) = none := by
  have hlen : (packWords n v).length = n := by simp [packWords]
  rw [firstInvalid, List.find?_eq_none]
  intro i hi
  rw [hlen, List.mem_range] at hi
  rw [Bool.not_eq_true, Bool.not_eq_false', List.all_eq_true]
  intro j hj
  have hj := List.mem_range.1 hj
  have hlast : (decide (i + 1 = (packWords n v).length) && decide (j = 8)) = decide (9 * i + j + 1 = 9 * n) := by
    rw [hlen, ← Bool.decide_and]
    exact decide_eq_decide.2 (by omega)
  rw [hlast, packWords_eq, symbols_getD_packSymbols (fieldSymbols_length hn v) (fun _ => lt_sixteen_of_mem_fieldSymbols) hi hj]
  exact symbolOk_fieldSymbols (by omega)

/-- A value of at most 9n − 1 digits is what its field of n words holds. -/
theorem packedValue_packWords {n : Nat} (hn : n ≠ 0) {v : Int} (hv : v.natAbs < 10 ^ (9 * n - 1)) :
    packedValue (packWords n v) = some v := by
  have hne : packWords n v ≠ [] := by simp [packWords, hn]
  have hflat : (packWords n v).flatMap symbols = fieldSymbols n v :=
    flatMap_symbols_packSymbols n (fieldSymbols_length hn v) fun _ => lt_sixteen_of_mem_fieldSymbols
  have hmag : (digitsOf (9 * n - 1) v.natAbs).foldl (fun a x => 10 * a + x) 0 = v.natAbs := by
    rw [foldl_digitsOf, Nat.mod_eq_of_lt hv, zero_mul, zero_add]
  have hlast : (fieldSymbols n v).getLastD 12 = signSymbol v := by simp [fieldSymbols]
  rw [packedValue, if_neg (by simp [hne, firstInvalid_packWords hn])]
  simp only [hflat, hlast]
  rw [fieldSymbols, List.dropLast_concat, hmag, signSymbol]
  split
  next hneg => exact congrArg some (show -(v.natAbs : Int) = v by omega)
  next hpos => exact congrArg some (show (v.natAbs : Int) = v by omega)

/-! ### Results (R229, R230, R235) -/

/-- The product that DMUL writes is the one cut toward zero to 62 digits (R235). -/
theorem wrapDec_eq_tmod (p : Int) : wrapDec p = p.tmod (10 ^ 62) := by
  have htmod (n : Nat) : (n : Int).tmod (10 ^ 62) = ((n % decLimit : Nat) : Int) := by
    rw [Int.tmod_eq_emod_of_nonneg (Int.natCast_nonneg n)]
    rfl
  unfold wrapDec
  split
  next hneg =>
    rw [← htmod, ← Int.neg_tmod]
    congr 1
    omega
  next hpos =>
    rw [← htmod]
    congr 1
    omega

/-! ### From the field read to the state left -/

/-- An instruction that ends with the registers that f computes from those of its core. -/
theorem State.settle_updR {s : State} {c : CoreId} {r : CoreRegs} (h : s.regs c = r) (i : Instr) (f : CoreRegs → CoreRegs) (cc : Nat) :
    s.settle c i (.done (s.updR c f) none cc) = s.finish (s.updR c fun _ => f r) c i none cc := by
  rw [updR_const s c f h]
  rfl

/-- A decimal result of at most 62 digits is written; a larger one faults (R228). -/
theorem State.settle_decResult {s : State} {c : CoreId} {r : CoreRegs} (h : s.regs c = r) (i : Instr) (x : DReg) (v : Int) (cc : Nat) :
    s.settle c i (s.decResult c x v cc) =
      if v.natAbs < 10 ^ 62 then s.finish (s.updR c fun _ => r.setD x v) c i none cc else s.raise c .decimalOverflow 0 := by
  rw [State.decResult, decLimit]
  split
  · exact State.settle_updR h ..
  · rfl

/-- A product starts the decimal unit (R235). -/
theorem State.settle_decProduct (s : State) (c : CoreId) (i : Instr) (x : DReg) (p : Int) (cc : Nat) :
    s.settle c i (s.decProduct c x p cc) =
      s.finish (s.updCore c fun k => { k with u := { k.u with dec := some {
        writes := [(x.val, p.tmod (10 ^ 62))], movf := decide (10 ^ 62 ≤ p.natAbs),
        due := k.r.cnt.clk + (cc + bit k.atLoopEnd) + 24 } } }) c i none cc := by
  rw [← wrapDec_eq_tmod]
  rfl

/-- What is left of s once the characters l of a field at address va have been read: g of its value, or the entry of DECIMAL_DATA at
its first invalid symbol (R45, R238). -/
def State.afterField (s : State) (c : CoreId) (va : Nat) (l : List Chr) (g : Int → State) : State :=
  match packedValue (wordsOfChars l) with
  | some v => g v
  | none => s.raise c .decimalData (va + 4 * (firstInvalid (wordsOfChars l)).getD 0)

/-- An instruction with a packed field in memory reads the field and goes on with its value. -/
theorem reads_of_packed {s : State} {c : CoreId} {i : Instr} {t : Tail} {n : BitVec 3} {f : State → Int → Act} {g : State → Int → State}
    (he : exec i s = s.packed c i t n f) (hf : ∀ s1 v, s1.regs c = s.regs c → s1.settle c i (f s1 v) = g s1 v) :
    Reads s c i [Tail.operand (s.regs c) t (4 * n.toNat) 4 .load]
      (fun s1 l => s1.afterField c (Tail.va (s.regs c) t) l (g s1)) := by
  refine reads_of (ops := fun r => [Tail.operand r t (4 * n.toNat) 4 .load]) he fun s1 l hregs => ?_
  unfold State.afterField
  cases hv : packedValue (wordsOfChars l) with
  | none => simp only [hv, hregs]; rfl
  | some v => simpa only [hv] using hf s1 v hregs

/-! ### DSTW (R239) -/

/-- The check before an instruction's own causes lets it go on where its operand passes. -/
theorem State.precheck_of_checkOperand {s : State} {c : CoreId} {cur : Cur} {o : Operand} {l : List (AccPart × Option TlbEntry)}
    (h : s.checkOperand c cur.xlat o = .ok l) (f : Act) : s.precheck c cur o f = f := by
  simp only [State.precheck, h, ite_self]

/-- An operand whose store has been taken up passes that check. -/
theorem State.precheck_of_tryStore {s : State} {c : CoreId} {cur : Cur} {o : Operand} {op : AccOp} {precise : Bool} {data : List Chr}
    {y : Cur × State} (h : s.tryStore c cur 0 [o] op precise data = .ok y) (f : Act) : s.precheck c cur o f = f := by
  by_cases hr : cur.rounds = []
  · cases hk : s.checkOperand c cur.xlat o with
    | ok l => exact State.precheck_of_checkOperand hk f
    | fault cause a => simp [State.tryStore, State.checkOperands, hr, hk] at h
    | walk va => simp [State.tryStore, State.checkOperands, hr, hk] at h
  · exact if_pos hr

/-- DSTW, once its operand has passed: a value too long for its field faults, another is stored packed. -/
theorem exec_dstw {s : State} {c : CoreId} {x : DReg} {n : BitVec 3} {t : Tail} {y : Cur} {s1 : State}
    (hc : s.carries c (.dstw c x n t) = some (y, s1))
    (hp : ∀ f, s1.precheck c y (Tail.operand (s.regs c) t (4 * n.toNat) 4 .store) f = f) :
    exec (.dstw c x n t) s = .next (s1.settle c (.dstw c x n t) <|
      if !fitsDigits (9 * n.toNat - 1) ((s.regs c).dr x) then .fault .decimalOverflow 0
      else s1.storing c y 0 [Tail.operand (s.regs c) t (4 * n.toNat) 4 .store] .write true
        ((packWords n.toNat ((s.regs c).dr x)).flatMap Word.chars) fun _ z => .done z none (4 + Tail.cc t)) := by
  have he : exec (.dstw c x n t) s = execDstw c x n t s := rfl
  rw [he, execDstw, instr_carries hc]
  simp only [carries_regs hc, hp]

/-! ### The obligation -/

/-- Settles O36: each instruction goes on with the value of the field read, and a packed value is read back. -/
theorem packedFieldInstructions : Obligations.PackedFieldInstructions := by
  intro s c x d n t r field bad ends sum product
  refine ⟨?dldw, ?daddm, ?dsubm, ?dcmpm, ?dmulm, ?dstw, ?overflow, ?roundTrip⟩
  case dldw => exact reads_of_packed (g := fun s1 v => ends _ s1 4 fun q => q.setD x v) rfl fun s1 v h => State.settle_updR h ..
  case daddm =>
    refine reads_of_packed (g := fun s1 v => sum _ s1 (r.dr x + v)) rfl fun s1 v h => ?_
    rw [State.settle_decResult h, h]
  case dsubm =>
    refine reads_of_packed (g := fun s1 v => sum _ s1 (r.dr x - v)) rfl fun s1 v h => ?_
    rw [State.settle_decResult h, h]
  case dcmpm =>
    exact reads_of_packed (g := fun s1 v => ends _ s1 5 fun q =>
      q.setW d (if r.dr x < v then 0o777777777777 else if r.dr x = v then 0 else 1)) rfl fun s1 v h => State.settle_updR h ..
  case dmulm =>
    refine reads_of_packed (g := fun s1 v => s1.finish (s1.updCore c fun k => { k with u := { k.u with
      dec := product k (r.dr x * v) } }) c (.dmulm c x n t) none (4 + Tail.cc t)) rfl fun s1 v h => ?_
    rw [State.settle_decProduct, h]
  case dstw =>
    intro hfits y s1 y1 u hc hs
    have hfit : fitsDigits (9 * n.toNat - 1) ((s.regs c).dr x) = true := decide_eq_true hfits
    rw [exec_dstw hc (State.precheck_of_tryStore hs), hfit, State.storing, hs]
    rfl
  case overflow =>
    intro hlong y s1 ps hc hk
    have hfit : fitsDigits (9 * n.toNat - 1) ((s.regs c).dr x) = false := decide_eq_false (Nat.not_lt.2 hlong)
    rw [exec_dstw hc (State.precheck_of_checkOperand hk), hfit]
    rfl
  case roundTrip =>
    intro v hn hv
    rw [wordsOfChars_flatMap_chars]
    exact packedValue_packWords (fun h => hn (BitVec.eq_of_toNat_eq h)) hv

end Sys2Proof.Machine
end

section
/-! PROOF of O47: the path of an access through its gate, the row's controller, the walker and the response (R55, R94, R122, R294, R301,
R304, R311 to R317). -/

namespace Sys2Proof.Machine

/-! ### Accesses in flight -/

theorem State.id_of_findAccess {s : State} {id : Nat} {a : Access} (h : s.findAccess id = some a) : a.id = id :=
  of_decide_eq_true (List.find?_some (p := fun a : Access => decide (a.id = id)) h)

/-- An access read back after a change of it that keeps its number. -/
theorem State.findAccess_updAccess {s : State} {id : Nat} {a : Access} (ha : s.findAccess id = some a) {f : Access → Access}
    (hf : ∀ b, (f b).id = b.id) : (s.updAccess id f).findAccess id = some (f a) := by
  have hp : ((fun b : Access => decide (b.id = id)) ∘ fun b => if b.id = id then f b else b) = fun b => decide (b.id = id) := by
    funext b
    by_cases h : b.id = id <;> simp [h, hf]
  have hfind : s.accesses.find? (fun b => decide (b.id = id)) = some a := ha
  unfold State.updAccess State.findAccess
  rw [List.find?_map, hp, hfind, Option.map_some, if_pos (State.id_of_findAccess ha)]

@[simp] theorem State.findAccess_dropAccess (s : State) (id : Nat) : (s.dropAccess id).findAccess id = none := by
  simp [State.findAccess, State.dropAccess]

/-- Where an access is dropped, a change of it before leaves no trace. -/
theorem State.dropAccess_updAccess (s : State) (id : Nat) {f : Access → Access} (hf : ∀ b, (f b).id = b.id) :
    (s.updAccess id f).dropAccess id = s.dropAccess id := by
  have hkeep (l : List Access) : (l.map fun b => if b.id = id then f b else b).filter (fun b => decide (b.id ≠ id)) =
      l.filter fun b => decide (b.id ≠ id) := by
    induction l with
    | nil => rfl
    | cons b l ih =>
      by_cases h : b.id = id
      · simpa [h, hf] using ih
      · simpa [h] using ih
  unfold State.updAccess State.dropAccess
  rw [hkeep]

/-- The only part of an access changed. -/
theorem State.findAccess_setPart {s : State} {id : Nat} {a : Access} {q : AccPart} (ha : s.findAccess id = some a) (hq : a.parts = [q])
    (f : AccPart → AccPart) : (s.setPart id 0 f).findAccess id = some { a with parts := [f q] } := by
  have h : (s.setPart id 0 f).findAccess id = some { a with parts := a.parts.modify 0 f } :=
    State.findAccess_updAccess ha fun _ => rfl
  rw [h, hq]
  rfl

theorem AccPart.stored_of_space {q : AccPart} (hs : q.scratch = false) (h0 : spaceOf q.pa = 0) : q.stored = true := by
  simp [AccPart.stored, hs, h0]

theorem AccPart.side_of_space {q : AccPart} (h0 : spaceOf q.pa = 0) : q.side = false := by simp [AccPart.side, h0]

/-- While its part in ledger memory is still to be performed, nothing else of an access is. -/
theorem State.sideParts_of_pending {s : State} {id : Nat} {a : Access} {q : AccPart} (ha : s.findAccess id = some a) (hq : a.parts = [q])
    (hst : q.stored = true) (hr : q.resp = none) : s.sideParts id = s := by
  simp [State.sideParts, ha, hq, hst, hr]

/-- Once its only part, in ledger memory, is performed, an access has none of spaces 1 to 3 left. -/
theorem State.sideParts_of_stored {s : State} {id : Nat} {a : Access} {q : AccPart} (ha : s.findAccess id = some a) (hq : a.parts = [q])
    (hs : q.scratch = false) (h0 : spaceOf q.pa = 0) : s.sideParts id = s := by
  have hst := AccPart.stored_of_space hs h0
  have hside := AccPart.side_of_space h0
  simp [State.sideParts, ha, hq, hst, hside, State.sideAll, State.hostReads]

theorem State.sideParts_of_gone {s : State} {id : Nat} (ha : s.findAccess id = none) : s.sideParts id = s := by
  simp [State.sideParts, ha]

/-! ### The gate (R311, R317) -/

/-- A part as its gate admits it. -/
def AccPart.admittedBy (q : AccPart) (v : Verdict) : AccPart := { q with bank := v.bank, slot := v.slot }

/-- A part as its gate refuses it. -/
def AccPart.turnedAway (q : AccPart) : AccPart := { q with refused := some .gateViolation }

/-- An access of which every gate has answered, at place n of the order of arrival. -/
def Access.arrived (parts : List AccPart) (n : Nat) (z : Access) : Access := { z with parts := parts, arrival := n, st := .admitted }

theorem AccPart.admittedBy_scratch (q : AccPart) (v : Verdict) : (q.admittedBy v).scratch = q.scratch := rfl
theorem AccPart.admittedBy_refused (q : AccPart) (v : Verdict) : (q.admittedBy v).refused = q.refused := rfl
theorem AccPart.admittedBy_side (q : AccPart) (v : Verdict) : (q.admittedBy v).side = q.side := rfl
theorem AccPart.turnedAway_scratch (q : AccPart) : q.turnedAway.scratch = q.scratch := rfl

/-- What the gates answer on an access of one part. -/
theorem State.gateParts_single (s : State) (a : Access) {q : AccPart} (hs : q.scratch = false) : s.gateParts a [q] =
    if (s.partVerdict a q).reason = 0 then (s, [q.admittedBy (s.partVerdict a q)])
    else (s.refusePart a q (s.partVerdict a q) 0, [q.turnedAway]) := by
  have hn : ¬ q.scratch = true := by simp [hs]
  rw [State.gateParts, if_neg hn]
  rfl

section
variable {s : State} {id : Nat} {a : Access} {q : AccPart} (ha : s.findAccess id = some a) (hq : a.parts = [q])
  (hs : q.scratch = false) (hst : a.st = .sent) (hheld : s.heldBack a = false) (hbehind : s.sentBehind a = false)
include ha hq hs hst hheld hbehind

/-- An access that its gate admits takes its place in the order of arrival. -/
theorem exec_gateCheck_admits (h0 : spaceOf q.pa = 0) (hresp : q.resp = none) (href : q.refused = none)
    (hv : (s.partVerdict a q).reason = 0) : exec (.gateCheck id) s =
      .next ({ s with nextId := s.nextId + 1 }.updAccess id (Access.arrived [q.admittedBy (s.partVerdict a q)] s.nextId)) := by
  have he : exec (.gateCheck id) s = execGateCheck id s := rfl
  have hfind : ({ s with nextId := s.nextId + 1 }.updAccess id
      (Access.arrived [q.admittedBy (s.partVerdict a q)] s.nextId)).findAccess id =
        some (a.arrived [q.admittedBy (s.partVerdict a q)] s.nextId) :=
    State.findAccess_updAccess (s := { s with nextId := s.nextId + 1 }) ha fun _ => rfl
  have hpending := State.sideParts_of_pending hfind rfl (AccPart.stored_of_space hs h0) hresp
  rw [he, execGateCheck]
  simp only [ha, hq, hst, hheld, hbehind, State.gateParts_single s a hs, if_pos hv, List.find?_cons, AccPart.admittedBy_scratch, hs,
    Bool.not_false, ne_eq, not_true_eq_false, Bool.false_eq_true, or_self, if_false, AccPart.admittedBy_refused, href,
    AccPart.admittedBy_side, AccPart.side_of_space h0, Option.isSome_none, Bool.false_and]
  exact congrArg Host.Outcome.next hpending

/-- An access that its gate refuses is recorded there, and has failed. -/
theorem exec_gateCheck_refuses (hv : (s.partVerdict a q).reason ≠ 0) : exec (.gateCheck id) s =
    .next (({ s.refusePart a q (s.partVerdict a q) 0 with nextId := s.nextId + 1 }.updAccess id
      (Access.arrived [q.turnedAway] s.nextId)).failAccess a .gateViolation q.va) := by
  have he : exec (.gateCheck id) s = execGateCheck id s := rfl
  rw [he, execGateCheck]
  simp only [ha, hq, hst, hheld, hbehind, State.gateParts_single s a hs, if_neg hv, List.find?_cons, AccPart.turnedAway_scratch,
    hs]
  rfl

end

theorem State.refusePart_gate (s : State) (a : Access) (q : AccPart) (v : Verdict) (lineKey : Nat) :
    (s.refusePart a q v lineKey).gate v.gate = (s.gate v.gate).record v.reason (a.op.kind a.posted) v.slot v.bank
      (coreSource a.part.val a.core.val q.key.toNat lineKey q.sys) q.pa s.tick := by
  unfold State.refusePart State.violation
  rw [State.updGate_gate, if_pos rfl]

/-- A failed access: the cause that its core will see. -/
theorem State.findAccess_failAccess {s : State} {a b : Access} (hb : s.findAccess a.id = some b) (cause : Cause) (va : Nat) :
    ((s.failAccess a cause va).findAccess a.id).map Access.st = some (.failed (if a.posted then .targetViolation else cause) va) := by
  have h : (s.failAccess a cause va).findAccess a.id =
      some { b with st := .failed (if a.posted then .targetViolation else cause) va } := State.findAccess_updAccess hb fun _ => rfl
  rw [h]
  rfl

/-! ### The row's controller: loads (R55, R94, R123, R294) -/

/-- An access on its own at an undisturbed line of a die in service is performed there. -/
theorem exec_lineAccess_reaches {s : State} {id d l : Nat} {a : Access} {q : AccPart} {e : Ecc} (ha : s.findAccess id = some a)
    (hq : a.parts = [q]) (hs : q.scratch = false) (hop : a.op = .read ∨ a.op = .write) (hst : a.st = .admitted)
    (h0 : spaceOf q.pa = 0) (hresp : q.resp = none) (href : q.refused = none)
    (ht : s.target a.part.val (coreDie a.core) q.pa = some (d, l)) (hd : s.alive d = true) (hfree : s.earlierOut a d l = false)
    (hrep : s.underRepair d l = false) (hrow : s.rowWaits d l = false) : exec (.lineAccess id 0 e) s =
      .next (if a.op = .read then s.loadAccess a 0 q d l e else s.storeAccess a 0 q d l e) := by
  have he : exec (.lineAccess id 0 e) s = execLineAccess id 0 e s := rfl
  have hstored := AccPart.stored_of_space hs h0
  rw [he, execLineAccess]
  rcases hop with hop | hop <;>
    simp [ha, hq, hop, hst, hstored, hresp, href, ht, hd, hfree, hrep, hrow, Access.firstRefused, AccOp.isRead]

theorem readUnit160_nil : readUnit160 [] = .clean := by decide

/-- Tags without a changed symbol are sound. -/
theorem State.readTags_clean (s : State) (d l : Nat) : s.readTags d l .clean = (s, false) := by
  have h : readUnit160 Ecc.clean.tag = .clean := readUnit160_nil
  simp only [State.readTags, h]

/-- A line without a changed symbol is lost only when it is poisoned. -/
theorem State.readSymbols_clean (s : State) (d l code unit : Nat) :
    s.readSymbols d l .clean code unit = (s, (s.lineInfo d l).poison) := by
  have h : readUnit160 Ecc.clean.line = .clean := readUnit160_nil
  unfold State.readSymbols
  cases (s.lineInfo d l).poison
  · simp only [h, Bool.false_eq_true, if_false]
  · rfl

theorem State.readImage_clean (s : State) (d : Nat) {g : Image} (hg : g.hurt = []) (code : Nat) :
    s.readImage d g Ecc.clean.line code = (s, some g) := by
  have h : readUnit160 (g.hurt ++ Ecc.clean.line) = .clean := by rw [hg]; exact readUnit160_nil
  simp only [State.readImage, h]

theorem keyMatches_iff (cap line : BitVec 4) : keyMatches cap line = true ↔ cap = 0 ∨ cap = line := by
  simp [keyMatches]

/-- A load whose only part has been read keeps the characters for its core. -/
theorem State.partDone_load {s : State} {id : Nat} {a : Access} {q : AccPart} (ha : s.findAccess id = some a) (hq : a.parts = [q])
    (hs : q.scratch = false) (h0 : spaceOf q.pa = 0) (hp : a.posted = false) (chars : List Chr) :
    (s.partDone id 0 chars).sideParts id = s.setPart id 0 fun z => { z with resp := some chars } := by
  have hf := State.findAccess_setPart ha hq fun z => { z with resp := some chars }
  have hdone : s.partDone id 0 chars = s.setPart id 0 fun z => { z with resp := some chars } := by
    unfold State.partDone
    simp only [hf, hp, Bool.false_and, Bool.false_eq_true, if_false]
  rw [hdone]
  exact State.sideParts_of_stored hf rfl hs h0

/-! A load of one part that has reached its line, its tags sound. -/

section
variable {s : State} {d l : Nat} {a : Access} {q : AccPart}

/-- A key that does not match is refused under check 6. -/
theorem State.loadAccess_keyMismatch (hkey : ¬ (q.key = 0 ∨ q.key = s.lineKey d l)) :
    s.loadAccess a 0 q d l .clean =
      (s.refusePart a q (rowRefusal d l 6 q.bank q.slot) (s.lineKey d l).toNat).failAccess a .gateViolation q.va := by
  have hk : keyMatches q.key (s.lineKey d l) = false := Bool.eq_false_iff.2 fun h => hkey ((keyMatches_iff _ _).1 h)
  simp [State.loadAccess, State.readTags_clean, hk]

/-- Under a claim, and where no image serves the read, the working content is read. -/
theorem State.loadAccess_working (ha : s.findAccess a.id = some a) (hq : a.parts = [q]) (hs : q.scratch = false)
    (h0 : spaceOf q.pa = 0) (hp : a.posted = false) (hop : a.op = .read) (hkey : q.key = 0 ∨ q.key = s.lineKey d l)
    (himg : q.claimed = true ∨ s.imageAfter d l (s.visibleAt (coreDie a.core) a.part.val) = none)
    (hpoison : (s.lineInfo d l).poison = false) : s.loadAccess a 0 q d l .clean =
      s.setPart a.id 0 fun z => { z with resp := some (((s.lineChars d l).drop (q.pa % 64)).take q.len) } := by
  have hnone : (if q.claimed then none else s.imageAfter d l (s.visibleAt (coreDie a.core) a.part.val)) = none := by
    rcases himg with h | h <;> simp [h]
  rw [← State.partDone_load ha hq hs h0 hp]
  simp [State.loadAccess, State.readTags_clean, State.readSymbols_clean, (keyMatches_iff _ _).2 hkey, hnone, hop, hpoison]

/-- An unclaimed read of a line changed after the visible epoch reads its before-image (R94, R123). -/
theorem State.loadAccess_image (ha : s.findAccess a.id = some a) (hq : a.parts = [q]) (hs : q.scratch = false)
    (h0 : spaceOf q.pa = 0) (hp : a.posted = false) (hop : a.op = .read) (hkey : q.key = 0 ∨ q.key = s.lineKey d l) {g : Image}
    (hc : q.claimed = false) (himg : s.imageAfter d l (s.visibleAt (coreDie a.core) a.part.val) = some g)
    (hpoison : g.info.poison = false) (hhurt : g.hurt = []) : s.loadAccess a 0 q d l .clean =
      s.setPart a.id 0 fun z => { z with resp := some ((g.chars.drop (q.pa % 64)).take q.len) } := by
  rw [← State.partDone_load ha hq hs h0 hp]
  simp [State.loadAccess, State.readTags_clean, State.readImage_clean s d hhurt, (keyMatches_iff _ _).2 hkey, hc, himg, hop, hpoison]

/-- An unclaimed read of a poisoned line fails. -/
theorem State.loadAccess_poisoned (hop : a.op = .read) (hkey : q.key = 0 ∨ q.key = s.lineKey d l) (hc : q.claimed = false)
    (himg : s.imageAfter d l (s.visibleAt (coreDie a.core) a.part.val) = none) (hpoison : (s.lineInfo d l).poison = true) :
    s.loadAccess a 0 q d l .clean = s.failAccess a .linePoison q.va := by
  simp [State.loadAccess, State.readTags_clean, State.readSymbols_clean, (keyMatches_iff _ _).2 hkey, hc, himg, hop, hpoison]

end

/-! ### The row's controller: stores (R55, R122, R314) -/

theorem coreDie_lt (c : CoreId) : coreDie c < 8 := by
  have h := c.isLt
  unfold coreDie
  omega

@[simp] theorem State.putChars_images (s : State) (d l at_ : Nat) (data : List Chr) (e : Nat) :
    ((s.putChars d l at_ data).die e).m.images = (s.die e).m.images := by
  unfold State.putChars
  rw [State.updDie_die]
  split
  next h => rw [h]
  next => rfl

/-- Counting a store to a plain line changes no memory and no before-image. -/
theorem State.countPlain_m (s : State) (p d l at_ epoch : Nat) (data : List Chr) (e : Nat) :
    ((s.countPlain p d l at_ epoch data).die e).m = (s.die e).m := by
  unfold State.countPlain
  dsimp only
  rw [State.updDie_die]
  split
  next h => rw [h]
  next => rfl

/-- Saving an image changes no line. -/
theorem State.saveImage_mem (s : State) (d l : Nat) (p : PartId) (epoch : Nat) (owner : Option (DieId × Nat)) (join : Bool) (e : Nat) :
    ((s.saveImage d l p epoch owner join).die e).m.mem = (s.die e).m.mem := by
  unfold State.saveImage
  dsimp only
  rw [State.updDie_die]
  split
  next h => rw [h]
  next => rfl

theorem State.saveImage_images (s : State) (d l : Nat) (p : PartId) (epoch : Nat) (owner : Option (DieId × Nat)) (join : Bool) :
    ((s.saveImage d l p epoch owner join).die d).m.images = (s.die d).m.images ++
      [{ line := l, part := p, epoch := epoch, owner := owner, join := join, chars := s.lineChars d l, info := s.lineInfo d l,
         hurt := [] }] := by
  unfold State.saveImage
  dsimp only
  rw [State.updDie_die, if_pos rfl]

/-- A store leaves its characters where it writes, and every other one as it was. -/
theorem putChars_stored {s y : State} (hm : ∀ e, (y.die e).m.mem = (s.die e).m.mem) (d l at_ : Nat) (data : List Chr) :
    (∀ j < data.length, Sparse.get 0 ((y.putChars d l at_ data).die d).m.mem (64 * l + at_ + j) = data.getD j 0) ∧
      ∀ e b, (e ≠ d ∨ b < 64 * l + at_ ∨ 64 * l + at_ + data.length ≤ b) →
        Sparse.get 0 ((y.putChars d l at_ data).die e).m.mem b = Sparse.get 0 (s.die e).m.mem b := by
  refine ⟨fun j hj => ?_, fun e b h => ?_⟩
  · rw [putChars_char, if_pos ⟨rfl, by omega, by omega⟩, Nat.add_sub_cancel_left]
  · rw [putChars_char, if_neg (by omega), hm]

/-- The state once the checks of the only part of access a, a store, have passed. -/
def State.passed (s : State) (a : Access) : State := s.setPart a.id 0 fun z => { z with cleared := true }

section
variable {s : State} {d l : Nat} {a : Access} {q : AccPart} {r : Region}

/-- A store of one part that passes its checks is performed. -/
theorem State.storeAccess_write (hq : a.parts = [q]) (hop : a.op = .write) (hcleared : q.cleared = false) (hvoid : q.void = false)
    (href : q.refused = none) (hkey : q.key = 0 ∨ q.key = s.lineKey d l) (hcap : (s.lineInfo d l).capline = false)
    (hpoison : (s.lineInfo d l).poison = false) : s.storeAccess a 0 q d l .clean = (s.passed a).storePart a 0 q d l := by
  simp [State.storeAccess, State.passed, hcleared, hvoid, hop, State.readTags_clean, (keyMatches_iff _ _).2 hkey, lineState, hcap,
    State.readSymbols_clean, hpoison, hq, Access.firstRefused, href]

/-- A posted store of one part is gone once it has been performed. -/
theorem State.storePart_posted {b : Access} {p : AccPart} (hb : s.findAccess a.id = some b) (hq : b.parts = [p])
    (hp : b.posted = true) (hroom : s.storeNeedsRoom a q d l = false) (hkeep : (s.performStore a q d l).accesses = s.accesses) :
    s.storePart a 0 q d l = (s.performStore a q d l).dropAccess a.id := by
  have hfind : (s.performStore a q d l).findAccess a.id = some b := by rw [State.findAccess, hkeep]; exact hb
  have hpart := State.findAccess_setPart hfind hq fun z => { z with resp := some [] }
  have hdone : (s.performStore a q d l).partDone a.id 0 [] = (s.performStore a q d l).dropAccess a.id := by
    unfold State.partDone
    simp only [hpart, hp, List.all_cons, List.all_nil, Option.isSome_some, Bool.or_true, Bool.and_self, if_true]
    exact State.dropAccess_updAccess _ _ fun _ => rfl
  rw [State.storePart, hroom, hdone]
  exact State.sideParts_of_gone (State.findAccess_dropAccess _ _)

/-- A store to a plain line enters its digest and writes the line. -/
theorem State.performStore_plain (hop : a.op = .write) (hjoin : (s.partn a.part.val).joinEpoch = none)
    (hr : s.regionOf a.part.val d l = some r) (hk : r.kind = 0) (hc : q.claimed = false) : s.performStore a q d l =
      (s.countPlain a.part.val d l (q.pa % 64) (s.storeEpoch a.core) q.data).putChars d l (q.pa % 64) q.data := by
  simp [State.performStore, State.joinImage, hop, hjoin, hr, hk, hc]

/-- The first store of a transaction to a ledger line saves the line's image, and writes the line (R122). -/
theorem State.performStore_ledger {n : Nat} (hop : a.op = .write) (hjoin : (s.partn a.part.val).joinEpoch = none)
    (hr : s.regionOf a.part.val d l = some r) (hk : r.kind = 1) (hc : q.claimed = true) (hn : a.slot = some n)
    (himg : s.needsImage d l (s.ownImage (coreDie a.core) n) = true) : s.performStore a q d l =
      (s.saveImage d l a.part (s.slotEpoch (s.slot (coreDie a.core) n)) (some (⟨coreDie a.core, coreDie_lt a.core⟩, n)) false).putChars
        d l (q.pa % 64) q.data := by
  have hr' : (s.saveImage d l a.part (s.slotEpoch (s.slot (coreDie a.core) n)) (some (⟨coreDie a.core, coreDie_lt a.core⟩, n))
      false).regionOf a.part.val d l = some r := hr
  simp [State.performStore, State.joinImage, hop, hjoin, hc, hn, himg, coreDie_lt, hr', hk]

end

/-- t is s once access a has stored the characters of its part q in line l of die d: a is gone, and nothing else of the ledger memories
or of the cores has changed. -/
def State.Stored (s t : State) (a : Access) (q : AccPart) (d l : Nat) : Prop :=
  t.accesses = s.accesses.filter (fun b => decide (b.id ≠ a.id)) ∧
    (∀ j < q.data.length, Sparse.get 0 (t.die d).m.mem (64 * l + q.pa % 64 + j) = q.data.getD j 0) ∧
    (∀ e b, (e ≠ d ∨ b < 64 * l + q.pa % 64 ∨ 64 * l + q.pa % 64 + q.data.length ≤ b) →
      Sparse.get 0 (t.die e).m.mem b = Sparse.get 0 (s.die e).m.mem b) ∧
    t.u.cores = s.u.cores

section
variable {s : State} {d l : Nat} {a : Access} {q : AccPart} {r : Region} (ha : s.findAccess a.id = some a) (hq : a.parts = [q])
  (hp : a.posted = true) (hchecks : s.storeAccess a 0 q d l .clean = (s.passed a).storePart a 0 q d l)
include ha hq hp hchecks

/-- What a posted store of one part leaves, y being the state in which it writes its line. -/
theorem State.storeAccess_posted {y : State} (hroom : (s.passed a).storeNeedsRoom a q d l = false)
    (hperf : (s.passed a).performStore a q d l = y.putChars d l (q.pa % 64) q.data) (hacc : y.accesses = (s.passed a).accesses)
    (hcores : y.u.cores = s.u.cores) (hm : ∀ e, (y.die e).m.mem = (s.die e).m.mem) :
    ∃ t, s.storeAccess a 0 q d l .clean = t ∧ s.Stored t a q d l ∧ (t.die d).m.images = (y.die d).m.images := by
  have hfind : (s.passed a).findAccess a.id = some { a with parts := [{ q with cleared := true }] } := State.findAccess_setPart ha hq _
  have hdrop : ((s.passed a).dropAccess a.id).accesses = (s.dropAccess a.id).accesses :=
    congrArg State.accesses (State.dropAccess_updAccess _ _ fun _ => rfl)
  obtain ⟨hchars, hframe⟩ := putChars_stored hm d l (q.pa % 64) q.data
  rw [hchecks, State.storePart_posted hfind rfl hp hroom (by rw [hperf]; exact hacc), hperf]
  exact ⟨_, rfl, ⟨(congrArg _ hacc).trans hdrop, hchars, hframe, hcores⟩, State.putChars_images _ _ _ _ _ d⟩

/-- A posted store to a plain line saves no image. -/
theorem State.storeAccess_plain (hop : a.op = .write) (hjoin : (s.partn a.part.val).joinEpoch = none)
    (hr : s.regionOf a.part.val d l = some r) (hk : r.kind = 0) (hc : q.claimed = false) :
    ∃ t, s.storeAccess a 0 q d l .clean = t ∧ s.Stored t a q d l ∧ (t.die d).m.images = (s.die d).m.images := by
  have hroom : (s.passed a).storeNeedsRoom a q d l = false := by simp [State.storeNeedsRoom, hc]
  obtain ⟨t, ht, hst, himages⟩ := State.storeAccess_posted ha hq hp hchecks hroom (State.performStore_plain hop hjoin hr hk hc) rfl rfl
    fun e => congrArg DieMem.mem (State.countPlain_m ..)
  exact ⟨t, ht, hst, himages.trans (congrArg DieMem.images (State.countPlain_m ..))⟩

/-- The first posted store of a transaction to a ledger line saves the image of the line as it was (R122). -/
theorem State.storeAccess_ledger {n : Nat} (hop : a.op = .write) (hjoin : (s.partn a.part.val).joinEpoch = none)
    (hr : s.regionOf a.part.val d l = some r) (hk : r.kind = 1) (hc : q.claimed = true) (hn : a.slot = some n)
    (himg : s.needsImage d l (s.ownImage (coreDie a.core) n) = true) (himgRoom : s.imageRoom d = true) :
    ∃ t, s.storeAccess a 0 q d l .clean = t ∧ s.Stored t a q d l ∧ (t.die d).m.images = (s.die d).m.images ++
      [{ line := l, part := a.part, epoch := s.slotEpoch (s.slot (coreDie a.core) n),
         owner := some (⟨coreDie a.core, coreDie_lt a.core⟩, n), join := false, chars := s.lineChars d l, info := s.lineInfo d l,
         hurt := [] }] := by
  have himgRoom' : (s.passed a).imageRoom d = true := himgRoom
  have hroom : (s.passed a).storeNeedsRoom a q d l = false := by simp [State.storeNeedsRoom, himgRoom']
  obtain ⟨t, ht, hst, himages⟩ := State.storeAccess_posted ha hq hp hchecks hroom
    (State.performStore_ledger hop hjoin hr hk hc hn himg) rfl rfl fun e => State.saveImage_mem ..
  exact ⟨t, ht, hst, himages.trans (State.saveImage_images ..)⟩

end

/-! ### Refused posted stores (R315) -/

/-- A refused posted store is gone; its core holds the address of the first one. -/
theorem exec_targetViolation {s : State} {id va : Nat} {a : Access} {cause : Cause} (ha : s.findAccess id = some a)
    (hst : a.st = .failed cause va) (hp : a.posted = true) : ∃ t, exec (.targetViolation id) s = .next t ∧
      (t.core a.core).tvPend = some ((s.core a.core).tvPend.getD (word va)) ∧ t.findAccess id = none := by
  have he : exec (.targetViolation id) s = execTargetViolation id s := rfl
  rw [he, execTargetViolation]
  simp only [ha, hp, hst]
  refine ⟨_, rfl, ?_, State.findAccess_dropAccess s id⟩
  rw [State.updCore_core, if_pos rfl]
  show (match (s.core a.core).tvPend with | some w => some w | none => some (word va)) = _
  cases (s.core a.core).tvPend <;> rfl

/-! ### The response (R142) -/

theorem Core.awaiting_of_acc {k : Core} {x : Cur} {id : Nat} (hx : k.cur = some x) (hacc : x.acc = some id) : k.awaiting id = some x := by
  simp [Core.awaiting, hx, hacc]

/-- The failure of its access is a fault of the instruction that awaits it. -/
theorem exec_memoryResponse_failed {s : State} {id cc va : Nat} {a : Access} {x : Cur} {cause : Cause} (ha : s.findAccess id = some a)
    (hp : a.posted = false) (hst : a.st = .failed cause va) (hx : (s.core a.core).cur = some x) (hacc : x.acc = some id)
    (hb : x.begun = false) : exec (.memoryResponse id cc) s =
      .next (((s.dropAccess id).updCore a.core fun k => { k.count (·.addFar cc) with cur := none }).raise a.core cause va) := by
  have he : exec (.memoryResponse id cc) s = execMemoryResponse id cc s := rfl
  rw [he, execMemoryResponse]
  simp only [ha, hp, hst, Core.awaiting_of_acc hx hacc, Bool.false_eq_true, if_false, State.awaitFault, hb]
  rfl

/-- The characters read by its access are a round of the load that awaits it. -/
theorem exec_memoryResponse_read {s : State} {id cc : Nat} {a : Access} {q : AccPart} {x : Cur} {l : List Chr}
    (ha : s.findAccess id = some a) (hq : a.parts = [q]) (hp : a.posted = false) (hst : a.st = .admitted) (hop : a.op = .read)
    (hresp : q.resp = some l) (hx : (s.core a.core).cur = some x) (hacc : x.acc = some id) : exec (.memoryResponse id cc) s =
      .next ((s.dropAccess id).goOn a.core { x with rounds := x.rounds ++ [l] } cc) := by
  have he : exec (.memoryResponse id cc) s = execMemoryResponse id cc s := rfl
  have hid := State.id_of_findAccess ha
  rw [he, execMemoryResponse]
  simp [ha, hp, hst, hop, hq, hresp, State.deliver, hid, Core.awaiting_of_acc hx hacc, AccOp.isRead]

/-- A core goes on with an instruction that waits by itself and that no interrupt may abandon. -/
theorem State.carries_of_retrying {s : State} {c : CoreId} {y : Cur} (hl : (s.core c).live = true) (hbad : (s.core c).regBad = false)
    (hy : (s.core c).cur = some y) (hr : y.retrying = true) (hsoft : y.soft = false) : s.carries c y.instr = some (y, s) := by
  simp [State.carries, hl, hbad, hy, hr, hsoft]

/-- LDW ends with the word of the characters read. -/
theorem reads_ldw (s : State) (c : CoreId) (d : Reg) (t : Tail) :
    Reads s c (.ldw c d t) [Tail.operand (s.regs c) t 4 1 .load] fun s1 l =>
      s1.finish (s1.updR c fun r => r.setW d (Word.ofChars l)) c (.ldw c d t) none
        (3 + Tail.cc t + if (Tail.operand (s1.regs c) t 4 1 .load).split then 2 else 0) :=
  reads_of (ops := fun r => [Tail.operand r t 4 1 .load]) rfl fun _ _ _ => rfl

theorem CoreRegs.wr_congr {r r' : CoreRegs} (hw : r'.w = r.w) (hb : r'.ctl.bk1 = r.ctl.bk1) (d : Reg) : r'.wr d = r.wr d := by
  unfold CoreRegs.wr CoreRegs.wKey
  rw [hw, hb]

/-- The loop test at the end of an instruction changes no word register, and gives the core no instruction. -/
theorem State.loopEnd_keeps (s0 s : State) (c : Nat) (k : Core) (i : Instr) (n : Nat) :
    (s0.loopEnd s c k i n).r.w = k.r.w ∧ (s0.loopEnd s c k i n).r.ctl.bk1 = k.r.ctl.bk1 ∧ (s0.loopEnd s c k i n).cur = k.cur := by
  unfold State.loopEnd
  dsimp only
  split
  · exact ⟨rfl, rfl, rfl⟩
  split
  · split <;> exact ⟨rfl, rfl, rfl⟩
  · split <;> exact ⟨rfl, rfl, rfl⟩

/-- An instruction that does not branch ends with the word registers that its own part has left, and its core is free. -/
theorem State.finish_keeps (s0 s : State) (c : CoreId) (i : Instr) (cc : Nat) :
    (∀ d, ((s0.finish s c i none cc).regs c).wr d = (s.regs c).wr d) ∧ ((s0.finish s c i none cc).core c).cur = none := by
  have hk (k : Core) (hw : k.r.w = (s.core c).r.w) (hb : k.r.ctl.bk1 = (s.core c).r.ctl.bk1) (hcur : k.cur = none) :
      (∀ d, (s0.loopEnd s c k i (encode i).length).r.wr d = (s.core c).r.wr d) ∧
        (s0.loopEnd s c k i (encode i).length).cur = none := by
    obtain ⟨hw', hb', hcur'⟩ := s0.loopEnd_keeps s c k i (encode i).length
    exact ⟨CoreRegs.wr_congr (hw'.trans hw) (hb'.trans hb), hcur'.trans hcur⟩
  unfold State.regs State.finish
  dsimp only
  rw [State.setCore_core, if_pos rfl]
  cases (s0.core c).r.shadow with
  | none => exact hk _ rfl rfl rfl
  | some h => exact hk _ rfl rfl rfl

/-- The progress x of an instruction that waits by itself. -/
def Cur.byItself (x : Cur) : Cur := { x with acc := none, walk := none, gate := false, soft := false }

/-- Core c holds progress x of an instruction that waits by itself, after cc of far wait. -/
def State.takesUp (s : State) (c : Nat) (x : Cur) (cc : Nat) : State :=
  s.updCore c fun k => { k.count (·.addFar cc) with cur := some x.byItself }

theorem State.takesUp_core (s : State) (c : Nat) (x : Cur) (cc : Nat) :
    (s.takesUp c x cc).core c = { (s.core c).count (·.addFar cc) with cur := some x.byItself } := by
  rw [State.takesUp, State.updCore_core, if_pos rfl]

theorem State.goOn_eq_again (s : State) (c : Nat) (x : Cur) (cc : Nat) : s.goOn c x cc = (s.takesUp c x cc).again x.instr := rfl

theorem State.carries_of_takesUp {s : State} {c : CoreId} (x : Cur) (cc : Nat) (hl : (s.core c).live = true)
    (hbad : (s.core c).regBad = false) : (s.takesUp c x cc).carries c x.instr = some (x.byItself, s.takesUp c x cc) := by
  have hcore := s.takesUp_core c x cc
  exact State.carries_of_retrying (y := x.byItself) (by rw [hcore]; exact hl) (by rw [hcore]; exact hbad) (by rw [hcore]) rfl rfl

/-- An LDW that takes up its characters is complete: its register holds their word, and nothing but its core has changed. -/
theorem goOn_ldw {s : State} {c : CoreId} {x : Cur} {d : Reg} {t : Tail} {l : List Chr} (cc : Nat) (hi : x.instr = .ldw c d t)
    (hx : x.rounds = [l]) (hl : (s.core c).live = true) (hbad : (s.core c).regBad = false) :
    ((s.goOn c x cc).regs c).wr d = Word.ofChars l ∧ ((s.goOn c x cc).core c).cur = none ∧
      (s.goOn c x cc).accesses = s.accesses ∧ (∀ n, n ≠ c.val → (s.goOn c x cc).core n = s.core n) ∧
      (s.goOn c x cc).u.dies = s.u.dies := by
  have hcarries := State.carries_of_takesUp x cc hl hbad
  have hread : (s.takesUp c x cc).tryRead c x.byItself 0 [Tail.operand ((s.takesUp c x cc).regs c) t 4 1 .load] =
      .ok (x.byItself, l) := by
    simp only [State.tryRead, Cur.byItself, hx, List.getElem?_cons_zero]
  rw [hi] at hcarries
  have hexec := reads_ldw (s.takesUp c x cc) c d t _ _ _ l hcarries hread
  have hgo : s.goOn c x cc = stateOr (s.takesUp c x cc) (exec (.ldw c d t) (s.takesUp c x cc)) := by
    rw [State.goOn_eq_again, hi]
    rfl
  rw [hgo, hexec]
  obtain ⟨hwr, hcur⟩ := State.finish_keeps (s.takesUp c x cc) ((s.takesUp c x cc).updR c fun r => r.setW d (Word.ofChars l)) c
    (.ldw c d t) (3 + Tail.cc t + if (Tail.operand ((s.takesUp c x cc).regs c) t 4 1 .load).split then 2 else 0)
  refine ⟨(hwr d).trans ?_, hcur, ?_, fun n hn => ?_, ?_⟩
  · rw [State.updR_regs, if_pos rfl, CoreRegs.setW_wr, if_pos rfl]
  · simp [stateOr, State.finish, State.takesUp]
  · simp [stateOr, State.finish, State.takesUp, State.updR, hn]
  · simp [stateOr, State.finish, State.takesUp]

/-- The octets of its completion are the characters of the only part of a read of host memory (R449). -/
theorem exec_host3Completion_data {s : State} {id cc : Nat} {a : Access} {q : AccPart} {o : List Octet}
    (ha : s.findAccess id = some a) (hq : a.parts = [q]) (hs : q.scratch = false) (hst : a.st = .admitted) (hop : a.op = .read)
    (h3 : spaceOf q.pa = 3) (hresp : q.resp = none) (ho : o.length = q.len) : exec (.host3Completion id (.data o) cc) s =
      let b := { a with parts := [{ q with resp := some (o.map (Chr.mk false)) }] }
      .next ((s.updAccess id fun _ => b).deliver b cc) := by
  have he : exec (.host3Completion id (.data o) cc) s = execHost3Completion id (.data o) cc s := rfl
  rw [he, execHost3Completion]
  have htake : o.take q.len = o := List.take_of_length_le ho.le
  simp [ha, hq, hst, hop, hs, h3, hresp, ho, htake, AccPart.side, AccPart.stored, dealHost]

/-! ### The walker (R301, R304) -/

/-- The partition whose page tables a core's walks read. -/
def State.walkPart (s : State) (c : Nat) : Nat :=
  match s.partOf c with
  | some p => p.val
  | none => 0

/-- What the instruction of core c at progress x makes of its walk for va. -/
def State.afterWalk (s : State) (c : CoreId) (x : Cur) (cc va : Nat) : Option (State × Except Cause TlbEntry) → State
  | none => s
  | some (s1, .error cause) => s1.awaitFault c x cc cause va
  | some (s1, .ok e) => (s1.updCore c fun k => k.fill va e).goOn c { x with xlat := x.xlat ++ [e] } cc

/-- The walker takes the first walk of its list. -/
theorem exec_pageWalk {s : State} {cl : ClusterId} {c : CoreId} {va cc : Nat} {rest : List (CoreId × Nat)} {x : Cur} {w1 w2 : Ecc}
    (hwalks : (s.cluster cl).walks = (c, va) :: rest) (hx : (s.core c).cur = some x) (hwalk : x.walk = some va) :
    exec (.pageWalk cl w1 w2 cc) s = .next (s.afterWalk c x cc va
      ((s.updCluster cl fun z => { z with walks := rest }).walk c (s.walkPart c) va w1 w2)) := by
  have he : exec (.pageWalk cl w1 w2 cc) s = execPageWalk cl w1 w2 cc s := rfl
  rw [he, execPageWalk]
  simp only [hwalks, hx, Option.filter_some, hwalk, decide_true, if_true]
  rfl

/-- The entry for va maps it, and is neither locked nor marked for refill. -/
theorem State.newEntry_maps (s : State) (p d : Nat) {va : Nat} (hva : va < 2 ^ 36) (large : Bool) (e2 : Word) :
    let g := s.newEntry p d va large e2
    g.maps va = true ∧ g.v = true ∧ g.lk = false ∧ g.rf = false := by
  have hvpn : va / 2 ^ 16 % 2 ^ 20 = va / 2 ^ 16 := Nat.mod_eq_of_lt (by omega)
  have hlarge : va / 2 ^ 16 / 2 ^ 8 = va / 2 ^ 24 := by omega
  refine ⟨?_, rfl, rfl, rfl⟩
  simp only [State.newEntry, TlbEntry.maps, BitVec.toNat_ofNat, hvpn, hlarge, decide_true, Bool.true_and, ite_self]

/-- An entry that a walk finds is the one that its second-level entry gives. -/
theorem State.walk_ok {s s1 : State} {c p va : Nat} {x1 x2 : Ecc} {g : TlbEntry} (h : s.walk c p va x1 x2 = some (s1, .ok g)) :
    ∃ large e2, g = s1.newEntry p (coreDie c) va large e2 := by
  unfold State.walk at h
  dsimp only at h
  split at h
  · cases h
  · cases h
  split at h
  · cases h
  split at h
  · cases h
  · cases h
  split at h
  · cases h
  · cases h
    exact ⟨_, _, rfl⟩

/-! ### The obligation -/

/-- Settles O47: one lemma for each thing that can become of an access at its gate, at its line, at its core and in the walker. -/
theorem accessPath : Obligations.AccessPath := by
  intro s id cc a q ha hq hs v e at_
  have hid := State.id_of_findAccess ha
  refine ⟨?gate, ?line, ?violation, ?response, ?walk⟩
  case gate =>
    intro hst hheld hbehind h0 hresp href
    refine ⟨fun hv => exec_gateCheck_admits ha hq hs hst hheld hbehind h0 hresp href hv, fun hv => ?_⟩
    refine ⟨_, exec_gateCheck_refuses ha hq hs hst hheld hbehind hv, s.refusePart_gate a q v 0, ?_, rfl⟩
    subst hid
    exact State.findAccess_failAccess (State.findAccess_updAccess (s := { s.refusePart a q v 0 with nextId := s.nextId + 1 })
      (f := Access.arrived [q.turnedAway] s.nextId) ha fun _ => rfl) ..
  case line =>
    intro d l hst h0 hresp href hcleared hvoid ht hd hfree hrep hrow key info got
    subst hid
    have hreach (hop) := exec_lineAccess_reaches (e := .clean) ha hq hs hop hst h0 hresp href ht hd hfree hrep hrow
    refine ⟨fun hop hp => ?_, fun r n hop hp hkey hcap hpoison hjoin hr hkind => ?_⟩
    · rw [hreach (.inl hop), if_pos hop]
      refine ⟨fun hkey => ⟨fun himg hpoison => ?_, fun g hc himg hpoison hhurt => ?_, fun hc himg hpoison => ?_⟩, fun hk0 hk => ?_⟩
      · rw [State.loadAccess_working ha hq hs h0 hp hop hkey himg hpoison]
      · rw [State.loadAccess_image ha hq hs h0 hp hop hkey hc himg hpoison hhurt]
      · rw [State.loadAccess_poisoned hop hkey hc himg hpoison]
      · rw [State.loadAccess_keyMismatch (not_or.2 ⟨hk0, hk⟩)]
    · have hchecks := State.storeAccess_write hq hop hcleared hvoid href hkey hcap hpoison
      rw [hreach (.inr hop), if_neg (by rw [hop]; decide)]
      rcases hkind with ⟨hc, hk⟩ | ⟨hc, hk, hn, himg, hroom⟩
      · obtain ⟨t, ht, ⟨hacc, hchars, hframe, hcores⟩, himages⟩ := State.storeAccess_plain ha hq hp hchecks hop hjoin hr hk hc
        exact ⟨t, congrArg Host.Outcome.next ht, hacc, hchars, hframe, fun _ => himages,
          fun h => absurd (hc.symm.trans h) (by decide), hcores⟩
      · obtain ⟨t, ht, ⟨hacc, hchars, hframe, hcores⟩, himages⟩ :=
          State.storeAccess_ledger ha hq hp hchecks hop hjoin hr hk hc hn himg hroom
        exact ⟨t, congrArg Host.Outcome.next ht, hacc, hchars, hframe, fun h => absurd (hc.symm.trans h) (by decide),
          fun _ => ⟨_, himages, rfl, rfl, rfl, rfl, rfl⟩, hcores⟩
  case violation => exact fun va cause hst hp => exec_targetViolation ha hst hp
  case response =>
    intro x hx hacc hb hp
    refine ⟨fun va cause hst => exec_memoryResponse_failed ha hp hst hx hacc hb, fun d t l hst hop hresp hi hrounds hl hbad => ?_,
      fun o hst hop h3 hresp ho => exec_host3Completion_data ha hq hs hst hop h3 hresp ho⟩
    obtain ⟨hwr, hcur, hacc', hcores, hdies⟩ := goOn_ldw (s := s.dropAccess id) (x := { x with rounds := x.rounds ++ [l] }) (l := l) cc
      hi (by rw [hrounds]; rfl) hl hbad
    refine ⟨_, exec_memoryResponse_read ha hq hp hst hop hresp hx hacc, hwr, hcur, ?_, hcores, hdies⟩
    rw [State.findAccess, hacc']
    exact s.findAccess_dropAccess id
  case walk =>
    intro cl c va rest x w1 w2 hwalks hx hwalk s0 p
    rw [exec_pageWalk hwalks hx hwalk]
    refine ⟨fun s1 cause hw => congrArg (fun r => Host.Outcome.next (s.afterWalk c x cc va r)) hw, fun s1 g hw =>
      ⟨congrArg (fun r => Host.Outcome.next (s.afterWalk c x cc va r)) hw, fun hva => ?_⟩⟩
    obtain ⟨large, e2, rfl⟩ := State.walk_ok hw
    exact State.newEntry_maps _ _ _ hva _ _

end Sys2Proof.Machine
end

section
/-! SUPPORT for O38, O51, O52 and O53: what a fold keeps, and what events, log entries and errors of the Sundial leave alone. -/

namespace Sys2Proof.Machine

/-! ### Folds -/

/-- What every step of a fold leaves alone, the fold leaves alone. -/
theorem foldl_keeps {α β : Type} (view : State → β) {f : State → α → State} (h : ∀ s a, view (f s a) = view s) (l : List α)
    (s : State) : view (l.foldl f s) = view s := by
  induction l generalizing s with
  | nil => rfl
  | cons a l ih => rw [List.foldl_cons, ih, h]

theorem iter_keeps {β : Type} (view : State → β) {f : Nat → State → State} (h : ∀ n s, view (f n s) = view s) (n : Nat) (s : State) :
    view (iter n f s) = view s := foldl_keeps view (fun s a => h a s) _ s

theorem foldl_h {α : Type} {f : State → α → State} (h : ∀ s a, (f s a).h = s.h) (l : List α) (s : State) : (l.foldl f s).h = s.h :=
  foldl_keeps State.h h l s

theorem iter_h {f : Nat → State → State} (h : ∀ n s, (f n s).h = s.h) (n : Nat) (s : State) : (iter n f s).h = s.h :=
  iter_keeps State.h h n s

/-! ### Events and log entries -/

theorem State.msixKey_h (s : State) (k : Nat) (o : Sent) : (s.msixKey k o).h = { s.h with host := (s.msixKey k o).h.host } := by
  unfold State.msixKey
  dsimp only
  split <;> rfl

theorem State.msix_h (s : State) (v : Nat) : (s.msix v).h = { s.h with host := (s.msix v).h.host } := by
  unfold State.msix
  dsimp only
  split
  · split
    · exact s.msixKey_h _ _
    · exact s.msixKey_h _ _
  · rfl

/-- An event touches the host attachment only. -/
theorem State.event_h (s : State) (i : Nat) : (s.event i).h = { s.h with host := (s.event i).h.host } := by
  unfold State.event
  dsimp only
  split
  · exact State.msix_h _ _
  · rfl

/-- An entry of the error log counts, and may set an event. -/
theorem State.logErr_h (s : State) (code sev die : Nat) (hub : Bool) (part unit : Nat) (w2 w3 : Word) :
    (s.logErr code sev die hub part unit w2 w3).h = { s.h with
      elCount := s.h.elCount + 1
      elog := (s.logErr code sev die hub part unit w2 w3).h.elog
      host := (s.logErr code sev die hub part unit w2 w3).h.host } := by
  unfold State.logErr
  dsimp only
  split
  · rw [State.event_h]
  · rfl

theorem State.msixKey_msgs (s : State) (k : Nat) (o : Sent) : (s.msixKey k o).msgs = s.msgs := by
  unfold State.msixKey
  dsimp only
  split <;> rfl

@[simp] theorem State.event_msgs (s : State) (i : Nat) : (s.event i).msgs = s.msgs := by
  unfold State.event State.msix
  dsimp only
  split
  · split
    · split <;> exact State.msixKey_msgs _ _ _
    · rfl
  · rfl

section
variable (s : State) (code sev die : Nat) (hub : Bool) (part unit : Nat) (w2 w3 : Word)

@[simp] theorem State.logErr_elCount : (s.logErr code sev die hub part unit w2 w3).h.elCount = s.h.elCount + 1 := by
  rw [State.logErr_h]
@[simp] theorem State.logErr_sd : (s.logErr code sev die hub part unit w2 w3).h.sd = s.h.sd := by
  rw [State.logErr_h]
@[simp] theorem State.logErr_plan : (s.logErr code sev die hub part unit w2 w3).h.plan = s.h.plan := by
  rw [State.logErr_h]
@[simp] theorem State.logErr_mirror : (s.logErr code sev die hub part unit w2 w3).h.mirror = s.h.mirror := by
  rw [State.logErr_h]
@[simp] theorem State.logErr_msgs : (s.logErr code sev die hub part unit w2 w3).msgs = s.msgs := by
  unfold State.logErr
  dsimp only
  split
  · exact State.event_msgs _ _
  · rfl
end

@[simp] theorem State.event_sd (s : State) (i : Nat) : (s.event i).h.sd = s.h.sd := by
  rw [State.event_h]
@[simp] theorem State.event_plan (s : State) (i : Nat) : (s.event i).h.plan = s.h.plan := by
  rw [State.event_h]
@[simp] theorem State.event_mirror (s : State) (i : Nat) : (s.event i).h.mirror = s.h.mirror := by
  rw [State.event_h]

/-! ### Errors of the Sundial (R105, R395) -/

/-- An error of the Sundial writes SD_ERR and enters the log. -/
theorem State.sdError_eq (s : State) (code die : Nat) : ∃ (e w : Word) (sev d : Nat) (hub : Bool),
    s.sdError code die = (s.updSdRegs fun g => { g with err := e }).logErr 0o25 sev d hub 0 0 w 0 := by
  unfold State.sdError
  generalize BitVec.ofNat 36 (2 ^ 35 + code * 2 ^ 29 + die * 2 ^ 26 + s.tick.toNat % 2 ^ 25 * 2) = w
  dsimp only
  split
  · exact ⟨s.h.sd.g.err, w, _, _, _, rfl⟩
  · exact ⟨w, w, _, _, _, rfl⟩

/-- It changes nothing of the Sundial but SD_ERR. -/
theorem State.sdError_sd (s : State) (code die : Nat) :
    ∃ e, (s.sdError code die).h.sd = { s.h.sd with g := { s.h.sd.g with err := e } } := by
  obtain ⟨e, w, sev, d, hub, h⟩ := s.sdError_eq code die
  exact ⟨e, by rw [h, State.logErr_sd]; rfl⟩

@[simp] theorem State.sdError_u (s : State) (code die : Nat) : (s.sdError code die).u = s.u := by
  obtain ⟨e, w, sev, d, hub, h⟩ := s.sdError_eq code die
  rw [h, State.logErr_u, State.updSdRegs_u]

@[simp] theorem State.sdError_plan (s : State) (code die : Nat) : (s.sdError code die).h.plan = s.h.plan := by
  obtain ⟨e, w, sev, d, hub, h⟩ := s.sdError_eq code die
  rw [h, State.logErr_plan, State.updSdRegs_h_plan]

@[simp] theorem State.sdError_mirror (s : State) (code die : Nat) : (s.sdError code die).h.mirror = s.h.mirror := by
  obtain ⟨e, w, sev, d, hub, h⟩ := s.sdError_eq code die
  rw [h, State.logErr_mirror, State.updSdRegs_h_mirror]

@[simp] theorem State.sdError_elCount (s : State) (code die : Nat) : (s.sdError code die).h.elCount = s.h.elCount + 1 := by
  obtain ⟨e, w, sev, d, hub, h⟩ := s.sdError_eq code die
  rw [h, State.logErr_elCount, State.updSdRegs_h_elCount]

end Sys2Proof.Machine
end

section
/-! PROOF of O53: the Sundial's sources and states (R63 to R71), its timers and pulse (R66, R69, R490), and the register accesses
with an effect of their own (R104, R140). -/

namespace Sys2Proof.Machine

/-! ### Posting time and the state of the Sundial -/

/-- Setting the tick touches the tick, the era and the epoch, and the dies. -/
theorem State.setTick_h (s : State) (u : Nat) : (s.setTick u).h = { s.h with sd := { s.h.sd with g := { s.h.sd.g with
    tick := BitVec.ofNat 48 u, era := BitVec.ofNat 36 (u / 2 ^ 48), epoch := u / s.h.sd.g.epochTicks % 2 ^ 72 } } } := by
  unfold State.setTick
  refine (iter_keeps State.h (fun d x => ?_) 8 _).trans rfl
  split <;> rfl

/-- Posting time carries BEFORE_ORIGIN, the tick, the era and the epoch with it. -/
theorem State.setTime_h (s : State) (t : Pair) : ∃ b tick era epoch, (s.setTime t).h = { s.h with sd := { s.h.sd with g :=
    { s.h.sd.g with time := t, beforeOrigin := b, tick := tick, era := era, epoch := epoch } } } := by
  unfold State.setTime
  dsimp only
  split
  · exact ⟨_, _, _, _, rfl⟩
  · split
    · exact ⟨_, _, _, _, rfl⟩
    · exact ⟨_, _, _, _, State.setTick_h _ _⟩

/-- A change of state stamps and times itself in the Sundial; of the registers it sets those that show it. -/
theorem State.enterSd_sd (s : State) (st : SdSt) (source : BitVec 3) (which : Bool) (port : BitVec 6) :
    ∃ ms start rep seq tick audit, (s.enterSd st source which port).h.sd = { s.h.sd with
      g := { s.h.sd.g with st := st, source := source, which := which, port := port, holdMs := ms },
      holdStart := start, holdReported := rep, seq := seq, seqTick := tick, audit := audit } := by
  unfold State.enterSd
  dsimp only
  split
  · exact ⟨_, _, _, _, _, _, rfl⟩
  · rw [State.event_sd]
    split <;> split <;> exact ⟨_, _, _, _, _, _, rfl⟩

@[simp] theorem State.enterSd_plan (s : State) (st : SdSt) (source : BitVec 3) (which : Bool) (port : BitVec 6) :
    (s.enterSd st source which port).h.plan = s.h.plan := by
  unfold State.enterSd
  dsimp only
  split
  · rfl
  · rw [State.event_plan]
    split <;> split <;> rfl

@[simp] theorem State.enterSd_mirror (s : State) (st : SdSt) (source : BitVec 3) (which : Bool) (port : BitVec 6) :
    (s.enterSd st source which port).h.mirror = s.h.mirror := by
  unfold State.enterSd
  dsimp only
  split
  · rfl
  · rw [State.event_mirror]
    split <;> split <;> rfl

/-! ### What a source is -/

/-- The kind of a source is the plan's, or that of the package's role. -/
theorem State.sourceKind_congr {s t : State} (hp : t.h.plan = s.h.plan) (hr : t.h.mirror.role = s.h.mirror.role) (b : Bool) :
    t.sourceKind b = s.sourceKind b := by
  unfold State.sourceKind State.paramN State.param
  rw [hp, hr]

theorem State.paramN_congr {s t : State} (hp : t.h.plan = s.h.plan) (id idx d : Nat) : t.paramN id idx d = s.paramN id idx d := by
  unfold State.paramN State.param
  rw [hp]

@[simp] theorem Sundial.setSource_source (x : Sundial) (b c : Bool) (q : Source) :
    (x.setSource b q).source c = if c = b then q else x.source c := by
  cases b <;> cases c <;> rfl

@[simp] theorem Sundial.setSource_g (x : Sundial) (b : Bool) (q : Source) : (x.setSource b q).g = x.g := by
  cases b <;> rfl

@[simp] theorem Sundial.setSource_opened (x : Sundial) (b : Bool) (q : Source) : (x.setSource b q).opened = x.opened := by
  cases b <;> rfl

@[simp] theorem Sundial.setSource_secondsTaken (x : Sundial) (b : Bool) (q : Source) :
    (x.setSource b q).secondsTaken = x.secondsTaken := by
  cases b <;> rfl

@[simp] theorem State.updSd_sd (s : State) (f : Sundial → Sundial) : (s.updSd f).h.sd = f s.h.sd := rfl

@[simp] theorem State.updSd_sourceKind (s : State) (f : Sundial → Sundial) (b : Bool) : (s.updSd f).sourceKind b = s.sourceKind b := rfl

@[simp] theorem State.enterSd_sourceKind (s : State) (st : SdSt) (source : BitVec 3) (which : Bool) (port : BitVec 6) (b : Bool) :
    (s.enterSd st source which port).sourceKind b = s.sourceKind b :=
  State.sourceKind_congr (s.enterSd_plan _ _ _ _) (congrArg Mirror.role (s.enterSd_mirror _ _ _ _)) b

@[simp] theorem State.enterSd_secondsTaken (s : State) (st : SdSt) (source : BitVec 3) (which : Bool) (port : BitVec 6) :
    (s.enterSd st source which port).h.sd.secondsTaken = s.h.sd.secondsTaken := by
  obtain ⟨_, _, _, _, _, _, h⟩ := s.enterSd_sd st source which port
  rw [h]

@[simp] theorem State.setTime_time (s : State) (t : Pair) : (s.setTime t).h.sd.g.time = t := by
  obtain ⟨_, _, _, _, h⟩ := s.setTime_h t
  rw [h]

@[simp] theorem State.setTime_sourceKind (s : State) (t : Pair) (b : Bool) : (s.setTime t).sourceKind b = s.sourceKind b := by
  obtain ⟨_, _, _, _, h⟩ := s.setTime_h t
  exact State.sourceKind_congr (by rw [h]) (by rw [h]) b

@[simp] theorem State.setTime_secondsTaken (s : State) (t : Pair) : (s.setTime t).h.sd.secondsTaken = s.h.sd.secondsTaken := by
  obtain ⟨_, _, _, _, h⟩ := s.setTime_h t
  rw [h]

/-! ### The servo (R331) -/

/-- A servo that takes a measurement leaves the Sundial and the plan alone, and its correction is that of its gains. -/
theorem State.servoTake_spec (s : State) (b : Bool) (m : Int) :
    (s.servoTake b m).1.h.sd = s.h.sd ∧ (s.servoTake b m).1.h.plan = s.h.plan ∧
      (s.servoTake b m).1.h.mirror.role = s.h.mirror.role ∧
      (s.servoTake b m).2 = ((s.servoOf b).1.next (s.param 12 0 100) (s.servoOf b).2 m).2 := by
  unfold State.servoTake
  dsimp only
  split <;> exact ⟨rfl, rfl, rfl, rfl⟩

/-- A measurement of a source with a servo. -/
theorem exec_sourceMeasurement_servo {s : State} {b : Bool} (hk : s.sourceKind b ≠ 0) (h3 : s.sourceKind b ≠ 3)
    (hm : s.measurable b = true) (time loc : Pair) (gap : Nat) :
    exec (.sourceMeasurement b time loc gap) s = .next ((s.servoTake b (loc.toNat - time.toNat)).1.measure b time.toNat loc.toNat gap
      ((s.servoOf b).1.next (s.param 12 0 100) (s.servoOf b).2 (loc.toNat - time.toNat)).2) := by
  rw [← (s.servoTake_spec b _).2.2.2]
  change execSourceMeasurement b time loc gap s = _
  unfold execSourceMeasurement
  rw [hm, Bool.not_true, if_neg Bool.false_ne_true, if_neg (not_or.2 ⟨hk, h3⟩)]

/-! ### The state of the Sundial and its source -/

/-- The Sundial's state and the source it has chosen. -/
def State.chosen (s : State) : SdSt × Bool := (s.h.sd.g.st, s.h.sd.g.which)

theorem State.chosen_eq_iff {s : State} {st : SdSt} {b : Bool} : s.chosen = (st, b) ↔ s.h.sd.g.st = st ∧ s.h.sd.g.which = b :=
  Prod.mk_inj

@[simp] theorem State.enterSd_chosen (s : State) (st : SdSt) (source : BitVec 3) (which : Bool) (port : BitVec 6) :
    (s.enterSd st source which port).chosen = (st, which) := by
  obtain ⟨_, _, _, _, _, _, h⟩ := s.enterSd_sd st source which port
  rw [State.chosen, h]

@[simp] theorem State.setTime_chosen (s : State) (t : Pair) : (s.setTime t).chosen = s.chosen := by
  obtain ⟨_, _, _, _, h⟩ := s.setTime_h t
  rw [State.chosen, h, State.chosen]

@[simp] theorem State.sdError_chosen (s : State) (code die : Nat) : (s.sdError code die).chosen = s.chosen := by
  obtain ⟨_, h⟩ := s.sdError_sd code die
  rw [State.chosen, h, State.chosen]

@[simp] theorem State.selectSd_chosen (s : State) (st : SdSt) (b : Bool) : (s.selectSd st b).chosen = (st, b) :=
  s.enterSd_chosen _ _ _ _

@[simp] theorem State.stepTo_chosen (s : State) (b : Bool) (offset : Int) : (s.stepTo b offset).chosen = s.chosen := by
  have h : ((s.setTime (BitVec.ofInt 72 ((s.h.sd.g.time.toNat : Int) + offset))).updSd fun x =>
      x.setSource b { x.source b with last := 0 }).chosen = s.chosen := by
    rw [← s.setTime_chosen, State.chosen, State.updSd_sd, Sundial.setSource_g]
    rfl
  unfold State.stepTo
  dsimp only
  split
  · exact h
  · split <;> exact h

@[simp] theorem State.takeOffset_chosen (s : State) (b : Bool) (offset : Int) : (s.takeOffset b offset).chosen = s.chosen := by
  unfold State.takeOffset
  dsimp only
  split
  · split
    · rw [State.sdError_chosen]; rfl
    · rfl
  · rw [State.stepTo_chosen]; rfl

/-- Once admission has opened, an offset does not step posting time (R67). -/
theorem State.takeOffset_g {s : State} (h : s.h.sd.opened = true) (b : Bool) (offset : Int) :
    ∃ err, (s.takeOffset b offset).h.sd.g = { s.h.sd.g with
      offset := satOffset offset, slewing := decide (s.paramN 9 0 100 < offset.natAbs), err := err } := by
  unfold State.takeOffset
  simp only [h, true_or, if_true]
  split
  · obtain ⟨e, he⟩ := State.sdError_sd ((s.updSdRegs fun g => { g with offset := satOffset offset }).updSdRegs fun g =>
      { g with slewing := decide (s.paramN 9 0 100 < offset.natAbs) }) 5 0
    exact ⟨e, by rw [he]; rfl⟩
  · exact ⟨_, rfl⟩

@[simp] theorem State.lockFreq_chosen (s : State) (b : Bool) (y : Int) : (s.lockFreq b y).chosen = s.chosen := by
  unfold State.lockFreq
  dsimp only
  split <;> rfl

/-- SD_FREQ is the correction of the source's servo, where it has one. -/
theorem State.lockFreq_g {s : State} {b : Bool} (h : s.sourceKind b ≠ 3) (y : Int) :
    (s.lockFreq b y).h.sd.g = { s.h.sd.g with freq := y } := by
  unfold State.lockFreq
  simp only [if_neg h]
  rfl

@[simp] theorem State.sdError_sourceKind (s : State) (code die : Nat) (b : Bool) :
    (s.sdError code die).sourceKind b = s.sourceKind b :=
  State.sourceKind_congr (s.sdError_plan _ _) (congrArg Mirror.role (s.sdError_mirror _ _)) b

@[simp] theorem State.stepTo_sourceKind (s : State) (b c : Bool) (offset : Int) : (s.stepTo b offset).sourceKind c = s.sourceKind c := by
  refine Eq.trans ?_ (s.setTime_sourceKind (BitVec.ofInt 72 ((s.h.sd.g.time.toNat : Int) + offset)) c)
  unfold State.stepTo
  dsimp only
  split
  · rfl
  · split <;> rfl

@[simp] theorem State.takeOffset_sourceKind (s : State) (b c : Bool) (offset : Int) :
    (s.takeOffset b offset).sourceKind c = s.sourceKind c := by
  unfold State.takeOffset
  dsimp only
  split
  · split
    · exact State.sdError_sourceKind _ _ _ _
    · rfl
  · exact State.stepTo_sourceKind _ _ _ _

@[simp] theorem State.lockTo_chosen (s : State) (b : Bool) : (s.lockTo b).chosen = (.locked, b) := by
  simp [State.lockTo]

@[simp] theorem State.enterHoldover_chosen (s : State) : s.enterHoldover.chosen = (.holdover, s.h.sd.g.which) := by
  simp [State.enterHoldover]

@[simp] theorem State.sdError_source (s : State) (code die : Nat) (b : Bool) :
    (s.sdError code die).h.sd.source b = s.h.sd.source b := by
  obtain ⟨_, h⟩ := s.sdError_sd code die
  rw [h]
  cases b <;> rfl

/-- The selected source is lost: the other one takes its place where it is qualified, else HOLDOVER (R66). -/
theorem State.loseSelected_chosen {s : State} {w : Bool} (h : s.chosen = (.locked, w)) :
    s.loseSelected.chosen = if (s.h.sd.source (!w)).qualified then (.locked, !w) else (.holdover, w) := by
  obtain ⟨hst, hw⟩ := State.chosen_eq_iff.1 h
  unfold State.loseSelected
  simp only [hst, ne_eq, not_true_eq_false, if_false, hw, State.updSd_sd, Sundial.setSource_source, Bool.not_eq_eq_eq_not,
    Bool.eq_not_self, State.sdError_source]
  split
  · exact State.lockTo_chosen _ _
  · rw [State.enterHoldover_chosen, State.updSd_sd, Sundial.setSource_g, (State.chosen_eq_iff.1 ((s.sdError_chosen 3 0).trans h)).2]

/-! ### Measurements (R64, R66, R67) -/

theorem State.measure_of_unused {s : State} {b : Bool} (h : s.sourceKind b = 0) (time loc gap : Nat) (y : Int) :
    s.measure b time loc gap y = s := by
  unfold State.measure
  rw [if_pos h]

/-- The first measurement of all takes the package out of UNSET, at the source's time; the plan and the role stay. -/
theorem State.measure_unset {s : State} {b : Bool} (hk : s.sourceKind b ≠ 0) (hst : s.h.sd.g.st = .unset) (time loc gap : Nat)
    (y : Int) : (s.measure b time loc gap y).chosen = (.acquiring, b) ∧
      (s.measure b time loc gap y).h.sd.g.time = BitVec.ofNat 72 time ∧
      (s.measure b time loc gap y).h.sd.secondsTaken = s.h.sd.secondsTaken ∧
      ∀ c, (s.measure b time loc gap y).sourceKind c = s.sourceKind c := by
  unfold State.measure
  simp only [if_neg hk, hst]
  exact ⟨by simp, by simp, by simp [State.selectSd], by simp [State.selectSd]⟩

/-- A measurement of the selected source beyond JUMP_NS: the source is lost. -/
theorem State.measure_jump_chosen {s : State} {b : Bool} (hk : s.sourceKind b ≠ 0) (h : s.chosen = (.locked, b)) {time loc : Nat}
    (hj : s.paramN 11 0 1000 < ((time : Int) - loc).natAbs) (gap : Nat) (y : Int) :
    (s.measure b time loc gap y).chosen =
      if (s.h.sd.source (!b)).qualified then (.locked, !b) else (.holdover, b) := by
  obtain ⟨hst, hw⟩ := State.chosen_eq_iff.1 h
  unfold State.measure
  simp only [if_neg hk, hst, hw, if_true, if_pos hj, reduceCtorEq, if_false]
  rw [State.loseSelected_chosen (w := b), State.sdError_source]
  · cases b <;> rfl
  · rw [State.sdError_chosen, ← h]
    cases b <;> rfl

/-- A measurement of the selected primary source within JUMP_NS: SD_OFFSET, SD_FREQ and SLEWING follow it (R67, R103). -/
theorem State.measure_locked {s : State} (hk : s.sourceKind false ≠ 0) (h3 : s.sourceKind false ≠ 3)
    (h : s.chosen = (.locked, false)) (ho : s.h.sd.opened = true) {time loc : Nat}
    (hj : ((time : Int) - loc).natAbs ≤ s.paramN 11 0 1000) (gap : Nat) (y : Int) :
    ∃ err, (s.measure false time loc gap y).h.sd.g = { s.h.sd.g with
      offset := satOffset (time - loc), slewing := decide (s.paramN 9 0 100 < ((time : Int) - loc).natAbs), freq := y, err := err } := by
  obtain ⟨hst, hw⟩ := State.chosen_eq_iff.1 h
  have hm : s.measure false time loc gap y = ((s.updSd fun z => z.setSource false ((z.source false).measured (time - loc) time gap
      (s.paramN 9 0 100) (1000 * s.paramN 10 0 8) y)).takeOffset false (time - loc)).lockFreq false y := by
    unfold State.measure
    simp only [if_neg hk, hst, hw, if_true, if_neg (Nat.not_lt.2 hj), reduceCtorEq, if_false, Bool.false_and, Bool.false_eq_true]
  obtain ⟨e, he⟩ := State.takeOffset_g (s := s.updSd fun z => z.setSource false
    ((z.source false).measured (time - loc) time gap (s.paramN 9 0 100) (1000 * s.paramN 10 0 8) y)) ho false (time - loc)
  refine ⟨e, ?_⟩
  rw [hm, State.lockFreq_g (by simpa using h3), he]
  rfl

/-- The measurements of a servo, each in the terms of the state before it. -/
theorem exec_sourceMeasurement_chosen {s : State} {b : Bool} (hk : s.sourceKind b ≠ 0) (h3 : s.sourceKind b ≠ 3)
    (hm : s.measurable b = true) (h : s.chosen = (.locked, b)) {time loc : Pair}
    (hj : s.paramN 11 0 1000 < ((time.toNat : Int) - loc.toNat).natAbs) (gap : Nat) :
    ∃ t, exec (.sourceMeasurement b time loc gap) s = .next t ∧
      t.chosen = if (s.h.sd.source (!b)).qualified then (.locked, !b) else (.holdover, b) := by
  obtain ⟨hsd, hp, hr, _⟩ := s.servoTake_spec b ((loc.toNat : Int) - time.toNat)
  refine ⟨_, exec_sourceMeasurement_servo hk h3 hm time loc gap, ?_⟩
  rw [State.measure_jump_chosen (by rwa [State.sourceKind_congr hp hr]) (by rwa [State.chosen, hsd])
    (by rwa [State.paramN_congr hp]), hsd]

theorem exec_sourceMeasurement_locked {s : State} (hk : s.sourceKind false ≠ 0) (h3 : s.sourceKind false ≠ 3)
    (hm : s.measurable false = true) (h : s.chosen = (.locked, false)) (ho : s.h.sd.opened = true) {time loc : Pair}
    (hj : ((time.toNat : Int) - loc.toNat).natAbs ≤ s.paramN 11 0 1000) (gap : Nat) :
    ∃ t err, exec (.sourceMeasurement false time loc gap) s = .next t ∧ t.h.sd.g = { s.h.sd.g with
      offset := satOffset (time.toNat - loc.toNat), slewing := decide (s.paramN 9 0 100 < ((time.toNat : Int) - loc.toNat).natAbs),
      freq := ((s.servoOf false).1.next (s.param 12 0 100) (s.servoOf false).2 (loc.toNat - time.toNat)).2, err := err } := by
  obtain ⟨hsd, hp, hr, _⟩ := s.servoTake_spec false ((loc.toNat : Int) - time.toNat)
  obtain ⟨e, he⟩ := State.measure_locked (s := (s.servoTake false ((loc.toNat : Int) - time.toNat)).1)
    (by rwa [State.sourceKind_congr hp hr]) (by rwa [State.sourceKind_congr hp hr]) (by rwa [State.chosen, hsd]) (by rwa [hsd])
    (by rwa [State.paramN_congr hp]) gap
    ((s.servoOf false).1.next (s.param 12 0 100) (s.servoOf false).2 ((loc.toNat : Int) - time.toNat)).2
  refine ⟨_, e, exec_sourceMeasurement_servo hk h3 hm time loc gap, ?_⟩
  rw [he, hsd, State.paramN_congr hp]

/-- In UNSET a measurement of any kind takes the package to the source's time. -/
theorem exec_sourceMeasurement_unset {s : State} {b : Bool} (hst : s.h.sd.g.st = .unset) (hk : s.sourceKind b ≠ 0)
    (hm : s.measurable b = true) (time loc : Pair) (gap : Nat) :
    ∃ t, exec (.sourceMeasurement b time loc gap) s = .next t ∧ t.chosen = (.acquiring, b) ∧ t.h.sd.g.time = time := by
  have htime : BitVec.ofNat 72 time.toNat = time := by rw [BitVec.ofNat_toNat, BitVec.setWidth_eq]
  by_cases h3 : s.sourceKind b = 3
  · obtain ⟨hc, ht, _⟩ := State.measure_unset hk hst time.toNat loc.toNat gap 0
    refine ⟨s.measure b time.toNat loc.toNat gap 0, ?_, hc, ht.trans htime⟩
    change execSourceMeasurement b time loc gap s = _
    unfold execSourceMeasurement
    rw [hm, Bool.not_true, if_neg Bool.false_ne_true, if_pos (.inr h3)]
  · obtain ⟨hsd, hp, hr, _⟩ := s.servoTake_spec b ((loc.toNat : Int) - time.toNat)
    obtain ⟨hc, ht, _⟩ := State.measure_unset (s := (s.servoTake b ((loc.toNat : Int) - time.toNat)).1)
      (by rwa [State.sourceKind_congr hp hr]) (by rwa [hsd]) time.toNat loc.toNat gap
      ((s.servoOf b).1.next (s.param 12 0 100) (s.servoOf b).2 ((loc.toNat : Int) - time.toNat)).2
    exact ⟨_, exec_sourceMeasurement_servo hk h3 hm time loc gap, hc, ht.trans htime⟩

/-! ### A source falls silent (R64, R66) -/

theorem exec_sourceLoss_selected {s : State} {b : Bool} (hs : (s.h.sd.source b).seen = true) (h : s.chosen = (.locked, b)) :
    ∃ t, exec (.sourceLoss b) s = .next t ∧
      t.chosen = if (s.h.sd.source (!b)).qualified then (.locked, !b) else (.holdover, b) := by
  refine ⟨s.loseSelected, ?_, State.loseSelected_chosen h⟩
  obtain ⟨hst, hw⟩ := State.chosen_eq_iff.1 h
  change execSourceLoss b s = _
  simp [execSourceLoss, hs, hw, hst]

theorem exec_sourceLoss_other {s : State} {b : Bool} (hs : (s.h.sd.source b).seen = true) (hw : s.h.sd.g.which ≠ b) :
    ∃ t, exec (.sourceLoss b) s = .next t ∧ t.h.sd.g = s.h.sd.g ∧ (t.h.sd.source b).qualified = false := by
  refine ⟨_, (?_ : execSourceLoss b s = .next (s.updSd fun x => x.setSource b { x.source b with seen := false, runMs := 0, qualified := false })),
    ?_, ?_⟩
  · simp [execSourceLoss, hs, hw]
  · simp
  · simp

/-! ### The pulses (R63, R490) -/

theorem State.ppsFor_of_other {s : State} {b : Bool} (h : s.sourceKind b ≠ 3) (loc : Nat) : s.ppsFor b loc = s := by
  unfold State.ppsFor
  rw [if_pos h]

/-- The first edge after a write of SD_SET_LO takes the seconds written. -/
theorem State.ppsFor_first {s : State} {b : Bool} (hk : s.sourceKind b = 3) (hr : s.h.sd.running = true)
    (ht : s.h.sd.secondsTaken = false) (loc : Nat) :
    ∃ gap, s.ppsFor b loc = (s.updSd fun x => { x with secondsTaken := true }).measure b (nearestSecond s.h.sd.setTaken.toNat) loc gap 0 := by
  unfold State.ppsFor
  simp only [hk, hr, ht, ne_eq, not_true_eq_false, if_false, Bool.false_eq_true, Bool.not_true]
  exact ⟨_, rfl⟩

theorem exec_ppsEdge_first {s : State} (hst : s.h.sd.g.st = .unset) (hk : s.sourceKind false = 3) (hk2 : s.sourceKind true ≠ 3)
    (hr : s.h.sd.running = true) (ht : s.h.sd.secondsTaken = false) (loc : Pair) :
    ∃ t, exec (.ppsEdge loc) s = .next t ∧ t.h.sd.g.st = .acquiring ∧ t.h.sd.secondsTaken = true ∧
      t.h.sd.g.time = BitVec.ofNat 72 (nearestSecond s.h.sd.setTaken.toNat) := by
  have hk0 : s.sourceKind false ≠ 0 := by simp [hk]
  refine ⟨_, rfl, ?_⟩
  obtain ⟨gap, hg⟩ := State.ppsFor_first hk hr ht ((loc.toNat : Int) - s.delayNs 3 0).toNat
  obtain ⟨hc, htime, hsec, hkind⟩ := State.measure_unset (s := s.updSd fun x => { x with secondsTaken := true }) (b := false)
    hk0 hst (nearestSecond s.h.sd.setTaken.toNat) ((loc.toNat : Int) - s.delayNs 3 0).toNat gap 0
  rw [hg, State.ppsFor_of_other (by rwa [hkind])]
  exact ⟨(State.chosen_eq_iff.1 hc).1, hsec, htime⟩

theorem exec_ppsEdge_of_other {s : State} (h1 : s.sourceKind false ≠ 3) (h2 : s.sourceKind true ≠ 3) (loc : Pair) :
    exec (.ppsEdge loc) s = .next s := by
  change Host.Outcome.next ((s.ppsFor false _).ppsFor true _) = _
  rw [State.ppsFor_of_other h1, State.ppsFor_of_other h2]

theorem exec_ppsOutPulse (s : State) : exec .ppsOutPulse s = .next
    (if s.h.sd.g.st = .unset ∨ s.h.sd.g.time.toNat + s.h.sd.g.tickNs ≤ ceilDiv s.h.sd.g.time.toNat 1000000000 * 1000000000 then s
      else s.emit .pps) := rfl

/-! ### Admission and ORIGIN (R66, R72, R491) -/

theorem State.startHorizons_sd (s : State) : ∃ hub seen, s.startHorizons.h.sd = { s.h.sd with hzHub := hub, hzSeen := seen } := by
  unfold State.startHorizons
  dsimp only
  rw [iter_h]
  · exact ⟨_, _, rfl⟩
  · intro d x
    split <;> rfl

/-- Admission that opens shows ADMIT_OPEN and starts the Horizons; the rest of the Sundial stays. -/
theorem State.openAdmission_sd (s : State) : ∃ hub seen, s.openAdmission.h.sd = { s.h.sd with
    g := { s.h.sd.g with admitOpen := true }, opened := true, hzHub := hub, hzSeen := seen } := by
  unfold State.openAdmission
  dsimp only
  rw [iter_h]
  · obtain ⟨hub, seen, h⟩ := State.startHorizons_sd (iter 16 (fun p x => x.updPartn p fun q =>
      { q with sealed := epochPrev s.h.sd.g.epoch, released := epochPrev s.h.sd.g.epoch, visible := epochPrev s.h.sd.g.epoch })
      ((s.updSd fun x => { x with g := { x.g with admitOpen := true }, opened := true }).updPwr fun p =>
        { p with st := if p.st = .dawn then .noon else p.st, bootStep := 6 }))
    rw [h, iter_h]
    · exact ⟨_, _, rfl⟩
    · exact fun _ _ => rfl
  · exact fun _ _ => rfl

theorem State.tryAdmission_sd (s : State) : ∃ o p hub seen, s.tryAdmission.h.sd = { s.h.sd with
    g := { s.h.sd.g with admitOpen := o }, opened := p, hzHub := hub, hzSeen := seen } := by
  unfold State.tryAdmission
  dsimp only
  split
  · obtain ⟨hub, seen, h⟩ := s.openAdmission_sd
    exact ⟨_, _, hub, seen, h⟩
  · exact ⟨_, _, _, _, rfl⟩

theorem exec_originReached {s : State} (hst : s.h.sd.g.st ≠ .unset) (hb : s.h.sd.g.beforeOrigin = true) :
    ∃ t, exec .originReached s = .next t ∧ t.h.sd.g.beforeOrigin = false ∧ t.h.sd.g.tick = 0 ∧ t.h.sd.g.era = 0 ∧
      t.h.sd.g.time = BitVec.ofNat 72 (s.h.sd.g.origin * 1000000000) := by
  refine ⟨_, rfl, ?_⟩
  rw [if_neg (by simp [hst, hb])]
  obtain ⟨_, _, _, _, h⟩ := State.tryAdmission_sd (State.setTick (s.updSd fun x =>
    { x with g := { x.g with time := BitVec.ofNat 72 x.g.originNs, beforeOrigin := false }, edgeStep := 1 }) 0)
  rw [h, State.setTick_h]
  exact ⟨rfl, rfl, rfl, rfl⟩

/-! ### Timers (R66, R69) -/

theorem exec_lockWaitExpiry {s : State} (he : s.h.plan.eff.isSome = true) (hr : s.h.sd.lockReported = false)
    (ho : s.h.sd.opened = false) (hl : s.h.sd.g.st ≠ .locked) (hf : s.h.sd.g.st ≠ .free) :
    ∃ t, exec .lockWaitExpiry s = .next t ∧ t.h.sd.lockReported = true ∧ t.h.elCount = s.h.elCount + 1 := by
  have hn : s.h.plan.eff.isNone = false := by rw [← Option.not_isSome, he]; rfl
  refine ⟨_, rfl, ?_⟩
  simp only [hn, hr, ho, hl, hf, Bool.false_eq_true, false_or, if_false, State.sdError_elCount]
  obtain ⟨e, h⟩ := State.sdError_sd (s.updSd fun x => { x with lockReported := true }) 7 0
  rw [h]
  exact ⟨rfl, rfl⟩

theorem exec_holdLimitExpiry {s : State} (hst : s.h.sd.g.st = .holdover) (hl : s.paramN 13 0 0 ≠ 0)
    (hr : s.h.sd.holdReported = false) (hms : s.paramN 13 0 0 * 1000 < s.h.sd.g.holdMs) :
    ∃ t, exec .holdLimitExpiry s = .next t ∧ t.h.sd.holdReported = true ∧ t.h.elCount = s.h.elCount + 1 := by
  refine ⟨_, rfl, ?_⟩
  simp only [hst, hl, hr, Nat.not_le.2 hms, ne_eq, not_true_eq_false, Bool.false_eq_true, or_self, if_false, State.sdError_elCount]
  obtain ⟨e, h⟩ := State.sdError_sd (s.updSd fun x => { x with holdReported := true }) 6 0
  rw [h]
  exact ⟨rfl, rfl⟩

/-! ### Register accesses (R104, R140) -/

theorem State.enterFree_sd (s : State) : s.enterFree.h.sd.running = s.h.sd.running ∧ s.enterFree.h.sd.g.setLo = s.h.sd.g.setLo := by
  unfold State.enterFree
  obtain ⟨_, _, _, _, _, _, h⟩ := s.enterSd_sd .free 0 false 0
  rw [State.updSdRegs, State.updSd_sd, h]
  exact ⟨rfl, rfl⟩

/-- Entering FREE goes on from the posting time that runs. -/
theorem State.tryFreeRun_sd (s : State) : s.tryFreeRun.h.sd.running = s.h.sd.running ∧ s.tryFreeRun.h.sd.g.setLo = s.h.sd.g.setLo ∧
    s.tryFreeRun.h.sd.g.time = s.h.sd.g.time := by
  unfold State.tryFreeRun
  dsimp only
  split
  · obtain ⟨_, _, _, _, h⟩ := s.enterFree.setTime_h s.h.sd.g.time
    rw [h]
    exact ⟨s.enterFree_sd.1, s.enterFree_sd.2, rfl⟩
  · exact ⟨rfl, rfl, rfl⟩

theorem exec_sdSetLoWrite_unset {s : State} (hst : s.h.sd.g.st = .unset) (v : Word) :
    ∃ t, exec (.sdSetLoWrite v) s = .next t ∧ t.h.sd.g.setLo = v ∧ t.h.sd.g.time = s.h.sd.g.setHi ++ v ∧ t.h.sd.running = true := by
  refine ⟨s.writeSetLo v, rfl, ?_⟩
  unfold State.writeSetLo
  rw [if_neg (not_not.2 hst)]
  obtain ⟨hr, hv, ht⟩ := State.tryFreeRun_sd (s.updSd fun x => { x with
    g := { x.g with setLo := v, time := Pair.mk x.g.setHi v }, setTaken := Pair.mk x.g.setHi v, running := true, secondsTaken := false })
  exact ⟨hv, ht, hr⟩

theorem exec_sdSetLoWrite_running {s : State} (hst : s.h.sd.g.st ≠ .unset) (v : Word) : exec (.sdSetLoWrite v) s = .next s := by
  change Host.Outcome.next (s.writeSetLo v) = _
  rw [State.writeSetLo, if_pos hst]

/-- A read of GRANT_MAX answers it and clears it. -/
theorem State.space2Read_grantMax (s : State) (p : PartId) : s.space2Read (4096 + 64 * p.val + 32) =
    (s.updPartn p fun q => { q with cnt := { q.cnt with grantMax := 0 } }, (s.partn p).cnt.grantMax) := by
  have hp := p.isLt
  have h1 : ¬ (s.h.pwr.st = .night ∧ 65536 ≤ 4096 + 64 * p.val + 32 ∧ 4096 + 64 * p.val + 32 < 163840) := by omega
  have h2 : ¬ 4096 + 64 * p.val + 32 < 4096 := by omega
  have h3 : 4096 + 64 * p.val + 32 < 8192 := by omega
  have h4 : (4096 + 64 * p.val + 32 - 4096) / 64 = p.val := by omega
  have h5 : (4096 + 64 * p.val + 32) % 64 / 4 = 8 := by omega
  unfold State.space2Read
  rw [if_neg h1, if_neg h2, if_pos h3, h4, h5]
  dsimp only
  rw [if_neg (by omega), if_pos rfl]
  rfl

theorem exec_grantMaxRead (s : State) (p : PartId) : exec (.grantMaxRead p) s =
    .next ((s.updPartn p fun q => { q with cnt := { q.cnt with grantMax := 0 } }).emit
      (.completion [(s.partn p).cnt.grantMax.zeroExtend 64] false)) := by
  change execGrantMaxRead p s = _
  unfold execGrantMaxRead
  rw [State.space2Read_grantMax]

/-- A write of the last violation's record of a gate. -/
theorem State.space2Write_gate (s : State) {n : Nat} (hn : n < 64) (v : Word) : s.space2Write (8192 + 64 * n) v =
    if v.msb then s.updGate n fun x => { x with status := 0, source := 0, addrHi := 0, addrLo := 0, stamp := 0 } else s := by
  have h1 : ¬ (s.h.pwr.st = .night ∧ 65536 ≤ 8192 + 64 * n ∧ 8192 + 64 * n < 163840) := by omega
  have h2 : (8192 + 64 * n) % 64 = 0 := by omega
  have h3 : (8192 + 64 * n - 8192) / 64 = n := by omega
  unfold State.space2Write
  rw [if_neg h1, if_neg (by omega), if_neg (by omega), if_neg (by omega), if_pos (by omega), h3]
  simp only [h2, true_and]
  rfl

/-- A write of the diagnostic selector of a core. -/
theorem State.space2Write_diag {s : State} {c : Nat} (hc : c < 512) (hp : s.h.pwr.st ≠ .night) (v : Word) :
    s.space2Write (131072 + 64 * c + 8) v = s.updCore c fun k => { k with diagSel := BitVec.ofNat 36 (min v.toNat 57) } := by
  have h1 : (131072 + 64 * c + 8) % 64 / 4 = 2 := by omega
  have h2 : (131072 + 64 * c + 8 - 131072) / 64 = c := by omega
  unfold State.space2Write
  rw [if_neg (fun h => hp h.1), if_neg (by omega), if_neg (by omega), if_neg (by omega), if_neg (by omega), if_neg (by omega),
    if_pos (by omega), if_pos h1, h2]
  rfl

theorem State.space2Write_sdErr (s : State) (v : Word) :
    s.space2Write 64 v = if v.msb then s.updSdRegs fun g => { g with err := 0 } else s := by
  unfold State.space2Write
  simp only [Nat.reduceLeDiff, false_and, and_false, if_false, Nat.reduceEqDiff, if_true]
  rfl

theorem State.space2Write_setLo (s : State) (v : Word) : s.space2Write 60 v = s.writeSetLo v := by
  unfold State.space2Write
  simp only [Nat.reduceLeDiff, false_and, and_false, if_false, Nat.reduceEqDiff, if_true]

/-! ### The obligation -/

/-- Settles O53: each clause is what one command does to the Sundial or to a register. -/
theorem sundialAndRegisters : Obligations.SundialAndRegisters := by
  intro s b time loc gap v g off run
  refine ⟨?unused, ?unpowered, ?unset, ?locked, ?loss, ?pps, exec_ppsEdge_of_other (s := s) (loc := loc), ?pulse, exec_originReached,
    exec_lockWaitExpiry, exec_holdLimitExpiry, fun h => exec_sdSetLoWrite_unset h v, fun h => exec_sdSetLoWrite_running h v,
    ?grantMax, fun _ _ _ _ => rfl, congrArg Host.Outcome.next (s.space2Write_sdErr v),
    congrArg Host.Outcome.next (s.space2Write_setLo v), fun n hn => congrArg Host.Outcome.next (s.space2Write_gate hn v),
    fun c hc hp => congrArg Host.Outcome.next (State.space2Write_diag hc hp v)⟩
  case unused =>
    intro hk
    change execSourceMeasurement b time loc gap s = _
    simp [execSourceMeasurement, hk, State.measure_of_unused hk]
  case unpowered =>
    intro hm
    change execSourceMeasurement b time loc gap s = _
    simp [execSourceMeasurement, hm]
  case unset =>
    intro hst hk hm
    obtain ⟨t, he, hc, ht⟩ := exec_sourceMeasurement_unset hst hk hm time loc gap
    obtain ⟨hst', hw⟩ := State.chosen_eq_iff.1 hc
    exact ⟨t, he, hst', hw, ht⟩
  case locked =>
    intro hst hw hk h3 hm
    have hc : s.chosen = (.locked, b) := State.chosen_eq_iff.2 ⟨hst, hw⟩
    refine ⟨?_, fun hj hq => ?_, fun hj hq => ?_⟩
    · rintro rfl ho hj
      obtain ⟨t, err, he, hg⟩ := exec_sourceMeasurement_locked hk h3 hm hc ho hj gap
      have hneg : -off = loc.toNat - time.toNat := Int.neg_sub _ _
      refine ⟨t, he, ?_⟩
      dsimp only
      rw [hg, hneg]
      exact ⟨hst, hw, rfl, rfl, rfl, rfl⟩
    · obtain ⟨t, he, ht⟩ := exec_sourceMeasurement_chosen hk h3 hm hc hj gap
      rw [if_neg (by simp [hq])] at ht
      exact ⟨t, he, State.chosen_eq_iff.1 ht⟩
    · obtain ⟨t, he, ht⟩ := exec_sourceMeasurement_chosen hk h3 hm hc hj gap
      rw [if_pos hq] at ht
      exact ⟨t, he, State.chosen_eq_iff.1 ht⟩
  case loss =>
    intro hs hst
    refine ⟨fun hw hq => ?_, fun hw hq => ?_, exec_sourceLoss_other hs⟩
    · obtain ⟨t, he, ht⟩ := exec_sourceLoss_selected hs (State.chosen_eq_iff.2 ⟨hst, hw⟩)
      rw [if_neg (by simp [hq])] at ht
      exact ⟨t, he, (State.chosen_eq_iff.1 ht).1⟩
    · obtain ⟨t, he, ht⟩ := exec_sourceLoss_selected hs (State.chosen_eq_iff.2 ⟨hst, hw⟩)
      rw [if_pos hq] at ht
      exact ⟨t, he, State.chosen_eq_iff.1 ht⟩
  case pps => exact fun hst hk hk2 hr ht => exec_ppsEdge_first hst hk hk2 hr ht loc
  case pulse =>
    refine ⟨fun hst hlt => ?_, fun h => ?_⟩
    · rw [exec_ppsOutPulse, if_neg (not_or.2 ⟨hst, Nat.not_le.2 hlt⟩)]
    · rw [exec_ppsOutPulse, if_pos h]
  case grantMax =>
    exact fun p => ⟨_, exec_grantMaxRead s p, rfl, by simp [State.emit, State.partn, State.updPartn, State.setPartn]⟩

end Sys2Proof.Machine
end

section
/-! SUPPORT for O51 and O52: what the memory, the slots and the mirror port leave alone of the order, and lists kept in order. -/

namespace Sys2Proof.Machine

/-! ### The order and the units beside it -/

/-- The Sundial and the partitions as the hub holds them. -/
def State.order (s : State) : Sundial × Sparse Partition := (s.h.sd, s.u.parts)

theorem State.sd_of_order {s t : State} (h : t.order = s.order) : t.h.sd = s.h.sd := congrArg Prod.fst h

theorem State.partn_of_order {s t : State} (h : t.order = s.order) (p : Nat) : t.partn p = s.partn p :=
  congrArg (fun x : Sundial × Sparse Partition => Sparse.get Partition.reset x.2 p) h

@[simp] theorem State.updDie_order (s : State) (d : Nat) (f : Die → Die) : (s.updDie d f).order = s.order := rfl
@[simp] theorem State.updPort_order (s : State) (n : Nat) (f : Port → Port) : (s.updPort n f).order = s.order := rfl
@[simp] theorem State.updCore_order (s : State) (n : Nat) (f : Core → Core) : (s.updCore n f).order = s.order := rfl
@[simp] theorem State.updMirror_order (s : State) (f : Mirror → Mirror) : (s.updMirror f).order = s.order := rfl
@[simp] theorem State.post_order (s : State) (m : Msg) : (s.post m).order = s.order := rfl
@[simp] theorem State.emit_order (s : State) (o : Sent) : (s.emit o).order = s.order := rfl
@[simp] theorem State.setSlot_order (s : State) (d n : Nat) (v : Slot) : (s.setSlot d n v).order = s.order := rfl
@[simp] theorem State.setLineInfo_order (s : State) (d l : Nat) (m : LineMeta) : (s.setLineInfo d l m).order = s.order := rfl
@[simp] theorem State.skipHeld_order (s : State) (d l : Nat) : (s.skipHeld d l).order = s.order := rfl
@[simp] theorem State.putLine_order (s : State) (d l : Nat) (c : List Chr) (m : LineMeta) : (s.putLine d l c m).order = s.order := rfl

@[simp] theorem State.logErr_order (s : State) (code sev die : Nat) (hub : Bool) (part unit : Nat) (w2 w3 : Word) :
    (s.logErr code sev die hub part unit w2 w3).order = s.order := by
  rw [State.order, State.logErr_sd, State.logErr_u, State.order]

theorem foldl_order {α : Type} {f : State → α → State} (h : ∀ s a, (f s a).order = s.order) (l : List α) (s : State) :
    (l.foldl f s).order = s.order := foldl_keeps State.order h l s

theorem iter_order {f : Nat → State → State} (h : ∀ n s, (f n s).order = s.order) (n : Nat) (s : State) :
    (iter n f s).order = s.order := iter_keeps State.order h n s

/-! ### Errors of the memory and repairs -/

@[simp] theorem State.correctedArea_order (s : State) (d row : Nat) (at_ : List (Nat × Nat)) :
    (s.correctedArea d row at_).order = s.order :=
  foldl_order (fun x c => by rw [State.updDie_order, State.logErr_order]) at_ s

@[simp] theorem State.areaLost_order (s : State) (d row part code : Nat) : (s.areaLost d row part code).order = s.order :=
  State.logErr_order _ _ _ _ _ _ _ _ _

@[simp] theorem State.poisonKept_order (s : State) (d l : Nat) : (s.poisonKept d l).order = s.order := by
  simp [State.poisonKept]

@[simp] theorem State.askPartner_order (s : State) (d l e : Nat) : (s.askPartner d l e).order = s.order := by
  unfold State.askPartner
  split <;> rfl

@[simp] theorem State.sendMirrorOn_order (s : State) (n dst : Nat) (body : MPayload) : (s.sendMirrorOn n dst body).order = s.order := by
  unfold State.sendMirrorOn
  split <;> rfl

@[simp] theorem State.sendMirror_order (s : State) (dst : Nat) (body : MPayload) : (s.sendMirror dst body).order = s.order :=
  s.sendMirrorOn_order _ _ _

@[simp] theorem State.startRepair_order (s : State) (d l : Nat) : (s.startRepair d l).order = s.order := by
  unfold State.startRepair
  split
  · exact s.poisonKept_order d l
  · dsimp only
    split
    · split
      · rw [State.askPartner_order, State.updDie_order]
      · split
        · exact s.poisonKept_order d l
        · rw [State.sendMirror_order, State.updDie_order, State.updMirror_order]
    · exact s.poisonKept_order d l

@[simp] theorem State.restoreFrom_order (s : State) (d : Nat) (g : Image) : (s.restoreFrom d g).order = s.order := by
  unfold State.restoreFrom
  split
  · rfl
  · rw [State.putLine_order, State.correctedArea_order]
  · rw [State.startRepair_order, State.setLineInfo_order, State.areaLost_order]

/-! ### Dies read through a view -/

/-- What a change of a die leaves alone of it is as before in every die. -/
theorem State.updDie_view {β : Type} (view : Die → β) {f : Die → Die} (hf : ∀ e, view (f e) = view e) (s : State) (d e : Nat) :
    view ((s.updDie d f).die e) = view (s.die e) := by
  rw [State.updDie_die]
  split
  next h => rw [hf, h]
  next => rfl

theorem iter_succ {α : Type} (n : Nat) (f : Nat → α → α) (a : α) : iter (n + 1) f a = f n (iter n f a) := by
  simp [iter, List.range_succ]

/-- A run over the dies whose step d changes die d only, and nothing of the hub. -/
theorem iter_die {f : Nat → State → State} {g : Nat → Die → Die} {s : State} (hh : ∀ d x, (f d x).h = x.h)
    (hf : ∀ d x e, x.h = s.h → (f d x).die e = if e = d then g d (x.die d) else x.die e) (n e : Nat) :
    (iter n f s).die e = if e < n then g e (s.die e) else s.die e := by
  induction n generalizing e with
  | zero => rfl
  | succ n ih =>
    rw [iter_succ, hf _ _ _ (iter_h hh n s)]
    by_cases he : e = n
    · subst he
      rw [if_pos rfl, ih, if_neg (Nat.lt_irrefl e), if_pos (Nat.lt_succ_self e)]
    · rw [if_neg he, ih]
      exact if_congr (by omega) rfl rfl

/-! ### Slots that are freed (R135) -/

/-- The state but for its dies. -/
def State.beyondDies (s : State) : State := { s with u := { s.u with dies := [] } }

theorem State.freeSlot_beyondDies (s : State) (d n : Nat) : (s.freeSlot d n).beyondDies = s.beyondDies := by
  unfold State.freeSlot
  dsimp only
  split <;> rfl

theorem State.tryFree_cases (s : State) (d n : Nat) : s.tryFree d n = s ∨ s.tryFree d n = s.freeSlot d n := by
  unfold State.tryFree
  dsimp only
  split
  · split <;> simp
  · split <;> simp
  · split <;> simp
  · split <;> simp
  · simp

@[simp] theorem State.tryFree_beyondDies (s : State) (d n : Nat) : (s.tryFree d n).beyondDies = s.beyondDies := by
  rcases s.tryFree_cases d n with h | h
  · rw [h]
  · rw [h, State.freeSlot_beyondDies]

/-- What a die shows of the order of epochs, its memory, and whether it is fenced. -/
def Die.epochView (e : Die) : Sparse Nat × Sparse (Option Nat) × DieMem × Bool := (e.o.visible, e.o.holding, e.m, e.fenced)

theorem Die.fenced_of_epochView {e f : Die} (h : e.epochView = f.epochView) : e.fenced = f.fenced := by
  injection h with _ h
  injection h with _ h
  injection h

theorem State.updDie_epochView {f : Die → Die} (s : State) (d e : Nat) (hf : ∀ e, (f e).epochView = e.epochView := by intro; rfl) :
    ((s.updDie d f).die e).epochView = (s.die e).epochView := State.updDie_view Die.epochView hf s d e

@[simp] theorem State.setSlot_epochView (s : State) (d n : Nat) (v : Slot) (e : Nat) :
    ((s.setSlot d n v).die e).epochView = (s.die e).epochView :=
  State.updDie_epochView s d e

theorem State.retype_epochView (s : State) (d p q v type e : Nat) : ((s.retype d p q v type).die e).epochView = (s.die e).epochView :=
  State.updDie_epochView s d e

theorem State.skipHead_epochView (s : State) (d p q e : Nat) : ((s.skipHead d p q).die e).epochView = (s.die e).epochView :=
  State.updDie_epochView s d e

@[simp] theorem State.retirePacket_epochView (s : State) (d p q v e : Nat) :
    ((s.retirePacket d p q v).die e).epochView = (s.die e).epochView :=
  (State.skipHead_epochView _ d p q e).trans (s.retype_epochView d p q v 3 e)

theorem State.freeSlot_epochView (s : State) (d n e : Nat) : ((s.freeSlot d n).die e).epochView = (s.die e).epochView := by
  unfold State.freeSlot
  dsimp only
  rw [State.setSlot_epochView]
  split
  · exact State.retirePacket_epochView _ _ _ _ _ _
  · rfl

@[simp] theorem State.tryFree_epochView (s : State) (d n e : Nat) : ((s.tryFree d n).die e).epochView = (s.die e).epochView := by
  rcases s.tryFree_cases d n with h | h
  · rw [h]
  · rw [h, State.freeSlot_epochView]

end Sys2Proof.Machine
end

section
/-! PROOF of O51: the tick edge and the actions that it schedules (R72, R75, R85, R88, R90, R91, R132, R133). -/

namespace Sys2Proof.Machine

/-! ### The tick edge (R72) -/

theorem ofNat_unwrapped_succ (s : State) : BitVec.ofNat 48 (s.unwrapped + 1) = s.tick + 1 := by
  apply BitVec.eq_of_toNat_eq
  rw [BitVec.toNat_ofNat, BitVec.toNat_add, State.unwrapped]
  change _ = (s.tick.toNat + 1) % 2 ^ 48
  omega

theorem State.alive_congr {s t : State} {d : Nat} (hh : t.h.fuses = s.h.fuses) (hd : (t.die d).fenced = (s.die d).fenced) :
    t.alive d = s.alive d := by
  unfold State.alive State.present
  rw [hh, hd]

theorem State.holdTime_sd (s : State) : ∃ ms, s.holdTime.h.sd = { s.h.sd with g := { s.h.sd.g with holdMs := ms } } := by
  unfold State.holdTime
  rw [State.updSd_sd]
  split <;> exact ⟨_, rfl⟩

/-- The cores and clusters, and the tick that each die counts. -/
def State.clocked (s : State) (e : Nat) : Sparse Core × Sparse Cluster × BitVec 48 := (s.u.cores, s.u.clusters, (s.die e).o.tick)

theorem State.updDie_clocked {f : Die → Die} (s : State) (d e : Nat)
    (hf : ∀ z, (f z).o.tick = z.o.tick := by intro; rfl) : (s.updDie d f).clocked e = s.clocked e := by
  rw [State.clocked, State.updDie_view (fun z => z.o.tick) hf]
  rfl

theorem iter_clocked {e : Nat} {f : Nat → State → State} (h : ∀ n s, (f n s).clocked e = s.clocked e) (n : Nat) (s : State) :
    (iter n f s).clocked e = s.clocked e := iter_keeps (fun x => x.clocked e) h n s

theorem State.startHorizons_clocked (s : State) (e : Nat) : s.startHorizons.clocked e = s.clocked e := by
  unfold State.startHorizons
  rw [iter_clocked]
  · rfl
  · intro d x
    split
    · exact x.updDie_clocked d e
    · rfl

/-- Stated for any epoch c: the kernel must not compute with the one that admission sets. -/
theorem State.setVisible_clocked (s : State) (c d e : Nat) : (s.updDie d fun z => { z with o := { z.o with
    visible := (List.range 16).foldl (fun m p => Sparse.set 0 m p c) z.o.visible } }).clocked e = s.clocked e :=
  s.updDie_clocked d e

theorem State.openAdmission_clocked (s : State) (e : Nat) : s.openAdmission.clocked e = s.clocked e := by
  unfold State.openAdmission
  rw [iter_clocked, State.startHorizons_clocked, iter_clocked]
  · rfl
  · exact fun _ _ => rfl
  · exact fun d x => x.setVisible_clocked _ d e

theorem State.tryAdmission_clocked (s : State) (e : Nat) : s.tryAdmission.clocked e = s.clocked e := by
  unfold State.tryAdmission
  dsimp only
  split
  · exact s.openAdmission_clocked e
  · rfl

/-- Every participating die counts the tick and begins its actions. -/
def State.countTick (s : State) : State :=
  iter 8 (fun d x =>
    if x.alive d && (x.die d).member then
      x.updDie d fun e => { e with o := { e.o with tick := e.o.tick + 1, edgeStep := 1 } }
    else x) s

theorem State.countTick_h (s : State) : s.countTick.h = s.h := by
  refine iter_h ?_ 8 s
  intro d x
  split <;> rfl

theorem State.countTick_tick (s : State) {e : Nat} (he : e < 8) :
    (s.countTick.die e).o.tick = if s.alive e = true ∧ (s.die e).member = true then (s.die e).o.tick + 1 else (s.die e).o.tick := by
  have hdie := iter_die (s := s) (g := fun d z => if s.present d && !z.fenced && z.member then
    { z with o := { z.o with tick := z.o.tick + 1, edgeStep := 1 } } else z) (f := fun d x => if x.alive d && (x.die d).member then
      x.updDie d fun e => { e with o := { e.o with tick := e.o.tick + 1, edgeStep := 1 } } else x)
    (fun d x => by dsimp only; split <;> rfl) (fun d x e hx => ?_) 8 e
  · rw [State.countTick, hdie, if_pos he, State.alive]
    split <;> simp_all
  · have hp : x.present d = s.present d := by rw [State.present, hx]; rfl
    dsimp only
    rw [State.alive, hp]
    split
    · exact State.updDie_die _ _ _ _
    · split <;> simp_all

theorem State.countTick_units (s : State) : s.countTick.u.cores = s.u.cores ∧ s.countTick.u.clusters = s.u.clusters := by
  have h := iter_keeps (fun x => (x.u.cores, x.u.clusters)) (f := fun d x => if x.alive d && (x.die d).member then
      x.updDie d fun e => { e with o := { e.o with tick := e.o.tick + 1, edgeStep := 1 } } else x)
    (fun d x => by dsimp only; split <;> rfl) 8 s
  exact Prod.mk_inj.1 h

/-- The hub's part of an edge: posting time, tick, era and epoch of unwrapped tick u. -/
def Sundial.atTick (x : Sundial) (u : Nat) : Sundial :=
  { x with
    g := { x.g with
      time := BitVec.ofNat 72 (x.g.edgeOf u), tick := BitVec.ofNat 48 u, era := BitVec.ofNat 36 (u / 2 ^ 48),
      epoch := u / x.g.epochTicks % 2 ^ 72 },
    edgeStep := 1 }

/-- An edge at which the hub's part of the Sundial changes as f says. -/
def State.edge (s : State) (f : Sundial → Sundial) : State := (s.updSd f).countTick.holdTime.tryAdmission

/-- The hub's time since reset runs on with every edge (R326). -/
def State.ranOn (s : State) : State := s.updSd fun x => { x with ran := x.ran + x.g.tickNs }

theorem exec_tickEdge (s : State) :
    exec .tickEdge s = .next (if !s.ranOn.ticking then s.ranOn.runOn else s.ranOn.edge fun x => x.atTick (s.ranOn.unwrapped + 1)) := rfl

theorem State.edge_sd (s : State) (f : Sundial → Sundial) : ∃ ms o p hub seen, (s.edge f).h.sd = { f s.h.sd with
    g := { (f s.h.sd).g with holdMs := ms, admitOpen := o }, opened := p, hzHub := hub, hzSeen := seen } := by
  obtain ⟨o, p, hub, seen, h1⟩ := (s.updSd f).countTick.holdTime.tryAdmission_sd
  obtain ⟨ms, h2⟩ := (s.updSd f).countTick.holdTime_sd
  refine ⟨ms, o, p, hub, seen, ?_⟩
  rw [State.edge, h1, h2, State.countTick_h]
  rfl

theorem State.edge_clocked (s : State) (f : Sundial → Sundial) {e : Nat} (he : e < 8) : (s.edge f).clocked e = (s.u.cores,
    s.u.clusters, if s.alive e = true ∧ (s.die e).member = true then (s.die e).o.tick + 1 else (s.die e).o.tick) := by
  obtain ⟨hc, hl⟩ := (s.updSd f).countTick_units
  rw [State.edge, State.tryAdmission_clocked]
  exact Prod.ext hc (Prod.ext hl ((s.updSd f).countTick_tick he))

theorem exec_tickEdge_ticking {s : State} (h : s.ticking = true) : ∃ t, exec .tickEdge s = .next t ∧
    t.h.sd.g.tick = s.h.sd.g.tick + 1 ∧
    t.h.sd.g.time = BitVec.ofNat 72 (s.h.sd.g.origin * 1000000000 + (s.unwrapped + 1) * s.h.sd.g.tickNs) ∧
    t.h.sd.g.epoch = (s.unwrapped + 1) / s.h.sd.g.epochTicks % 2 ^ 72 ∧
    t.h.sd.g.era = BitVec.ofNat 36 ((s.unwrapped + 1) / 2 ^ 48) ∧ t.h.sd.edgeStep = 1 ∧
    (∀ e < 8, (t.die e).o.tick = if s.alive e = true ∧ (s.die e).member = true then (s.die e).o.tick + 1 else (s.die e).o.tick) ∧
    t.u.cores = s.u.cores ∧ t.u.clusters = s.u.clusters := by
  have hs : s.ranOn.ticking = true := h
  refine ⟨s.ranOn.edge _, (exec_tickEdge s).trans (by rw [hs]; rfl), ?_⟩
  have hu : s.ranOn.unwrapped = s.unwrapped := rfl
  obtain ⟨ms, o, p, hub, seen, hsd⟩ := s.ranOn.edge_sd fun x => x.atTick (s.ranOn.unwrapped + 1)
  have hclk (e : Nat) (he : e < 8) := s.ranOn.edge_clocked (fun x => x.atTick (s.ranOn.unwrapped + 1)) he
  rw [hsd, hu]
  refine ⟨ofNat_unwrapped_succ s, rfl, rfl, rfl, rfl, fun e he => ?_, ?_, ?_⟩
  · exact congrArg (fun x => x.2.2) (hclk e he)
  · exact congrArg (fun x => x.1) (hclk 0 (by decide))
  · exact congrArg (fun x => x.2.1) (hclk 0 (by decide))

/-- While no ticks are distributed an edge moves posting time only, where it runs. -/
theorem State.runOn_spec (s : State) : s.runOn.h.sd.g.tick = s.h.sd.g.tick ∧ s.runOn.u = s.u ∧ s.runOn.h.sd.g.time =
    if (s.h.sd.g.st = .unset ∧ s.h.sd.running = true) ∨
        (s.h.sd.g.st ≠ .unset ∧ s.h.sd.g.time.toNat + s.h.sd.g.tickNs < s.h.sd.g.originNs) then
      BitVec.ofNat 72 (s.h.sd.g.time.toNat + s.h.sd.g.tickNs) else s.h.sd.g.time := by
  unfold State.runOn
  dsimp only
  split
  next h => exact ⟨rfl, rfl, (if_pos (.inl h)).symm⟩
  next h =>
    split
    next h2 => exact ⟨rfl, rfl, (if_pos (.inr h2)).symm⟩
    next h2 => exact ⟨rfl, rfl, (if_neg (not_or.2 ⟨h, h2⟩)).symm⟩

theorem exec_tickEdge_waiting {s : State} (h : s.ticking = false) : ∃ t, exec .tickEdge s = .next t ∧
    t.h.sd.g.tick = s.h.sd.g.tick ∧ t.u = s.u ∧ t.h.sd.g.time =
      if (s.h.sd.g.st = .unset ∧ s.h.sd.running = true) ∨
          (s.h.sd.g.st ≠ .unset ∧ s.h.sd.g.time.toNat + s.h.sd.g.tickNs < s.h.sd.g.originNs) then
        BitVec.ofNat 72 (s.h.sd.g.time.toNat + s.h.sd.g.tickNs) else s.h.sd.g.time := by
  have hs : s.ranOn.ticking = false := h
  exact ⟨s.ranOn.runOn, (exec_tickEdge s).trans (by rw [hs]; rfl), s.ranOn.runOn_spec⟩

/-! ### The check of the dies' counters (R75) -/

theorem exec_tickCheck {s : State} {d : DieId} (ht : s.ticking = true) (ha : s.alive d = true) (hm : (s.die d).member = true) :
    exec (.tickCheck d) s = .next (if (s.die d).o.tick = s.h.sd.g.tick then s else (s.sdError 1 d).updDie d fun e =>
      { e with fenceDue := match e.fenceDue with | some c => some c | none => some .tickCheck }) := by
  change execTickCheck d s = _
  unfold execTickCheck
  simp only [ht, ha, hm, Bool.not_true, Bool.false_or, decide_eq_true_eq]
  rfl

theorem exec_tickCheck_differs {s : State} {d : DieId} (ht : s.ticking = true) (ha : s.alive d = true)
    (hm : (s.die d).member = true) (hne : (s.die d).o.tick ≠ s.h.sd.g.tick) : ∃ t, exec (.tickCheck d) s = .next t ∧
      (t.die d).fenceDue = some ((s.die d).fenceDue.getD .tickCheck) ∧ t.h.elCount = s.h.elCount + 1 := by
  refine ⟨_, (exec_tickCheck ht ha hm).trans (congrArg _ (if_neg hne)), ?_, s.sdError_elCount 1 d⟩
  rw [State.updDie_die, if_pos rfl, State.die, State.sdError_u]
  dsimp only [State.die]
  cases (Sparse.get Die.reset s.u.dies d).fenceDue <;> rfl

end Sys2Proof.Machine
end

section
/-! PROOF of O51: Curfew aborts and the stand-ins that depart (R90, R132, R133). -/

namespace Sys2Proof.Machine

/-! ### Curfew (R132) -/

theorem insertTxn_perm (t : GateTxn) (l : List GateTxn) : (insertTxn t l).Perm (t :: l) := by
  induction l with
  | nil => exact .refl _
  | cons x xs ih =>
    unfold insertTxn
    split
    · exact .refl _
    · exact (ih.cons x).trans (.swap t x xs)

theorem foldl_insertTxn_perm (l acc : List GateTxn) : (l.foldl (fun a t => insertTxn t a) acc).Perm (l ++ acc) := by
  induction l generalizing acc with
  | nil => exact .refl _
  | cons t l ih => exact (ih _).trans (((insertTxn_perm t acc).append_left l).trans List.perm_middle)

/-- The gate's record of a transaction once the one at a position is aborted by its Curfew. -/
def GateTxn.curfewAt (pos : Position) (t : GateTxn) : GateTxn := if t.pos = pos then { t with outcome := some .curfew } else t

/-- A stamp counts in the Sundial only. -/
theorem State.stamp_eq (s : State) (port : Nat) : ∃ seq tick, (s.stamp port).1 = s.updSd fun x => { x with seq := seq, seqTick := tick } :=
  ⟨_, _, rfl⟩

theorem State.decide_curfew (s : State) (p : Nat) (pos : Position) (epoch : Nat) :
    ((s.decide_ p pos epoch .curfew).partn p).txns = (s.partn p).txns.map (GateTxn.curfewAt pos) ∧
      ((s.decide_ p pos epoch .curfew).partn p).standins = (s.partn p).standins ∧
      (s.decide_ p pos epoch .curfew).h.sd.edgeStep = s.h.sd.edgeStep := by
  obtain ⟨seq, tick, h⟩ := State.stamp_eq (s.updPartn p fun q =>
    { q with txns := q.txns.map (GateTxn.curfewAt pos), cnt := q.cnt.decided .curfew }) 33
  have hd : s.decide_ p pos epoch .curfew = ((s.updPartn p fun q =>
      { q with txns := q.txns.map (GateTxn.curfewAt pos), cnt := q.cnt.decided .curfew }).stamp 33).1.logEvent p epoch 2
        ((s.updPartn p fun q => { q with txns := q.txns.map (GateTxn.curfewAt pos), cnt := q.cnt.decided .curfew }).stamp 33).2 pos [] := rfl
  rw [hd, h, State.logEvent, State.updPartn_partn, if_pos rfl, State.updPartn_h, State.updSd_sd, State.updPartn_h]
  have hp (f : Sundial → Sundial) (q : Partition → Partition) : ((s.updPartn p q).updSd f).partn p = q (s.partn p) :=
    (State.updPartn_partn _ _ _ _).trans (if_pos rfl)
  rw [hp]
  exact ⟨rfl, rfl, rfl⟩

@[simp] theorem State.noticeAll_order (s : State) (p : Nat) (pos : Position) (o : Outcome) :
    (s.noticeAll p pos o).order = s.order := by
  unfold State.noticeAll
  refine iter_order ?_ 8 s
  intro d x
  split
  · refine foldl_order ?_ _ _
    exact fun _ _ => rfl
  · rfl

@[simp] theorem State.clearDead_order (s : State) (t : GateTxn) : (s.clearDead t).order = s.order := by
  unfold State.clearDead
  split
  · rfl
  · refine iter_order ?_ 8 s
    intro d x
    dsimp only
    rw [State.updDie_order, foldl_order fun y g => y.restoreFrom_order d g]

/-- What the Curfew check does to a transaction that is due. -/
def State.curfewAbort (p : PartId) (s : State) (t : GateTxn) : State :=
  (((s.decide_ p t.pos t.epoch .curfew).noticeAll p t.pos .curfew).clearDead t).updPartn p fun q =>
    { q with standins := q.standins ++ [t] }

theorem State.curfewAbort_spec (p : PartId) (s : State) (t : GateTxn) :
    ((s.curfewAbort p t).partn p).txns = (s.partn p).txns.map (GateTxn.curfewAt t.pos) ∧
      ((s.curfewAbort p t).partn p).standins = (s.partn p).standins ++ [t] ∧
      (s.curfewAbort p t).h.sd.edgeStep = s.h.sd.edgeStep := by
  obtain ⟨ht, hs, he⟩ := s.decide_curfew p t.pos t.epoch
  have ho := (((s.decide_ p t.pos t.epoch .curfew).noticeAll p t.pos .curfew).clearDead_order t).trans (State.noticeAll_order _ _ _ _)
  unfold State.curfewAbort
  rw [State.updPartn_partn, if_pos rfl, State.partn_of_order ho, ht, hs, State.updPartn_h, State.sd_of_order ho, he]
  exact ⟨rfl, rfl, rfl⟩

/-- After the transactions of a list, those at their positions are aborted, and a stand-in waits for each. -/
theorem State.foldl_curfewAbort (p : PartId) (l : List GateTxn) (s : State) :
    ((l.foldl (State.curfewAbort p) s).partn p).txns =
        (s.partn p).txns.map (fun x => if x.pos ∈ l.map GateTxn.pos then { x with outcome := some .curfew } else x) ∧
      ((l.foldl (State.curfewAbort p) s).partn p).standins = (s.partn p).standins ++ l ∧
      (l.foldl (State.curfewAbort p) s).h.sd.edgeStep = s.h.sd.edgeStep := by
  induction l generalizing s with
  | nil => simp
  | cons t l ih =>
    obtain ⟨ht, hs, he⟩ := s.curfewAbort_spec p t
    obtain ⟨ht', hs', he'⟩ := ih (s.curfewAbort p t)
    rw [List.foldl_cons, ht', hs', he', ht, hs, he, List.map_map]
    refine ⟨List.map_congr_left fun x _ => ?_, by simp, rfl⟩
    by_cases hx : x.pos = t.pos <;> simp [GateTxn.curfewAt, hx]

theorem State.atStep_of_ticking {s : State} {n : Nat} (ht : s.ticking = true) (hn : s.h.sd.edgeStep ≤ n) (f : State → State) :
    s.atStep n f = f (s.updSd fun x => { x with edgeStep := n }) := by
  unfold State.atStep
  rw [if_pos (by simp [ht, hn])]

theorem exec_curfewCheck {s : State} {p : PartId} (ht : s.ticking = true) (hn : s.h.sd.edgeStep ≤ 2) (hu : s.up gateDomain 4 = true) :
    exec (.curfewCheck p) s = .next ((((s.partn p).txns.filter (s.curfewDue p)).foldl (fun l t => insertTxn t l) []).foldl
      (State.curfewAbort p) (s.updSd fun x => { x with edgeStep := 2 })) := by
  have hu' : (s.updSd fun x => { x with edgeStep := 2 }).up gateDomain 4 = true := hu
  refine (congrArg Host.Outcome.next (State.atStep_of_ticking ht hn _)).trans ?_
  dsimp only
  rw [hu']
  rfl

theorem exec_curfewCheck_aborts {s : State} {p : PartId} (ht : s.ticking = true) (hn : s.h.sd.edgeStep ≤ 2)
    (hu : s.up gateDomain 4 = true) : ∃ t, exec (.curfewCheck p) s = .next t ∧
      (∀ x ∈ (s.partn p).txns, s.curfewDue p x = true → ∀ y ∈ (t.partn p).txns, y.pos = x.pos → y.outcome = some .curfew) ∧
      (∀ x ∈ (s.partn p).txns, (∀ y ∈ (s.partn p).txns, s.curfewDue p y = true → y.pos ≠ x.pos) → x ∈ (t.partn p).txns) ∧
      (t.partn p).standins.length = (s.partn p).standins.length + ((s.partn p).txns.filter (s.curfewDue p)).length ∧
      t.h.sd.edgeStep = 2 := by
  refine ⟨_, exec_curfewCheck ht hn hu, ?_⟩
  have hperm := foldl_insertTxn_perm ((s.partn p).txns.filter (s.curfewDue p)) []
  rw [List.append_nil] at hperm
  obtain ⟨htx, hst, he⟩ := State.foldl_curfewAbort p (((s.partn p).txns.filter (s.curfewDue p)).foldl (fun l t => insertTxn t l) [])
    (s.updSd fun x => { x with edgeStep := 2 })
  have hmem (x : GateTxn) : x.pos ∈ (((s.partn p).txns.filter (s.curfewDue p)).foldl (fun l t => insertTxn t l) []).map GateTxn.pos ↔
      ∃ y ∈ (s.partn p).txns, s.curfewDue p y = true ∧ y.pos = x.pos := by
    rw [(hperm.map GateTxn.pos).mem_iff]
    simp [and_assoc]
  simp only [hmem] at htx
  rw [htx, hst, he]
  refine ⟨fun x hx hdue y hy hpos => ?_, fun x hx hfree => ?_, ?_, rfl⟩
  · obtain ⟨z, hz, rfl⟩ := List.mem_map.1 hy
    have hzpos : z.pos = x.pos := by
      split at hpos <;> exact hpos
    rw [if_pos ⟨x, hx, hdue, hzpos.symm⟩]
  · refine List.mem_map.2 ⟨x, hx, if_neg ?_⟩
    rintro ⟨y, hy, hdue, hpos⟩
    exact hfree y hy hdue hpos
  · rw [List.length_append, hperm.length_eq]
    rfl

/-! ### Stand-ins (R133) -/

theorem State.partn_of_beyondDies {s t : State} (h : t.beyondDies = s.beyondDies) (p : Nat) : t.partn p = s.partn p := by
  change t.beyondDies.partn p = s.beyondDies.partn p
  rw [h]

theorem State.h_of_beyondDies {s t : State} (h : t.beyondDies = s.beyondDies) : t.h = s.h := by
  change t.beyondDies.h = s.beyondDies.h
  rw [h]

@[simp] theorem State.markDeparted_beyondDies (s : State) (p : Nat) (pos : Position) : (s.markDeparted p pos).beyondDies = s.beyondDies := by
  unfold State.markDeparted
  refine iter_keeps State.beyondDies ?_ 8 s
  intro d x
  refine foldl_keeps State.beyondDies ?_ _ x
  intro y n
  rw [State.tryFree_beyondDies]
  rfl

@[simp] theorem State.sendLpt_order (s : State) (n prio part type : Nat) (retx : Bool) (sid seq tag : BitVec 32) (q : Peer)
    (body : List Octet) : (s.sendLpt n prio part type retx sid seq tag q body).order = s.order := by
  have hframe : (s.lptFrame n type retx sid seq tag q body).1.order = s.order := by
    unfold State.lptFrame
    dsimp only
    split <;> rfl
  unfold State.sendLpt State.queueOut
  dsimp only
  split
  · exact hframe
  · exact hframe

/-- The state once the oldest stand-in of p has left the list. -/
def State.standinTaken (s : State) (p : PartId) (x : GateTxn) (l : List GateTxn) : State :=
  (s.updPartn p fun q => { q with standins := l }).markDeparted p x.pos

theorem State.standinTaken_partn (s : State) (p : PartId) (x : GateTxn) (l : List GateTxn) :
    (s.standinTaken p x l).partn p = { s.partn p with standins := l } := by
  rw [State.standinTaken, State.partn_of_beyondDies (State.markDeparted_beyondDies _ _ _), State.updPartn_partn, if_pos rfl]

theorem State.standinTaken_h (s : State) (p : PartId) (x : GateTxn) (l : List GateTxn) : (s.standinTaken p x l).h = s.h :=
  (State.h_of_beyondDies (State.markDeparted_beyondDies _ _ _)).trans (State.updPartn_h _ _ _)

/-- A partition with one more stand-in counted. -/
def Partition.countStandin (q : Partition) : Partition := { q with cnt := { q.cnt with standin := q.cnt.standin + 1 } }

/-- The stand-in of an injection, for the host. -/
def standinResp (x : GateTxn) (body : List Octet) : HostResp :=
  { q := x.org.port + 2, outcome := 3, tag := x.org.tag.truncate 16, pos := x.pos, epoch := none, body := body }

theorem exec_standinResponse {s : State} {p : PartId} {x : GateTxn} {l : List GateTxn} (h : (s.partn p).standins = x :: l) :
    exec (.standinResponse p) s = .next (if x.org.host then
      ((s.standinTaken p x l).updHost fun z => { z with
        resp := Sparse.set [] z.resp p (Sparse.get [] z.resp p ++ [standinResp x (s.standinBody p x.octets)]) }).updPartn p
          Partition.countStandin
    else match (s.standinTaken p x l).servingPort p x.org.port with
      | none => s.standinTaken p x l
      | some n => (((s.standinTaken p x l).updPort n fun z => { z with cnt := { z.cnt with standins := z.cnt.standins + 1 } }).updPartn p
          Partition.countStandin).sendLpt n 1 0 5 false x.org.sid x.org.seq x.org.tag x.org.peer (s.standinBody p x.octets)) := by
  change execStandinResponse p s = _
  unfold execStandinResponse
  rw [h]
  rfl

theorem State.tandemOf_congr {s t : State} (h : t.h = s.h) (p : Nat) : t.tandemOf p = s.tandemOf p := by
  unfold State.tandemOf State.tandemPair State.param State.planPart
  rw [h]

theorem State.markDeparted_epochView (s : State) (p : Nat) (pos : Position) (e : Nat) :
    ((s.markDeparted p pos).die e).epochView = (s.die e).epochView := by
  unfold State.markDeparted
  refine iter_keeps (fun x => (State.die x e).epochView) ?_ 8 s
  intro d x
  refine foldl_keeps (fun x => (State.die x e).epochView) ?_ _ x
  intro y n
  exact (State.tryFree_epochView _ _ _ _).trans (State.setSlot_epochView _ _ _ _ _)

theorem State.standinTaken_epochView (s : State) (p : PartId) (x : GateTxn) (l : List GateTxn) (e : Nat) :
    ((s.standinTaken p x l).die e).epochView = (s.die e).epochView := State.markDeparted_epochView _ _ _ _

/-- The port that serves depends on the dies that live and on the pairs of the plan. -/
theorem State.standinTaken_servingPort (s : State) (p : PartId) (x : GateTxn) (l : List GateTxn) (q n : Nat) :
    (s.standinTaken p x l).servingPort q n = s.servingPort q n := by
  have hh := s.standinTaken_h p x l
  have halive (d : Nat) : (s.standinTaken p x l).alive d = s.alive d :=
    State.alive_congr (congrArg Hub.fuses hh) (Die.fenced_of_epochView (s.standinTaken_epochView p x l d))
  unfold State.servingPort
  simp only [halive, State.tandemOf_congr hh]

theorem State.updHost_partn (s : State) (f : HostIf → HostIf) (p : Nat) : (s.updHost f).partn p = s.partn p := rfl

theorem exec_standinResponse_leaves {s : State} {p : PartId} {x : GateTxn} {l : List GateTxn} (h : (s.partn p).standins = x :: l) :
    ∃ t, exec (.standinResponse p) s = .next t ∧ (t.partn p).standins = l ∧
      (x.org.host = true → ∃ r, Sparse.get [] t.h.host.resp p = Sparse.get [] s.h.host.resp p ++ [r] ∧ r.outcome = 3 ∧ r.pos = x.pos ∧
        r.body = s.standinBody p x.octets ∧ (t.partn p).cnt.standin = (s.partn p).cnt.standin + 1) ∧
      (x.org.host = false → (s.servingPort p x.org.port).isSome = true → (t.partn p).cnt.standin = (s.partn p).cnt.standin + 1) := by
  have hexec := exec_standinResponse h
  have hp := s.standinTaken_partn p x l
  have hh := s.standinTaken_h p x l
  rw [State.standinTaken_servingPort] at hexec
  generalize s.standinTaken p x l = y at hexec hp hh
  have hcount (z : State) (hz : z.partn p = y.partn p) :
      (z.updPartn p Partition.countStandin).partn p = Partition.countStandin { s.partn p with standins := l } := by
    rw [State.updPartn_partn, if_pos rfl, hz, hp]
  refine ⟨_, hexec, ?_⟩
  cases x.org.host with
  | true =>
    rw [if_pos rfl, hcount _ (State.updHost_partn _ _ _)]
    refine ⟨rfl, fun _ => ⟨standinResp x (s.standinBody p x.octets), ?_, rfl, rfl, rfl, rfl⟩, nofun⟩
    rw [State.updPartn_h]
    change Sparse.get [] (Sparse.set [] y.h.host.resp p _) p = _
    rw [Sparse.get_set_self, hh]
  | false =>
    rw [if_neg Bool.false_ne_true]
    cases s.servingPort p x.org.port with
    | none => exact ⟨by rw [hp], nofun, nofun⟩
    | some n =>
      dsimp only
      rw [State.partn_of_order (State.sendLpt_order _ _ _ _ _ _ _ _ _ _ _), hcount _ (State.updPort_partn _ _ _ _)]
      exact ⟨rfl, nofun, fun _ _ => rfl⟩

end Sys2Proof.Machine
end

section
/-! PROOF of O51: epochs are sealed and released; alarms (R88, R90, R91). -/

namespace Sys2Proof.Machine

/-! ### Sealing (R90, R91) -/

/-- The epoch up to which p is sealed. -/
def State.sealedOf (s : State) (p : Nat) : Nat := (s.partn p).sealed

theorem State.sealedOf_of_order {s t : State} (h : t.order = s.order) (p : Nat) : t.sealedOf p = s.sealedOf p := by
  rw [State.sealedOf, State.partn_of_order h, State.sealedOf]

theorem State.updPartn_sealedOf {f : Partition → Partition} (s : State) (p : Nat) (hf : ∀ q, (f q).sealed = q.sealed := by intro; rfl) :
    (s.updPartn p f).sealedOf p = s.sealedOf p := by
  rw [State.sealedOf, State.updPartn_partn, if_pos rfl, hf, State.sealedOf]

theorem State.readLog_sealedOf (s : State) (p e : Nat) : (s.readLog p e).sealedOf p = s.sealedOf p := by
  unfold State.readLog
  dsimp only
  split
  · rfl
  · exact (State.updPartn_sealedOf _ p).trans (State.sealedOf_of_order (State.correctedArea_order _ _ _ _) p)
  · exact (State.updPartn_sealedOf _ p).trans (State.sealedOf_of_order (State.areaLost_order _ _ _ _ _) p)

theorem State.shipTo_sealedOf (s : State) (p : PartId) (e dst : Nat) (pick : Nat → Bool) :
    (s.shipTo p e dst pick).sealedOf p = s.sealedOf p := by
  unfold State.shipTo
  split
  · rfl
  · refine Eq.trans (State.sealedOf_of_order (foldl_order ?_ _ _) p) (s.readLog_sealedOf p e)
    exact fun y x => y.sendMirror_order dst x.1

/-- Recording digests and shipping logs seals nothing. -/
theorem State.shipSealed_sealedOf (s : State) (p : PartId) : (s.shipSealed p).sealedOf p = s.sealedOf p := by
  unfold State.shipSealed
  refine foldl_keeps (fun x => State.sealedOf x p) ?_ _ s
  intro x e
  split
  · rfl
  · refine Eq.trans (foldl_keeps (fun x => State.sealedOf x p) ?_ _ _) (x.updPartn_sealedOf p)
    exact fun y i => y.shipTo_sealedOf p e i _

theorem State.takeDigests_sealedOf (s : State) (p : Nat) : (s.takeDigests p).sealedOf p = s.sealedOf p := by
  unfold State.takeDigests
  exact State.updPartn_sealedOf _ p

theorem State.sealFrom_of_unsealable {s : State} {p : Nat} (h : s.sealable p (epochNext (s.sealedOf p)) = false) (n : Nat) :
    s.sealFrom p n = s := by
  cases n with
  | zero => rfl
  | succ n =>
    unfold State.sealFrom
    exact if_neg (by rw [State.sealedOf] at h; rw [h]; exact Bool.false_ne_true)

theorem State.sealFrom_sealedOf {s : State} {p e : Nat} (he : epochNext (s.sealedOf p) = e) (h : s.sealable p e = true)
    (hn : (s.updPartn p fun z => { z with sealed := e }).sealable p (epochNext e) = false) {n : Nat} (h0 : 0 < n) :
    (s.sealFrom p n).sealedOf p = e := by
  obtain ⟨m, rfl⟩ := Nat.exists_eq_succ_of_ne_zero h0.ne'
  have hs : (s.updPartn p fun z => { z with sealed := e }).sealedOf p = e := by
    rw [State.sealedOf, State.updPartn_partn, if_pos rfl]
  unfold State.sealFrom
  rw [← State.sealedOf, he]
  dsimp only
  rw [if_pos h, State.sealFrom_of_unsealable (by rw [hs, hn]), hs]

/-- Epochs that the hub's Horizon has passed and that p has not sealed. -/
def State.sealDue (s : State) (p : Nat) : Nat := (s.epochOf s.hubHorizon + 1 + 2 ^ 72 - s.sealedOf p % 2 ^ 72) % 2 ^ 72

/-- The state in which the hub seals: its digests of p taken up. -/
def State.sealingState (s : State) (p : PartId) : State := (s.updSd fun z => { z with edgeStep := 3 }).takeDigests p

theorem State.sealingState_sealedOf (s : State) (p : PartId) : (s.sealingState p).sealedOf p = s.sealedOf p :=
  State.takeDigests_sealedOf _ p

theorem exec_epochSeal {s : State} {p : PartId} (ht : s.ticking = true) (hn : s.h.sd.edgeStep ≤ 3) (hs : s.sealing p = true)
    (hu : s.up gateDomain 4 = true) : exec (.epochSeal p) s = .next ((if (s.sealingState p).sealDue p < 2 ^ 71 then
      (s.sealingState p).sealFrom p ((s.sealingState p).sealDue p) else s.sealingState p).shipSealed p) := by
  have hs' : (s.updSd fun x => { x with edgeStep := 3 }).sealing p = true := hs
  have hu' : (s.updSd fun x => { x with edgeStep := 3 }).up gateDomain 4 = true := hu
  refine (congrArg Host.Outcome.next (State.atStep_of_ticking ht hn _)).trans ?_
  dsimp only
  rw [hs', hu']
  rfl

theorem exec_epochSeal_waits {s : State} {p : PartId} (ht : s.ticking = true) (hn : s.h.sd.edgeStep ≤ 3) (hs : s.sealing p = true)
    (hu : s.up gateDomain 4 = true) (h : (s.sealingState p).sealable p (epochNext (s.sealedOf p)) = false) :
    ∃ t, exec (.epochSeal p) s = .next t ∧ t.sealedOf p = s.sealedOf p := by
  refine ⟨_, exec_epochSeal ht hn hs hu, ?_⟩
  rw [State.shipSealed_sealedOf, State.sealFrom_of_unsealable (by rwa [State.sealingState_sealedOf]), ite_self,
    State.sealingState_sealedOf]

theorem exec_epochSeal_seals {s : State} {p : PartId} {e : Nat} (ht : s.ticking = true) (hn : s.h.sd.edgeStep ≤ 3)
    (hs : s.sealing p = true) (hu : s.up gateDomain 4 = true) (he : epochNext (s.sealedOf p) = e)
    (h : (s.sealingState p).sealable p e = true) (h0 : 0 < (s.sealingState p).sealDue p) (h1 : (s.sealingState p).sealDue p < 2 ^ 71)
    (hnext : ((s.sealingState p).updPartn p fun z => { z with sealed := e }).sealable p (epochNext e) = false) :
    ∃ t, exec (.epochSeal p) s = .next t ∧ t.sealedOf p = e := by
  refine ⟨_, exec_epochSeal ht hn hs hu, ?_⟩
  rw [State.shipSealed_sealedOf, if_pos h1, State.sealFrom_sealedOf (by rwa [State.sealingState_sealedOf]) h hnext h0]

/-! ### Releases (R91) -/

/-- Messages sent to the dies of a list are added behind those under way. -/
theorem foldl_post_eq (m : DieId → Msg) (l : List Nat) (s : State) : ∃ ms,
    l.foldl (fun x d => if h : d < 8 then x.post (m ⟨d, h⟩) else x) s = { s with msgs := s.msgs ++ ms } ∧
      ∀ d : DieId, d.val ∈ l → m d ∈ ms := by
  induction l generalizing s with
  | nil => exact ⟨[], by rw [List.append_nil]; rfl, nofun⟩
  | cons k l ih =>
    rw [List.foldl_cons]
    split
    next hk =>
      obtain ⟨ms, he, hm⟩ := ih (s.post (m ⟨k, hk⟩))
      refine ⟨m ⟨k, hk⟩ :: ms, by rw [he, State.post_msgs, List.append_assoc]; rfl, fun d hd => ?_⟩
      rcases List.mem_cons.1 hd with rfl | hd
      · exact List.mem_cons_self
      · exact List.mem_cons_of_mem _ (hm d hd)
    next hk =>
      obtain ⟨ms, he, hm⟩ := ih s
      refine ⟨ms, he, fun d hd => ?_⟩
      rcases List.mem_cons.1 hd with rfl | hd
      · exact absurd d.isLt hk
      · exact hm d hd

/-- The release of epoch e of p on its way to the dies. -/
theorem State.releaseFrom_step {s : State} {p : PartId} (hf : s.followers = []) {e : Nat} (he : epochNext (s.partn p).released = e)
    (hle : epochLe e (s.partn p).sealed = true) (n : Nat) : ∃ ms,
      s.releaseFrom p (n + 1) = ({ (s.updPartn p fun q => { q with released := e }) with msgs := s.msgs ++ ms } : State).releaseFrom p n ∧
        ∀ d : DieId, d.val ∈ s.members → Msg.release d p e ∈ ms := by
  obtain ⟨ms, hfold, hmem⟩ := foldl_post_eq (fun d => .release d p e) s.members (s.updPartn p fun q => { q with released := e })
  refine ⟨ms, ?_, hmem⟩
  rw [State.releaseFrom]
  dsimp only
  rw [he, hf, hle, List.all_nil, Bool.and_self, if_pos rfl]
  exact congrArg (fun x => State.releaseFrom x p n) hfold

theorem State.withMsgs_partn (s : State) (l : List Msg) (p : Nat) : ({ s with msgs := l } : State).partn p = s.partn p := rfl

/-- What is sealed and not yet released is released, epoch by epoch. -/
theorem State.releaseFrom_spec {p : PartId} (n : Nat) {s : State} (hf : s.followers = []) (hs : (s.partn p).sealed < 2 ^ 72)
    (hr : (s.partn p).released < 2 ^ 72) (hn : ((s.partn p).sealed + 2 ^ 72 - (s.partn p).released) % 2 ^ 72 = n) (h : n < 2 ^ 71) :
    ((s.releaseFrom p n).partn p).released = (s.partn p).sealed ∧
      ∀ d : DieId, d.val ∈ s.members → 0 < n ∨ Msg.release d p (s.partn p).sealed ∈ s.msgs →
        Msg.release d p (s.partn p).sealed ∈ (s.releaseFrom p n).msgs := by
  induction n generalizing s with
  | zero =>
    refine ⟨?_, fun d _ hm => hm.resolve_left (Nat.lt_irrefl 0)⟩
    change (s.partn p).released = _
    omega
  | succ n ih =>
    have hle : epochLe (epochNext (s.partn p).released) (s.partn p).sealed = true := by
      unfold epochLe epochNext
      rw [decide_eq_true_eq]
      omega
    have hlt : epochNext (s.partn p).released < 2 ^ 72 := Nat.mod_lt _ (by decide)
    have hdist : ((s.partn p).sealed + 2 ^ 72 - epochNext (s.partn p).released) % 2 ^ 72 = n := by
      unfold epochNext
      omega
    have hlast : n = 0 → epochNext (s.partn p).released = (s.partn p).sealed := by
      intro h0
      omega
    generalize he : epochNext (s.partn p).released = e at hle hlt hdist hlast
    obtain ⟨ms, hstep, hmem⟩ := State.releaseFrom_step hf he hle n
    generalize hx : ({ (s.updPartn p fun q => { q with released := e }) with msgs := s.msgs ++ ms } : State) = x at hstep
    have hxp : x.partn p = { s.partn p with released := e } := by
      rw [← hx]
      exact (State.withMsgs_partn _ _ _).trans ((State.updPartn_partn _ _ _ _).trans (if_pos rfl))
    have hxm : x.members = s.members := by rw [← hx]; rfl
    have hxf : x.followers = [] := by rw [← hx]; exact hf
    have hxs : (x.partn p).sealed = (s.partn p).sealed := by rw [hxp]
    obtain ⟨h1, h2⟩ := ih hxf (by rwa [hxs]) (by rwa [hxp]) (by rwa [hxp]) (by omega)
    rw [hstep]
    refine ⟨h1.trans hxs, fun d hd _ => ?_⟩
    rw [← hxs]
    refine h2 d (by rwa [hxm]) ?_
    rcases Nat.eq_zero_or_pos n with h0 | h0
    · right
      rw [hxs, ← hlast h0, ← hx]
      exact List.mem_append_right _ (hmem d hd)
    · exact .inl h0

/-- Epochs of p that are sealed and not released. -/
def State.releaseDue (s : State) (p : Nat) : Nat := ((s.partn p).sealed + 2 ^ 72 - (s.partn p).released % 2 ^ 72) % 2 ^ 72

theorem State.releaseDue_of_lt {s : State} {p : Nat} (hr : (s.partn p).released < 2 ^ 72) :
    s.releaseDue p = ((s.partn p).sealed + 2 ^ 72 - (s.partn p).released) % 2 ^ 72 := by
  rw [State.releaseDue, Nat.mod_eq_of_lt hr]

theorem exec_releaseLaunch (s : State) (p : PartId) : exec (.releaseLaunch p) s = .next (s.atStep 4 fun x =>
    if !x.sealing p || decide (2 ^ 71 ≤ x.releaseDue p) then x else x.releaseFrom p (x.releaseDue p)) := rfl

theorem exec_releaseLaunch_releases {s : State} {p : PartId} (ht : s.ticking = true) (hn : s.h.sd.edgeStep ≤ 4)
    (hs : s.sealing p = true) (hf : s.followers = []) (hse : (s.partn p).sealed < 2 ^ 72) (hr : (s.partn p).released < 2 ^ 72)
    (h : ((s.partn p).sealed + 2 ^ 72 - (s.partn p).released) % 2 ^ 72 < 2 ^ 71) :
    ∃ t, exec (.releaseLaunch p) s = .next t ∧ (t.partn p).released = (s.partn p).sealed ∧
      ∀ e : DieId, e.val ∈ s.members → 0 < ((s.partn p).sealed + 2 ^ 72 - (s.partn p).released) % 2 ^ 72 →
        Msg.release e p (s.partn p).sealed ∈ t.msgs := by
  obtain ⟨x, hx⟩ : ∃ x, x = s.updSd fun x => { x with edgeStep := 4 } := ⟨_, rfl⟩
  have hp : x.partn p = s.partn p := by rw [hx]; rfl
  have hm : x.members = s.members := by rw [hx]; rfl
  have hsx : x.sealing p = true := by rw [hx]; exact hs
  have hdue : x.releaseDue p = ((s.partn p).sealed + 2 ^ 72 - (s.partn p).released) % 2 ^ 72 := by
    rw [State.releaseDue_of_lt (by rwa [hp]), hp]
  obtain ⟨h1, h2⟩ := State.releaseFrom_spec (p := p) (x.releaseDue p) (s := x) (by rw [hx]; exact hf) (by rwa [hp]) (by rwa [hp])
    (by rw [hdue, hp]) (by rwa [hdue])
  refine ⟨x.releaseFrom p (x.releaseDue p), ?_, by rw [h1, hp], fun e he h0 => ?_⟩
  · rw [exec_releaseLaunch, State.atStep_of_ticking ht hn, ← hx, hsx, decide_eq_false (by rw [hdue]; exact Nat.not_le.2 h),
      Bool.not_true, Bool.or_self, if_neg Bool.false_ne_true]
  · rw [← hp]
    exact h2 e (by rwa [hm]) (.inl (by rwa [hdue]))

/-! ### Alarms (R88) -/

theorem State.dieStep_of_ticking {s : State} {d n : Nat} (ht : s.ticking = true) (ha : s.alive d = true)
    (hm : (s.die d).member = true) (hn : (s.die d).o.edgeStep ≤ n) (f : State → State) :
    s.dieStep d n f = f (s.updDie d fun e => { e with o := { e.o with edgeStep := n } }) := by
  unfold State.dieStep
  rw [if_pos (by simp [ht, ha, hm, hn])]

theorem exec_alarmFire {s : State} {c : CoreId} {w : Word} (hw : (s.core c).alarm = some w) (hr : (s.core c).running = true)
    (ht : s.ticking = true) (ha : s.alive (coreDie c) = true) (hm : (s.die (coreDie c)).member = true)
    (hn : (s.die (coreDie c)).o.edgeStep ≤ 5) : exec (.alarmFire c) s = .next (
      let x := s.updDie (coreDie c) fun e => { e with o := { e.o with edgeStep := 5 } }
      if ((x.die (coreDie c)).o.tick.truncate 36 - w : Word).toNat < 2 ^ 35 ∧ (x.core c).alarmTick ≠ some (x.die (coreDie c)).o.tick then
        (x.updCore c fun k => { k with alarm := none }).interrupt c .alarm
      else x) := by
  change execAlarmFire c s = _
  unfold execAlarmFire
  rw [hw]
  dsimp only
  rw [hr, Bool.not_true, if_neg Bool.false_ne_true, State.dieStep_of_ticking ht ha hm hn]

end Sys2Proof.Machine
end

section
/-! PROOF of O51: alarms that fire, and the statement. -/

namespace Sys2Proof.Machine

/-- Whether core c's alarm w is not ahead of the tick that its die counts. -/
def State.alarmLate (s : State) (c : CoreId) (w : Word) : Prop :=
  (BitVec.ofNat 36 (s.die (coreDie c)).o.tick.toNat - w).toNat < 2 ^ 35

theorem State.interrupt_core_alarm {s : State} {c : Nat} (i : Item) : ((s.interrupt c i).core c).alarm = (s.core c).alarm := by
  rw [State.interrupt, State.updCore_core, if_pos rfl]
  rfl

theorem State.interrupt_ipend {s : State} {c : Nat} (i : Item) :
    ((s.interrupt c i).regs c).sp.ipend = BitVec'.setAt (s.regs c).sp.ipend i.position true := by
  rw [State.interrupt, State.regs, State.updCore_core, if_pos rfl]
  rfl

theorem exec_alarmFire_fires {s : State} {c : CoreId} {w : Word} (hw : (s.core c).alarm = some w) (hr : (s.core c).running = true)
    (ht : s.ticking = true) (ha : s.alive (coreDie c) = true) (hm : (s.die (coreDie c)).member = true)
    (hn : (s.die (coreDie c)).o.edgeStep ≤ 5) (hl : s.alarmLate c w)
    (hne : (s.core c).alarmTick ≠ some (s.die (coreDie c)).o.tick) :
    ∃ t, exec (.alarmFire c) s = .next t ∧ (t.core c).alarm = none ∧
      (t.regs c).sp.ipend = BitVec'.setAt (s.regs c).sp.ipend Item.alarm.position true := by
  obtain ⟨x, hx⟩ : ∃ x, x = s.updDie (coreDie c) fun e => { e with o := { e.o with edgeStep := 5 } } := ⟨_, rfl⟩
  have htick : (x.die (coreDie c)).o.tick = (s.die (coreDie c)).o.tick := by rw [hx, State.updDie_die, if_pos rfl]
  have hc : x.core c = s.core c := by rw [hx]; rfl
  refine ⟨(x.updCore c fun k => { k with alarm := none }).interrupt c .alarm, ?_, ?_, ?_⟩
  · rw [exec_alarmFire hw hr ht ha hm hn, ← hx]
    dsimp only
    rw [htick, hc]
    exact congrArg _ (if_pos ⟨hl, hne⟩)
  · rw [State.interrupt_core_alarm, State.updCore_core, if_pos rfl]
  · rw [State.interrupt_ipend, State.regs, State.updCore_core, if_pos rfl, State.regs, ← hc]

theorem exec_alarmFire_early {s : State} {c : CoreId} {w : Word} (hw : (s.core c).alarm = some w) (hr : (s.core c).running = true)
    (ht : s.ticking = true) (ha : s.alive (coreDie c) = true) (hm : (s.die (coreDie c)).member = true)
    (hn : (s.die (coreDie c)).o.edgeStep ≤ 5) (hl : ¬ s.alarmLate c w) :
    ∃ t, exec (.alarmFire c) s = .next t ∧ t.u.cores = s.u.cores := by
  obtain ⟨x, hx⟩ : ∃ x, x = s.updDie (coreDie c) fun e => { e with o := { e.o with edgeStep := 5 } } := ⟨_, rfl⟩
  have htick : (x.die (coreDie c)).o.tick = (s.die (coreDie c)).o.tick := by rw [hx, State.updDie_die, if_pos rfl]
  refine ⟨x, ?_, by rw [hx]; rfl⟩
  rw [exec_alarmFire hw hr ht ha hm hn, ← hx]
  dsimp only
  rw [htick]
  exact congrArg _ (if_neg fun h => hl h.1)

/-- Settles O51: the edge counts and runs each scheduled action in its turn; an action for a state in which the ticks wait
changes nothing of the cores and dies. -/
theorem tickEdgeActions : Obligations.TickEdgeActions := by
  intro s d p c g u q
  refine ⟨exec_tickEdge_ticking, exec_tickEdge_waiting, fun ht ha hm => ⟨fun he => ?_, exec_tickCheck_differs ht ha hm⟩,
    exec_curfewCheck_aborts, fun x l => exec_standinResponse_leaves, ?_, fun ht hn hs hf hse hr => exec_releaseLaunch_releases ht hn hs hf hse hr,
    fun w hw hr ht ha hm hn => ⟨exec_alarmFire_fires hw hr ht ha hm hn, exec_alarmFire_early hw hr ht ha hm hn⟩⟩
  · rw [exec_tickCheck ht ha hm]
    exact congrArg _ (if_pos he)
  · intro ht hn hs hu x e n
    have hn' : (s.sealingState p).sealDue p = n := by rw [State.sealDue, State.sealingState_sealedOf]; rfl
    refine ⟨exec_epochSeal_waits ht hn hs hu, fun h h0 h1 hnext => exec_epochSeal_seals ht hn hs hu rfl h ?_ ?_ hnext⟩
    · rwa [hn']
    · rwa [hn']

end Sys2Proof.Machine
end

section
/-! PROOF of O52: releases become visible, on each die and at the hub (R92, R93). -/

namespace Sys2Proof.Machine

/-! ### A release reaches a die (R92) -/

/-- The releases of p that travel to die d. -/
def Msg.isEpochRelease (d : DieId) (p : PartId) : Msg → Bool
  | .release x q _ => decide (x = d) && decide (q = p)
  | _ => false

theorem exec_releaseReceive_holds {s : State} {d : DieId} {p : PartId} {e : Nat} {rest : List Msg}
    (hnone : Sparse.get none (s.die d).o.holding p = none) (ha : s.alive d = true)
    (h : takeMsg (Msg.isEpochRelease d p) [] s.msgs = some (.release d p e, rest)) :
    ∃ t, exec (.releaseReceive d p) s = .next t ∧ t.msgs = rest ∧ Sparse.get none (t.die d).o.holding p = some e ∧
      (t.die d).o.visible = (s.die d).o.visible := by
  have hna : ¬ (!({ s with msgs := rest } : State).alive d) = true := by simp [ha]
  refine ⟨_, congrArg Host.Outcome.next ((if_neg (by simp [hnone])).trans ((State.receive_of_takeMsg h _).trans (if_neg hna))),
    rfl, ?_, ?_⟩
  · rw [State.updDie_die, if_pos rfl]
    exact Sparse.get_set_self none (s.die d).o.holding p (some e)
  · rw [State.updDie_die, if_pos rfl]
    rfl

/-! ### The switch of a die (R92, R93) -/

theorem exec_visibleEpochSwitch {s : State} {d : DieId} {p : PartId} {e : Nat} (h : Sparse.get none (s.die d).o.holding p = some e) :
    exec (.visibleEpochSwitch d p) s = .next (if s.readsOut d p || s.changesOpen p e then s else s.switchVisible d p e) := by
  change execVisibleEpochSwitch d p s = _
  unfold execVisibleEpochSwitch
  rw [h]

/-- What is before the slots of die d are freed in a switch: the epochs turned over, held reads let go, the switch reported. -/
def State.switchBegun (s : State) (d : DieId) (p : PartId) (e : Nat) : State :=
  ({ (s.updDie d fun z => { z with o := { z.o with
      visible := Sparse.set 0 z.o.visible p e, holding := Sparse.set none z.o.holding p none } }) with
    accesses := s.accesses.map fun a => if coreDie a.core = d.val ∧ a.part = p then { a with held := false } else a } : State).post
      (.switched d p e)

theorem State.switchVisible_eq (s : State) (d : DieId) (p : PartId) (e : Nat) :
    ∃ l : List Nat, s.switchVisible d p e = l.foldl (fun x n => x.tryFree d n) (s.switchBegun d p e) := ⟨_, rfl⟩

theorem State.accesses_of_beyondDies {s t : State} (h : t.beyondDies = s.beyondDies) : t.accesses = s.accesses := by
  have h' := congrArg State.accesses h
  exact h'

theorem foldl_tryFree_beyondDies (d : Nat) (l : List Nat) (s : State) :
    (l.foldl (fun x n => x.tryFree d n) s).beyondDies = s.beyondDies :=
  foldl_keeps State.beyondDies (fun x n => x.tryFree_beyondDies d n) l s

theorem foldl_tryFree_epochView (d e : Nat) (l : List Nat) (s : State) :
    ((l.foldl (fun x n => x.tryFree d n) s).die e).epochView = (s.die e).epochView :=
  foldl_keeps (fun x => (State.die x e).epochView) (fun x n => x.tryFree_epochView d n e) l s

theorem State.switchBegun_epochView (s : State) (d : DieId) (p : PartId) (e : Nat) : ((s.switchBegun d p e).die d).epochView =
    (Sparse.set 0 (s.die d).o.visible p e, Sparse.set none (s.die d).o.holding p none, (s.die d).m, (s.die d).fenced) := by
  have h : (s.switchBegun d p e).die d = (s.updDie d fun z => { z with o := { z.o with
      visible := Sparse.set 0 z.o.visible p e, holding := Sparse.set none z.o.holding p none } }).die d := rfl
  rw [h, State.updDie_die, if_pos rfl]
  rfl

theorem State.switchBegun_held {s : State} {d : DieId} {p : PartId} {e : Nat} {a : Access} (ha : a ∈ (s.switchBegun d p e).accesses)
    (hd : coreDie a.core = d.val) (hp : a.part = p) : a.held = false := by
  obtain ⟨b, -, rfl⟩ := List.mem_map.1 ha
  by_cases hb : coreDie b.core = d.val ∧ b.part = p
  · rw [if_pos hb]
  · rw [if_neg hb] at hd hp
    exact absurd ⟨hd, hp⟩ hb

theorem exec_visibleEpochSwitch_switches {s : State} {d : DieId} {p : PartId} {e : Nat}
    (h : Sparse.get none (s.die d).o.holding p = some e) (hr : s.readsOut d p = false) (hc : s.changesOpen p e = false) :
    ∃ t, exec (.visibleEpochSwitch d p) s = .next t ∧ Sparse.get 0 (t.die d).o.visible p = e ∧
      Sparse.get none (t.die d).o.holding p = none ∧ Msg.switched d p e ∈ t.msgs ∧
      (∀ a ∈ t.accesses, coreDie a.core = d.val → a.part = p → a.held = false) ∧ (t.die d).m.mem = (s.die d).m.mem := by
  obtain ⟨l, hl⟩ := s.switchVisible_eq d p e
  have hb := foldl_tryFree_beyondDies d l (s.switchBegun d p e)
  have hv := (foldl_tryFree_epochView d d l (s.switchBegun d p e)).trans (s.switchBegun_epochView d p e)
  rw [← hl] at hb hv
  obtain ⟨t, ht⟩ : ∃ t, t = s.switchVisible d p e := ⟨_, rfl⟩
  rw [← ht] at hb hv
  simp only [Die.epochView, Prod.mk.injEq] at hv
  obtain ⟨hvis, hhold, hm, -⟩ := hv
  have hmsgs : t.msgs = s.msgs ++ [.switched d p e] := congrArg State.msgs hb
  have hacc : t.accesses = (s.switchBegun d p e).accesses := State.accesses_of_beyondDies hb
  refine ⟨t, ?_, ?_, ?_, ?_, ?_, ?_⟩
  · rw [exec_visibleEpochSwitch h, hr, hc, ht]
    exact congrArg _ (if_neg Bool.false_ne_true)
  · rw [hvis, Sparse.get_set_self]
  · rw [hhold, Sparse.get_set_self]
  · rw [hmsgs]
    exact List.mem_append_right _ (List.mem_singleton.2 rfl)
  · rw [hacc]
    exact fun a ha => State.switchBegun_held ha
  · rw [hm]

/-! ### The hub's switch (R93) -/

/-- What a die no longer needs once epoch e of p is visible. -/
def Die.forget (p e : Nat) (z : Die) : Die :=
  { z with
    m := { z.m with images := z.m.images.filter fun g => g.join || decide (g.part.val ≠ p) || !epochLe g.epoch e },
    digests := z.digests.filter fun g => decide (g.part.val ≠ p) || !epochLe g.epoch e,
    unordered := z.unordered.filter fun x => decide (x.1 % 16 ≠ p) || !epochLe (x.1 / 16) e }

/-- What the hub no longer needs of a partition once its epoch e is visible. -/
def Partition.forget (e : Nat) (q : Partition) : Partition :=
  { q with
    txns := q.txns.filter fun t => !epochLe t.epoch e || t.outcome.isNone,
    digests := q.digests.filter fun x => !epochLe x.2.1 e,
    logs := q.logs.filter fun x => !epochLe x.1 e || q.joinEpoch.isSome,
    sealedDigests := q.sealedDigests.filter fun x => !epochLe x.1 e || q.joinEpoch.isSome }

theorem State.forget_eq (s : State) (p e : Nat) :
    s.forget p e = (iter 8 (fun d x => x.updDie d (Die.forget p e)) s).updPartn p (Partition.forget e) := rfl

theorem State.forget_die (s : State) (p e n : Nat) : (s.forget p e).die n = if n < 8 then (s.die n).forget p e else s.die n := by
  rw [State.forget_eq, State.updPartn_die]
  refine iter_die (g := fun _ => Die.forget p e) ?_ ?_ 8 n
  · exact fun d x => x.updDie_h d (Die.forget p e)
  · intro d x k _
    exact State.updDie_die x d k _

theorem State.forget_partn (s : State) (p e : Nat) : (s.forget p e).partn p = (s.partn p).forget e := by
  have h : (iter 8 (fun d x => x.updDie d (Die.forget p e)) s).order = s.order :=
    iter_order (fun n x => x.updDie_order n (Die.forget p e)) 8 s
  rw [State.forget_eq, State.updPartn_partn, if_pos rfl, State.partn_of_order h]

theorem Die.forget_image {p e : Nat} {z : Die} {i : Image} (h : i ∈ (z.forget p e).m.images) (hj : i.join = false)
    (hp : i.part.val = p) : epochLe i.epoch e = false := by
  have h' := (List.mem_filter.1 h).2
  simpa [hj, hp] using h'

theorem Partition.forget_txn {e : Nat} {q : Partition} {x : GateTxn} (h : x ∈ (q.forget e).txns) (he : epochLe x.epoch e = true) :
    x.outcome = none := by
  have h' := (List.mem_filter.1 h).2
  simpa [he] using h'

/-- Every participating die's report of a switch stands among the messages. -/
def State.allSwitched (s : State) (p : PartId) (e : Nat) : Bool :=
  s.members.all fun d => s.msgs.any fun m => match m with
    | .switched src r f => decide (src.val = d) && decide (r = p) && decide (f = e)
    | _ => false

theorem State.allSwitched_of_mem {s : State} {p : PartId} {e : Nat}
    (h : ∀ n ∈ s.members, ∃ hn : n < 8, Msg.switched ⟨n, hn⟩ p e ∈ s.msgs) : s.allSwitched p e = true := by
  refine List.all_eq_true.2 fun n hn => ?_
  obtain ⟨hn8, hm⟩ := h n hn
  exact List.any_eq_true.2 ⟨_, hm, by simp⟩

/-- The reports of a switch are taken up. -/
def State.switchesTaken (s : State) (p : PartId) (e : Nat) : State :=
  { s with msgs := s.msgs.filter fun m => match m with
    | .switched _ r f => !(decide (r = p) && decide (f = e))
    | _ => true }

theorem exec_hubVisibleSwitch {s : State} {p : PartId} {e : Nat} (he : epochNext (s.partn p).visible = e) :
    exec (.hubVisibleSwitch p) s = .next (if !epochLe e (s.partn p).released || s.members.isEmpty || !s.allSwitched p e then s
      else ((s.switchesTaken p e).updPartn p fun q => { q with visible := e }).forget p e) := by
  subst he
  rfl

theorem exec_hubVisibleSwitch_switches {s : State} {p : PartId} {e : Nat} (he : epochNext (s.partn p).visible = e)
    (hr : epochLe e (s.partn p).released = true) (hm : s.members ≠ [])
    (h : ∀ n ∈ s.members, ∃ hn : n < 8, Msg.switched ⟨n, hn⟩ p e ∈ s.msgs) : ∃ t, exec (.hubVisibleSwitch p) s = .next t ∧
      (t.partn p).visible = e ∧ (∀ x ∈ (t.partn p).txns, epochLe x.epoch e = true → x.outcome = none) ∧
      (∀ n < 8, ∀ i ∈ (t.die n).m.images, i.join = false → i.part = p → epochLe i.epoch e = false) ∧
      ∀ n, (t.die n).m.mem = (s.die n).m.mem := by
  obtain ⟨x, hx⟩ : ∃ x, x = (s.switchesTaken p e).updPartn p fun q => { q with visible := e } := ⟨_, rfl⟩
  have hd : ∀ n, x.die n = s.die n := fun n => by rw [hx]; rfl
  have hv : (x.partn p).visible = e := by rw [hx, State.updPartn_partn, if_pos rfl]
  refine ⟨x.forget p e, ?_, ?_, ?_, ?_, ?_⟩
  · rw [exec_hubVisibleSwitch he, hr, State.allSwitched_of_mem h, List.isEmpty_eq_false_iff.2 hm, ← hx]
    exact congrArg _ (if_neg Bool.false_ne_true)
  · rw [State.forget_partn]
    exact hv
  · rw [State.forget_partn]
    exact fun y hy => Partition.forget_txn hy
  · intro n hn i hi hj hp
    rw [State.forget_die, if_pos hn] at hi
    exact Die.forget_image hi hj (congrArg Fin.val hp)
  · intro n
    rw [State.forget_die, ← hd n]
    split <;> rfl

end Sys2Proof.Machine
end

section
/-! PROOF of O52: Horizons and stalls (R81 to R85). -/

namespace Sys2Proof.Machine

/-! ### Horizons announced (R81, R82) -/

/-- Horizons sent to the units of a list change messages only. -/
theorem foldl_horizon_eq (u : HzUnit) (t : BitVec 48) (l : List HzUnit) (s : State) :
    l.foldl (fun x v => x.post (.horizon u v t)) s = { s with msgs := s.msgs ++ l.map fun v => .horizon u v t } := by
  induction l generalizing s with
  | nil => rw [List.map_nil, List.append_nil]; rfl
  | cons v l ih =>
    rw [List.foldl_cons, ih, State.post_msgs, List.append_assoc]
    rfl

theorem State.sendHorizon_spec (s : State) (u : HzUnit) (t : BitVec 48) : ∃ ms, s.sendHorizon u t = { s with msgs := s.msgs ++ ms } ∧
    (u ≠ .hub → Msg.horizon u .hub t ∈ ms) ∧
    ∀ e : DieId, u ≠ .die e → e.val ∈ s.members → Msg.horizon u (.die e) t ∈ ms := by
  refine ⟨_, foldl_horizon_eq u t _ s, fun hu => ?_, fun e hu he => ?_⟩
  · exact List.mem_map_of_mem (List.mem_filter.2 ⟨List.mem_cons_self, decide_eq_true hu.symm⟩)
  · refine List.mem_map_of_mem (List.mem_filter.2 ⟨List.mem_cons_of_mem _ ?_, decide_eq_true hu.symm⟩)
    exact List.mem_filterMap.2 ⟨e.val, he, dif_pos e.isLt⟩

/-- The Horizon that die d announces. -/
def State.dieAnnounces (s : State) (d : DieId) : BitVec 48 :=
  if s.h.sd.opened then laterTick (s.die d).o.hzSent (s.ownHorizon (s.die d).o.tick fun v => v.landedOn d)
  else s.ownHorizon (s.die d).o.tick fun v => v.landedOn d

/-- The Horizon that the hub announces. -/
def State.hubAnnounces (s : State) : BitVec 48 :=
  if s.h.sd.opened then laterTick s.h.sd.hzHub (s.ownHorizon s.tick fun v => v.org.host) else s.ownHorizon s.tick fun v => v.org.host

theorem State.updDie_members {f : Die → Die} (s : State) (d : Nat) (hf : ∀ z, (f z).member = z.member := by intro; rfl) :
    (s.updDie d f).members = s.members := by
  unfold State.members
  refine List.filter_congr fun e _ => ?_
  exact State.updDie_view Die.member hf s d e

theorem exec_horizonAnnounce_die {s : State} {d : DieId} (ht : s.ticking = true) (ha : s.alive d = true)
    (hm : (s.die d).member = true) : ∃ t, exec (.horizonAnnounce (.die d)) s = .next t ∧ (t.die d).o.hzSent = s.dieAnnounces d ∧
      Msg.horizon (.die d) .hub (s.dieAnnounces d) ∈ t.msgs ∧
      ∀ e : DieId, e ≠ d → e.val ∈ s.members → Msg.horizon (.die d) (.die e) (s.dieAnnounces d) ∈ t.msgs := by
  obtain ⟨x, hx⟩ : ∃ x, x = s.updDie d fun e => { e with o := { e.o with hzSent := s.dieAnnounces d } } := ⟨_, rfl⟩
  have hxm : x.members = s.members := by rw [hx, State.updDie_members]
  obtain ⟨ms, he, hhub, hdie⟩ := x.sendHorizon_spec (.die d) (s.dieAnnounces d)
  refine ⟨x.sendHorizon (.die d) (s.dieAnnounces d), ?_, ?_, ?_, fun e hne hmem => ?_⟩
  · change execHorizonAnnounce (.die d) s = _
    unfold execHorizonAnnounce
    rw [ht, Bool.not_true, if_neg Bool.false_ne_true]
    dsimp only
    rw [ha, hm, Bool.not_true, Bool.or_self, if_neg Bool.false_ne_true, hx]
    rfl
  · rw [he, State.withMsgs_die, hx, State.updDie_die, if_pos rfl]
  · rw [he]
    exact List.mem_append_right _ (hhub nofun)
  · rw [he]
    refine List.mem_append_right _ (hdie e (fun h => hne ?_) (by rwa [hxm]))
    injection h with h
    exact h.symm

theorem exec_horizonAnnounce_hub {s : State} (ht : s.ticking = true) : ∃ t, exec (.horizonAnnounce .hub) s = .next t ∧
    t.h.sd.hzHub = s.hubAnnounces ∧ ∀ e : DieId, e.val ∈ s.members → Msg.horizon .hub (.die e) s.hubAnnounces ∈ t.msgs := by
  obtain ⟨x, hx⟩ : ∃ x, x = s.updSd fun x => { x with hzHub := s.hubAnnounces } := ⟨_, rfl⟩
  have hxm : x.members = s.members := by rw [hx]; rfl
  obtain ⟨ms, he, -, hdie⟩ := x.sendHorizon_spec .hub s.hubAnnounces
  refine ⟨x.sendHorizon .hub s.hubAnnounces, ?_, ?_, fun e hmem => ?_⟩
  · change execHorizonAnnounce .hub s = _
    unfold execHorizonAnnounce
    rw [ht, Bool.not_true, if_neg Bool.false_ne_true, hx]
    rfl
  · rw [he, hx]
    rfl
  · rw [he]
    exact List.mem_append_right _ (hdie e nofun (by rwa [hxm]))

/-! ### Horizons received (R83) -/

/-- The Horizons of unit a that travel to unit b. -/
def Msg.isHorizon (a b : HzUnit) : Msg → Bool
  | .horizon x y _ => decide (x = a) && decide (y = b)
  | _ => false

theorem exec_horizonReceive_die {s : State} {d e : DieId} {h : BitVec 48} {rest : List Msg}
    (hm : takeMsg (Msg.isHorizon (.die e) (.die d)) [] s.msgs = some (.horizon (.die e) (.die d) h, rest)) :
    ∃ t, exec (.horizonReceive (.die d) (.die e)) s = .next t ∧ t.msgs = rest ∧ Sparse.get 0 (t.die d).o.hzSeen e = h ∧
      (t.die d).o.tick = (s.die d).o.tick := by
  refine ⟨_, congrArg Host.Outcome.next (State.receive_of_takeMsg hm _), rfl, ?_, ?_⟩
  · rw [State.updDie_die, if_pos rfl]
    exact Sparse.get_set_self 0 (s.die d).o.hzSeen e h
  · rw [State.updDie_die, if_pos rfl]
    rfl

theorem exec_horizonReceive_die_hub {s : State} {d : DieId} {h : BitVec 48} {rest : List Msg}
    (hm : takeMsg (Msg.isHorizon .hub (.die d)) [] s.msgs = some (.horizon .hub (.die d) h, rest)) :
    ∃ t, exec (.horizonReceive (.die d) .hub) s = .next t ∧ Sparse.get 0 (t.die d).o.hzSeen 8 = h := by
  refine ⟨_, congrArg Host.Outcome.next (State.receive_of_takeMsg hm _), ?_⟩
  rw [State.updDie_die, if_pos rfl]
  exact Sparse.get_set_self 0 (s.die d).o.hzSeen 8 h

/-- The hub holds Horizon h of die e. -/
def State.hzHeld (s : State) (e : Nat) (h : BitVec 48) : State :=
  (s.updSd fun z => { z with hzSeen := Sparse.set 0 z.hzSeen e h }).edgePassed

theorem State.hzHeld_seen (s : State) (e : Nat) (h : BitVec 48) : Sparse.get 0 (s.hzHeld e h).h.sd.hzSeen e = h :=
  Sparse.get_set_self 0 s.h.sd.hzSeen e h

theorem exec_horizonReceive_hub {s : State} {e : DieId} {h : BitVec 48} {rest : List Msg}
    (hm : takeMsg (Msg.isHorizon (.die e) .hub) [] s.msgs = some (.horizon (.die e) .hub h, rest)) :
    ∃ t, exec (.horizonReceive .hub (.die e)) s = .next t ∧ Sparse.get 0 t.h.sd.hzSeen e = h := by
  obtain ⟨x, hx⟩ : ∃ x, x = ({ s with msgs := rest } : State).hzHeld e h := ⟨_, rfl⟩
  have hseen : Sparse.get 0 x.h.sd.hzSeen e = h := by rw [hx, State.hzHeld_seen]
  refine ⟨if x.lagBeyond e (x.paramN 15 0 2000) then x
    else x.updSd fun z => { z with stalled := z.stalled &&& ~~~(1#8 <<< e.val) }, ?_, ?_⟩
  · rw [hx]
    exact congrArg Host.Outcome.next (State.receive_of_takeMsg hm _)
  · split
    · exact hseen
    · exact hseen

/-! ### Stalls (R85) -/

theorem exec_horizonStall_stalls {s : State} {d : DieId} (hn : s.h.sd.stalled.getLsbD d = false)
    (hl : s.lagBeyond d (s.paramN 15 0 2000) = true) : ∃ t, exec (.horizonStall d) s = .next t ∧
      t.h.sd.stalled.getLsbD d = true ∧ t.h.elCount = s.h.elCount + 1 := by
  obtain ⟨x, hx⟩ : ∃ x, x = s.updSd fun z => { z with stalled := z.stalled ||| (1#8 <<< d.val) } := ⟨_, rfl⟩
  have hst : x.h.sd.stalled = s.h.sd.stalled ||| (1#8 <<< d.val) := by rw [hx, State.updSd_sd]
  refine ⟨x.sdError 2 d, ?_, ?_, ?_⟩
  · change execHorizonStall d s = _
    unfold execHorizonStall
    rw [hn, hl, Bool.not_true, Bool.or_self, if_neg Bool.false_ne_true, hx]
  · obtain ⟨e, he⟩ := x.sdError_sd 2 d
    rw [he]
    change x.h.sd.stalled.getLsbD d = true
    rw [hst, BitVec.getLsbD_or, BitVec.getLsbD_shiftLeft]
    simp [d.isLt]
  · rw [State.sdError_elCount, hx]
    rfl

theorem exec_horizonStallFence_falls_due {s : State} {d : DieId} (hl : s.lagBeyond d (4 * s.paramN 15 0 2000) = true) :
    ∃ t, exec (.horizonStallFence d) s = .next t ∧ (t.die d).fenceDue = some ((s.die d).fenceDue.getD .stall) := by
  refine ⟨_, congrArg Host.Outcome.next (if_neg (by rw [hl]; exact Bool.false_ne_true)), ?_⟩
  rw [State.updDie_die, if_pos rfl]
  cases (s.die d).fenceDue <;> rfl

end Sys2Proof.Machine
end

section
/-! PROOF of O52: scrubbing (R383), the statistics snapshot (R443), and the statement. -/

namespace Sys2Proof.Machine

/-! ### Scrubbing (R383) -/

/-- A unit without a changed symbol leaves all as it was. -/
theorem State.scrubUnit_clean (s : State) (d row u : Nat) : s.scrubUnit d row u .clean = s := by
  have hc : ({ Ecc.clean with tag := Ecc.clean.line } : Ecc) = .clean := rfl
  have hl : readUnit160 Ecc.clean.line = .clean := readUnit160_nil
  unfold State.scrubUnit
  split
  · dsimp only
    rw [State.readSymbols_clean]
  · dsimp only
    split
    · rw [hc, State.readTags_clean]
    · rw [hl]

theorem State.scrubNext_clean {s : State} {d row : Nat} (h : Sparse.get 0 (s.die d).scrub row + 1 < rowUnits) :
    s.scrubNext d row .clean = s.updDie d fun z =>
      { z with scrub := Sparse.set 0 z.scrub row (Sparse.get 0 (s.die d).scrub row + 1) } := by
  unfold State.scrubNext
  dsimp only
  rw [State.scrubUnit_clean]
  simp only [if_pos h]

/-- Units that are sound, up to the row's end not reached: the row's progress counts them. -/
theorem foldl_scrubNext_clean {d row : Nat} (n : Nat) {s : State} (h : Sparse.get 0 (s.die d).scrub row + n < rowUnits) :
    Sparse.get 0 (((List.replicate n Ecc.clean).foldl (fun y e => y.scrubNext d row e) s).die d).scrub row =
        Sparse.get 0 (s.die d).scrub row + n ∧
      (((List.replicate n Ecc.clean).foldl (fun y e => y.scrubNext d row e) s).die d).m = (s.die d).m := by
  induction n generalizing s with
  | zero => exact ⟨rfl, rfl⟩
  | succ n ih =>
    generalize hu : Sparse.get 0 (s.die d).scrub row = u at h ⊢
    have hstep := State.scrubNext_clean (s := s) (d := d) (row := row) (by omega)
    rw [hu] at hstep
    have hscrub : Sparse.get 0 ((s.scrubNext d row .clean).die d).scrub row = u + 1 := by
      rw [hstep, State.updDie_die, if_pos rfl]
      exact Sparse.get_set_self 0 (s.die d).scrub row (u + 1)
    have hm : ((s.scrubNext d row .clean).die d).m = (s.die d).m := by
      rw [hstep, State.updDie_die, if_pos rfl]
    obtain ⟨h1, h2⟩ := ih (s := s.scrubNext d row .clean) (by omega)
    rw [List.replicate_succ, List.foldl_cons]
    exact ⟨by omega, h2.trans hm⟩

theorem exec_scrubSlice_clean {s : State} {d : DieId} {row : Bool} (ht : s.ticking = true) (ha : s.alive d = true)
    (hm : (s.die d).member = true) (hn : (s.die d).o.edgeStep ≤ 6) (hu : s.up (13 * d + 8 + bit row) 4 = true)
    (h : Sparse.get 0 (s.die d).scrub (bit row) + s.paramN 25 0 4 < rowUnits) :
    ∃ t, exec (.scrubSlice d row (List.replicate (s.paramN 25 0 4) .clean)) s = .next t ∧
      Sparse.get 0 (t.die d).scrub (bit row) = Sparse.get 0 (s.die d).scrub (bit row) + s.paramN 25 0 4 ∧
      (t.die d).m = (s.die d).m := by
  obtain ⟨x, hx⟩ : ∃ x, x = s.updDie d fun e => { e with o := { e.o with edgeStep := 6 } } := ⟨_, rfl⟩
  have hscrub : (x.die d).scrub = (s.die d).scrub := by rw [hx, State.updDie_die, if_pos rfl]
  have hxm : (x.die d).m = (s.die d).m := by rw [hx, State.updDie_die, if_pos rfl]
  have hp : x.paramN 25 0 4 = s.paramN 25 0 4 := by rw [hx]; rfl
  have hup : x.up (13 * d + 8 + bit row) 4 = true := by rw [hx]; exact hu
  obtain ⟨h1, h2⟩ := foldl_scrubNext_clean (d := d) (row := bit row) (s.paramN 25 0 4) (s := x) (by rwa [hscrub])
  refine ⟨_, ?_, by rw [h1, hscrub], h2.trans hxm⟩
  change execScrubSlice d row _ s = _
  unfold execScrubSlice
  rw [State.dieStep_of_ticking ht ha hm hn, ← hx, List.length_replicate, hp, hup, if_neg (by simp)]

/-! ### The statistics snapshot (R443) -/

theorem get_foldl_row (f : Nat → Word) (p k : Nat) (m : Sparse Word) {n w : Nat} (hw : w < 16) (hk : k ≤ 16) :
    Sparse.get 0 ((List.range k).foldl (fun m w => Sparse.set 0 m (16 * p + w) (f w)) m) (16 * n + w) =
      if n = p ∧ w < k then f w else Sparse.get 0 m (16 * n + w) := by
  induction k with
  | zero => simp
  | succ k ih =>
    rw [List.range_succ, List.foldl_append, List.foldl_cons, List.foldl_nil, Sparse.get_set, ih (by omega)]
    by_cases h : n = p ∧ w = k
    · rw [if_pos (by omega), if_pos (by omega), h.2]
    · rw [if_neg (by omega)]
      exact if_congr (by omega) rfl rfl

/-- A table of 16-word rows, of which the first c words of each of k rows are written, holds what was written there. -/
theorem get_foldl_rows (f : Nat → Nat → Word) (c : Nat) (hc : c ≤ 16) (k : Nat) (m : Sparse Word) {n w : Nat} (hn : n < k) (hw : w < c) :
    Sparse.get 0 ((List.range k).foldl (fun m p =>
      (List.range c).foldl (fun m w => Sparse.set 0 m (16 * p + w) (f p w)) m) m) (16 * n + w) = f n w := by
  induction k with
  | zero => exact absurd hn (Nat.not_lt_zero n)
  | succ k ih =>
    rw [List.range_succ, List.foldl_append, List.foldl_cons, List.foldl_nil, get_foldl_row (f k) k c _ (by omega) hc]
    by_cases h : n = k
    · rw [if_pos ⟨h, hw⟩, h]
    · rw [if_neg fun hh => h hh.1, ih (by omega)]

/-- The snapshot and HOST_EVT. -/
def State.reported (s : State) : Snap × BitVec 6 := (s.h.host.snap, s.h.host.g.evt)

theorem State.msixKey_reported (s : State) (k : Nat) (o : Sent) : (s.msixKey k o).reported = s.reported := by
  unfold State.msixKey
  dsimp only
  split <;> rfl

theorem State.msix_reported (s : State) (v : Nat) : (s.msix v).reported = s.reported := by
  unfold State.msix
  dsimp only
  split
  · split <;> exact State.msixKey_reported _ _ _
  · rfl

theorem State.event_reported (s : State) (i : Nat) : (s.event i).reported = (s.h.host.snap, s.h.host.g.evt ||| (1#6 <<< i)) := by
  unfold State.event
  dsimp only
  split
  · exact State.msix_reported _ _
  · rfl

/-- The statistics as a snapshot of the state takes them up. -/
def State.snapTaken (s : State) (h : HostIf) : HostIf :=
  { h with snap := {
      seq := (h.snap.seq + 2) % 2 ^ 64
      tick := s.tick
      post := (List.range 16).foldl (fun m p =>
        (List.range 10).foldl (fun m w => Sparse.set 0 m (16 * p + w) (s.counterWord p w)) m) []
      port := (List.range 32).foldl (fun m n =>
        (List.range 14).foldl (fun m j => Sparse.set 0 m (16 * n + j) (s.portWord (n / 4) (n % 4) (2 + j))) m) [] } }

theorem State.snapTaken_post (s : State) (h : HostIf) : (s.snapTaken h).snap.post = (List.range 16).foldl (fun m p =>
    (List.range 10).foldl (fun m w => Sparse.set 0 m (16 * p + w) (s.counterWord p w)) m) [] := by
  unfold State.snapTaken
  dsimp only

theorem exec_statisticsSnapshot {s : State} (hp : s.tick.toNat % s.h.host.g.snapPeriod = 0) (ht : s.ticking = true)
    (hn : s.h.sd.edgeStep ≤ 7) {x : State} (hx : x = s.updSd fun z => { z with edgeStep := 7 }) :
    exec .statisticsSnapshot s = .next ((x.updHost x.snapTaken).event 5) := by
  change execStatisticsSnapshot s = _
  unfold execStatisticsSnapshot
  rw [if_neg (not_not_intro hp), State.atStep_of_ticking ht hn, ← hx]
  rfl

theorem exec_statisticsSnapshot_taken {s : State} (hp : s.tick.toNat % s.h.host.g.snapPeriod = 0) (ht : s.ticking = true)
    (hn : s.h.sd.edgeStep ≤ 7) : ∃ t, exec .statisticsSnapshot s = .next t ∧
      t.h.host.snap.seq = (s.h.host.snap.seq + 2) % 2 ^ 64 ∧ t.h.host.snap.tick = s.tick ∧
      t.h.host.g.evt.getLsbD 5 = true ∧
      ∀ n < 16, ∀ w < 10, Sparse.get 0 t.h.host.snap.post (16 * n + w) = s.counterWord n w := by
  obtain ⟨x, hx⟩ : ∃ x, x = s.updSd fun z => { z with edgeStep := 7 } := ⟨_, rfl⟩
  have hh : x.h.host = s.h.host := by rw [hx]; rfl
  have htick : x.tick = s.tick := by rw [hx]; rfl
  have hw : ∀ n w, x.counterWord n w = s.counterWord n w := fun n w => by rw [hx]; rfl
  obtain ⟨t, hr, hevt⟩ : ∃ t, t = (x.updHost x.snapTaken).event 5 ∧ t.reported =
      ((x.snapTaken s.h.host).snap, s.h.host.g.evt ||| (1#6 <<< 5)) :=
    ⟨_, rfl, (State.event_reported _ 5).trans (by rw [← hh]; rfl)⟩
  have hsnap : t.h.host.snap = (x.snapTaken s.h.host).snap := congrArg Prod.fst hevt
  have hbits : t.h.host.g.evt = s.h.host.g.evt ||| (1#6 <<< 5) := congrArg Prod.snd hevt
  refine ⟨t, (exec_statisticsSnapshot hp ht hn hx).trans (congrArg _ hr.symm), ?_, ?_, ?_, fun n hn w hw10 => ?_⟩
  · rw [hsnap, State.snapTaken]
  · rw [hsnap, State.snapTaken, htick]
  · rw [hbits, BitVec.getLsbD_or]
    simp
  · rw [hsnap, State.snapTaken_post, get_foldl_rows x.counterWord 10 (by decide) 16 [] hn hw10, hw]

/-- Settles O52: a release, a Horizon, a stall, a scrub of sound units and a snapshot each by its own lemma. -/
theorem epochsAndHorizons : Obligations.EpochsAndHorizons := by
  intro s d p rest o got
  refine ⟨fun e hn ha h => exec_releaseReceive_holds hn ha h, fun e he => ⟨fun h => ?_, exec_visibleEpochSwitch_switches he⟩,
    exec_hubVisibleSwitch_switches rfl, exec_horizonAnnounce_die, exec_horizonAnnounce_hub,
    fun e h hm => exec_horizonReceive_die hm, fun h hm => exec_horizonReceive_die_hub hm, fun e h hm => exec_horizonReceive_hub hm,
    exec_horizonStall_stalls, exec_horizonStallFence_falls_due, fun row => exec_scrubSlice_clean, exec_statisticsSnapshot_taken⟩
  rw [exec_visibleEpochSwitch he]
  exact congrArg _ (if_pos (Bool.or_eq_true_iff.2 h))

end Sys2Proof.Machine
end

section
/-! SUPPORT for O38: what a core that carries an instruction out has left alone of its transactions. -/

namespace Sys2Proof.Machine

/-- What core c sees of the plan, its partition and, on die d, of transactions and Horizons. -/
def State.txnView (s : State) (c d : Nat) : PlanState × Option PartId × Option Nat × DieOrder × List Nat :=
  (s.h.plan, s.partOf c, (s.core c).txn, (s.die d).o, s.members)

theorem State.updCore_txnView {f : Core → Core} (s : State) (n c d : Nat) (hf : ∀ k, (f k).txn = k.txn := by intro; rfl) :
    (s.updCore n f).txnView c d = s.txnView c d := by
  have h : ((s.updCore n f).core c).txn = (s.core c).txn := by
    rw [State.updCore_core]
    split
    next he => rw [hf, he]
    next => rfl
  rw [State.txnView, h]
  rfl

theorem State.updCluster_txnView {f : Cluster → Cluster} (s : State) (n c d : Nat) (hf : ∀ k, (f k).part = k.part := by intro; rfl) :
    (s.updCluster n f).txnView c d = s.txnView c d := by
  have h : (s.updCluster n f).partOf c = s.partOf c := by
    rw [State.partOf, State.updCluster_cluster]
    split
    next he => rw [hf, State.partOf, he]
    next => rfl
  rw [State.txnView, h]
  rfl

theorem State.updDie_txnView {f : Die → Die} (s : State) (n c d : Nat) (hf : ∀ e, (f e).o = e.o := by intro; rfl)
    (hm : ∀ e, (f e).member = e.member := by intro; rfl) : (s.updDie n f).txnView c d = s.txnView c d := by
  rw [State.txnView, State.updDie_members s n hm, State.updDie_view Die.o hf]
  rfl

theorem State.logErr_txnView (s : State) (code sev die : Nat) (hub : Bool) (part unit : Nat) (w2 w3 : Word) (c d : Nat) :
    (s.logErr code sev die hub part unit w2 w3).txnView c d = s.txnView c d := by
  unfold State.txnView State.partOf State.cluster State.core State.die State.members State.die
  rw [State.logErr_plan, State.logErr_u]

theorem State.correctedIn_txnView (s : State) (code k unit : Nat) (w2 w3 : Word) (c d : Nat) :
    (s.correctedIn code k unit w2 w3).txnView c d = s.txnView c d := by
  unfold State.correctedIn
  rw [State.updDie_txnView, State.logErr_txnView]

theorem State.fetchCorrected_txnView (s : State) (k n c d : Nat) : (s.fetchCorrected k n).txnView c d = s.txnView c d := by
  unfold State.fetchCorrected
  dsimp only
  refine (foldl_keeps (fun x => State.txnView x c d) (fun x a => ?_) _ _).trans ?_
  · rw [State.correctedIn_txnView, State.updCluster_txnView]
  · split
    · rw [State.correctedIn_txnView, State.updCore_txnView]
    · rfl

theorem State.rung_txnView (s : State) (k c d : Nat) : (s.rung k).txnView c d = s.txnView c d := by
  unfold State.rung
  split
  · rw [State.updCore_txnView]
  · rfl

/-- A core that carries an instruction out sees the same transactions. -/
theorem carries_txnView {s : State} {c i x s1} (h : s.carries c i = some (x, s1)) (d : Nat) : s1.txnView c d = s.txnView c d := by
  unfold State.carries at h
  dsimp only at h
  split at h
  · cases h
  · split at h
    · split at h
      · cases h; rfl
      · cases h
    · split at h
      · cases h; rw [State.fetchCorrected_txnView, State.rung_txnView]
      · cases h

section
variable {s t : State} {c d : Nat} (h : t.txnView c d = s.txnView c d)
include h

theorem plan_of_txnView : t.h.plan = s.h.plan := congrArg (fun x => x.1) h
theorem partOf_of_txnView : t.partOf c = s.partOf c := congrArg (fun x => x.2.1) h
theorem txn_of_txnView : (t.core c).txn = (s.core c).txn := congrArg (fun x => x.2.2.1) h
theorem order_of_txnView : (t.die d).o = (s.die d).o := congrArg (fun x => x.2.2.2.1) h
theorem members_of_txnView : t.members = s.members := congrArg (fun x => x.2.2.2.2) h

theorem slot_of_txnView (n : Nat) : t.slot d n = s.slot d n := by
  rw [State.slot, order_of_txnView h, State.slot]

theorem dieHorizon_of_txnView : t.dieHorizon d = s.dieHorizon d := by
  unfold State.dieHorizon
  rw [order_of_txnView h, members_of_txnView h]

theorem takeableSlots_of_txnView (p : Nat) : t.takeableSlots d p = s.takeableSlots d p := by
  unfold State.takeableSlots State.slotsOf State.slot
  rw [order_of_txnView h, dieHorizon_of_txnView h]

theorem planPart_of_txnView (p : Nat) : t.planPart p = s.planPart p := by
  unfold State.planPart
  rw [plan_of_txnView h]

theorem paramN_of_txnView (i j n : Nat) : t.paramN i j n = s.paramN i j n := State.paramN_congr (plan_of_txnView h) i j n

end

end Sys2Proof.Machine
end

section
/-! PROOF of O38: HOME, TXN.NEXT and TXN.WAIT (R101, R111, R112, R114, R115). -/

namespace Sys2Proof.Machine

/-! ### The order of positions -/

theorem tickBefore_asymm {a b : BitVec 48} (h : tickBefore a b = true) : tickBefore b a = false := by
  unfold tickBefore at *
  simp only [Bool.and_eq_true, decide_eq_true_eq, Bool.and_eq_false_iff, decide_eq_false_iff_not] at *
  bv_omega

theorem Position.before_asymm {p q : Position} (h : p.before q = true) : q.before p = false := by
  unfold Position.before at *
  by_cases ht : p.tick = q.tick
  · by_cases hp : p.port = q.port
    · simp only [ht, hp, ne_eq, not_true_eq_false, if_false, decide_eq_true_eq, decide_eq_false_iff_not] at *
      omega
    · have hp' : q.port ≠ p.port := Ne.symm hp
      simp only [ht, hp, hp', ne_eq, not_true_eq_false, not_false_eq_true, if_false, if_true, decide_eq_true_eq,
        decide_eq_false_iff_not] at *
      omega
  · have ht' : q.tick ≠ p.tick := Ne.symm ht
    rw [if_pos ht] at h
    rw [if_pos ht']
    exact tickBefore_asymm h

theorem State.mem_of_earliest {s : State} {d m : Nat} {l : List Nat} (h : s.earliest d l = some m) : m ∈ l := by
  induction l generalizing m with
  | nil => cases h
  | cons n l ih =>
    unfold State.earliest at h
    cases he : s.earliest d l with
    | none =>
      rw [he] at h
      cases h
      exact List.mem_cons_self
    | some k =>
      rw [he] at h
      cases h
      split
      · exact List.mem_cons_of_mem _ (ih he)
      · exact List.mem_cons_self

/-- The slot that precedes all others of a list is the earliest. -/
theorem State.earliest_eq {s : State} {d n : Nat} {l : List Nat} (hn : n ∈ l)
    (h : ∀ m ∈ l, m ≠ n → (s.slot d n).pos.before (s.slot d m).pos = true) : s.earliest d l = some n := by
  induction l with
  | nil => cases hn
  | cons k l ih =>
    have ih' := fun hm => ih hm fun m hml => h m (List.mem_cons_of_mem _ hml)
    unfold State.earliest
    by_cases hk : k = n
    · subst hk
      cases he : s.earliest d l with
      | none => rfl
      | some m =>
        dsimp only
        by_cases hm : m = k
        · rw [hm, ite_self]
        · rw [Position.before_asymm (h m (List.mem_cons_of_mem _ (State.mem_of_earliest he)) hm), if_neg Bool.false_ne_true]
    · rw [ih' ((List.mem_cons.1 hn).resolve_left (Ne.symm hk))]
      dsimp only
      rw [h k List.mem_cons_self hk, if_pos rfl]

theorem State.takeable_spec {s : State} {d p n : Nat} (h : n ∈ s.takeableSlots d p) :
    (s.slot d n).st = .queued ∧ tickLe (s.slot d n).pos.tick (s.dieHorizon d) = true := by
  have h' := (List.mem_filter.1 h).2
  rwa [Bool.and_eq_true, decide_eq_true_eq] at h'

/-! ### HOME (R114) -/

theorem home_hash_injective (h i j : Nat) (hd : i / h = j / h) (hk : (i % h + i / h) % h = (j % h + j / h) % h) : i = j := by
  rw [hd] at hk
  have hm : i % h = j % h := by
    have := Nat.ModEq.add_right_cancel' (j / h) hk
    rwa [Nat.ModEq, Nat.mod_mod, Nat.mod_mod] at this
  rw [← Nat.div_add_mod i h, ← Nat.div_add_mod j h, hd, hm]

section
variable {s : State} {c : CoreId} {p : PartId}

theorem exec_home_yields (hp : s.partOf c = some p) (d a : Reg) (hn : ((s.regs c).wr a).toNat < s.paramN 81 p.val 1) :
    Yields s c (.home c d a) 12 fun x =>
      x.setW d (BitVec.ofNat 36 ((s.planPart p.val).record (s.paramN 82 p.val 1) ((s.regs c).wr a).toNat)) := by
  intro x s1 h
  have hv := carries_txnView h (coreDie c)
  have he : exec (.home c d a) s = .next (s.instr c (.home c d a) _) := rfl
  rw [he, instr_carries h]
  dsimp only
  rw [partOf_of_txnView hv, hp]
  dsimp only
  rw [State.recLines, carries_regs h, paramN_of_txnView hv, paramN_of_txnView hv, planPart_of_txnView hv, if_neg (Nat.not_le.2 hn),
    updR_const _ _ _ (carries_regs h)]
  rfl

theorem exec_home_raises (hp : s.partOf c = some p) (d a : Reg) (hn : s.paramN 81 p.val 1 ≤ ((s.regs c).wr a).toNat) :
    Raises s c (.home c d a) .accountRange 0 := by
  refine raises_of rfl fun x s1 h => ?_
  have hv := carries_txnView h (coreDie c)
  dsimp only
  rw [partOf_of_txnView hv, hp]
  dsimp only
  rw [carries_regs h, paramN_of_txnView hv, if_pos hn]

/-! ### TXN.NEXT (R111) -/

theorem exec_txnNext_raises (d : Reg) (h : (s.core c).txn.isSome = true) : Raises s c (.txnNext c d) .txnState 0 := by
  refine raises_of rfl fun x s1 hc => ?_
  rw [txn_of_txnView (carries_txnView hc (coreDie c)), if_pos h]

theorem exec_txnNext_idles (d : Reg) (h : (s.core c).txn = none) (hp : s.partOf c = some p)
    (hn : s.takeableSlots (coreDie c) p.val = []) {x s1} (hc : s.carries c (.txnNext c d) = some (x, s1)) :
    exec (.txnNext c d) s = .next (s1.updCore c fun k => k.count (·.addIdle 1)) := by
  have hv := carries_txnView hc (coreDie c)
  have he : exec (.txnNext c d) s = .next (s.instr c (.txnNext c d) _) := rfl
  rw [he, instr_carries hc]
  rw [txn_of_txnView hv, h, partOf_of_txnView hv, hp, Option.isSome_none, if_neg Bool.false_ne_true]
  dsimp only
  rw [takeableSlots_of_txnView hv, hn]
  rfl

theorem exec_txnNext_takes (d : Reg) (h : (s.core c).txn = none) (hp : s.partOf c = some p) {n : Nat}
    (hn : n ∈ s.takeableSlots (coreDie c) p.val)
    (hfirst : ∀ m ∈ s.takeableSlots (coreDie c) p.val, m ≠ n → (s.slot (coreDie c) n).pos.before (s.slot (coreDie c) m).pos = true) :
    Ends s c (.txnNext c d) 6 none fun t => t.nextTaken c d n := by
  refine ends_of rfl fun x s1 hc => ?_
  have hv := carries_txnView hc (coreDie c)
  have hearly : s1.earliest (coreDie c) (s1.takeableSlots (coreDie c) p.val) = some n := by
    refine State.earliest_eq (by rwa [takeableSlots_of_txnView hv]) fun m hm hne => ?_
    rw [takeableSlots_of_txnView hv] at hm
    rw [slot_of_txnView hv, slot_of_txnView hv]
    exact hfirst m hm hne
  rw [txn_of_txnView hv, h, partOf_of_txnView hv, hp, Option.isSome_none, if_neg Bool.false_ne_true]
  dsimp only
  rw [hearly]

/-! ### TXN.WAIT (R115) -/

theorem exec_txnWait_raises (h : (s.core c).txn = none) : Raises s c (.txnWait c) .txnState 0 := by
  refine raises_of rfl fun x s1 hc => ?_
  rw [State.coreSlot, txn_of_txnView (carries_txnView hc (coreDie c)), h]

theorem coreSlot_of_carries {n : Nat} (h : (s.core c).txn = some n) {i x s1} (hc : s.carries c i = some (x, s1)) :
    s1.coreSlot c = some (s.slot (coreDie c) n) := by
  have hv := carries_txnView hc (coreDie c)
  rw [State.coreSlot, txn_of_txnView hv, h]
  dsimp only
  rw [slot_of_txnView hv]

/-- TXN.WAIT of a transaction with claims declared goes by whether all are granted. -/
theorem txnWait_act {v : Slot} (hst : v.st = .declared ∨ v.st = .granted) {α : Type} (q : Prop) [Decidable q] (a b e f : α) :
    (if v.st = .aborted ∧ q then a else if v.st ≠ .declared ∧ v.st ≠ .granted then b else if v.allGranted then e else f) =
      if v.allGranted then e else f := by
  rcases hst with h | h <;> simp [h]

theorem exec_txnWait_ends {n : Nat} (h : (s.core c).txn = some n)
    (hst : (s.slot (coreDie c) n).st = .declared ∨ (s.slot (coreDie c) n).st = .granted)
    (hall : ∀ q ∈ (s.slot (coreDie c) n).claims, q.granted = true) : Ends s c (.txnWait c) 2 none fun t => t := by
  refine ends_of rfl fun x s1 hc => ?_
  rw [coreSlot_of_carries h hc]
  dsimp only
  rw [txnWait_act hst]
  exact if_pos (List.all_eq_true.2 hall)

theorem exec_txnWait_waits {n : Nat} (h : (s.core c).txn = some n)
    (hst : (s.slot (coreDie c) n).st = .declared ∨ (s.slot (coreDie c) n).st = .granted)
    (hex : ∃ q ∈ (s.slot (coreDie c) n).claims, q.granted = false) {x s1} (hc : s.carries c (.txnWait c) = some (x, s1)) :
    exec (.txnWait c) s = .next (s1.updCore c fun k => { k.count (·.addFar 1) with
      cur := some { x with acc := none, walk := none, gate := false, soft := true } }) := by
  obtain ⟨q, hq, hg⟩ := hex
  have hnot : ¬ (s.slot (coreDie c) n).allGranted = true := fun hall => by
    rw [List.all_eq_true.1 hall q hq] at hg
    cases hg
  have he : exec (.txnWait c) s = .next (s.instr c (.txnWait c) _) := rfl
  rw [he, instr_carries hc]
  dsimp only
  rw [coreSlot_of_carries h hc]
  dsimp only
  rw [txnWait_act hst, if_neg hnot]
  rfl

end

end Sys2Proof.Machine
end

section
/-! PROOF of O38: the slot that TXN.NEXT takes (R112), its frame's copy, and the statement. -/

namespace Sys2Proof.Machine

/-! ### The frame's copy to scratch (R50) -/

/-- One part of a frame's copy, unless its line holds a capability. -/
def State.copyPart (cl off : Nat) (l : List Chr) (s : State) (q : Nat × Nat) : State :=
  if (s.scratchInfo cl (q.1 / 64)).capline then s else s.scratchWrite cl q.1 ((l.drop (q.1 - off)).take q.2)

theorem State.copyFrame_eq (s : State) (cl off : Nat) (l : List Chr) :
    s.copyFrame cl off l = (cutParts (l.length / 64 + 2) off l.length).foldl (State.copyPart cl off l) s := rfl

theorem State.copyPart_scratchInfo (cl off : Nat) (l : List Chr) (s : State) (q : Nat × Nat) (n : Nat) :
    (s.copyPart cl off l q).scratchInfo cl n = s.scratchInfo cl n := by
  unfold State.copyPart
  split
  · rfl
  · rw [State.scratchInfo, State.scratchWrite, State.updCluster_cluster, if_pos rfl, State.scratchInfo]

/-- The cores, and the dies. -/
def State.coresDies (s : State) : Sparse Core × Sparse Die := (s.u.cores, s.u.dies)

theorem State.copyFrame_coresDies (s : State) (cl off : Nat) (l : List Chr) : (s.copyFrame cl off l).coresDies = s.coresDies := by
  rw [State.copyFrame_eq]
  refine foldl_keeps State.coresDies (fun x q => ?_) _ s
  unfold State.copyPart
  split <;> rfl

/-- Character a of cluster cl's scratch once the characters of l from off on have been copied to [va, va + n). -/
def State.copied (s : State) (cl off : Nat) (l : List Chr) (va n a : Nat) : Chr :=
  if va ≤ a ∧ a < va + n ∧ (s.scratchInfo cl (a / 64)).capline = false then l.getD (a - off) 0
  else Sparse.get 0 (s.cluster cl).scratch a

theorem State.copyPart_char {cl off va n : Nat} {l : List Chr} (s : State) (ha : va % 64 = 0) (hn : n ≤ 64) (hv : off ≤ va)
    (he : va + n ≤ off + l.length) (a : Nat) :
    Sparse.get 0 ((s.copyPart cl off l (va, n)).cluster cl).scratch a = s.copied cl off l va n a := by
  unfold State.copyPart State.copied
  dsimp only
  have hline : va ≤ a → a < va + n → a / 64 = va / 64 := by omega
  have hlen : ((l.drop (va - off)).take n).length = n := by
    rw [List.length_take, List.length_drop]
    omega
  split
  next hc =>
    rw [if_neg]
    rintro ⟨h1, h2, h3⟩
    rw [hline h1 h2, hc] at h3
    cases h3
  next hc =>
    rw [scratchWrite_char, hlen]
    by_cases h : va ≤ a ∧ a < va + n
    · obtain ⟨h1, h2⟩ := h
      rw [if_pos ⟨rfl, h1, h2⟩, if_pos ⟨h1, h2, by rw [hline h1 h2]; exact Bool.eq_false_iff.2 hc⟩, List.getD_eq_getElem?_getD,
        List.getElem?_take_of_lt (by omega), List.getElem?_drop, ← List.getD_eq_getElem?_getD]
      congr 1
      omega
    · rw [if_neg fun hh => h hh.2, if_neg fun hh => h ⟨hh.1, hh.2.1⟩]

theorem cutParts_zero (n va : Nat) : cutParts n va 0 = [] := by
  cases n with
  | zero => rfl
  | succ n => rw [cutParts, if_pos rfl]

/-- The parts of a run from a line's begin are copied line by line. -/
theorem foldl_copyPart_char {cl off : Nat} {l : List Chr} (fuel : Nat) {va n : Nat} {s : State} (ha : va % 64 = 0 ∨ n = 0)
    (hv : off ≤ va) (he : va + n = off + l.length) (hf : n ≤ 64 * fuel) (a : Nat) :
    Sparse.get 0 (((cutParts fuel va n).foldl (State.copyPart cl off l) s).cluster cl).scratch a = s.copied cl off l va n a := by
  induction fuel generalizing va n s with
  | zero =>
    rw [State.copied, if_neg (by omega)]
    rfl
  | succ fuel ih =>
    by_cases h0 : n = 0
    · rw [h0, cutParts_zero, State.copied, if_neg (by omega)]
      rfl
    · have hva : va % 64 = 0 := ha.resolve_right h0
      rw [cutParts, hva, if_neg h0, List.foldl_cons]
      obtain ⟨k, hk⟩ : ∃ k, k = min n (64 - 0) := ⟨_, rfl⟩
      rw [← hk]
      rw [ih (by omega) (by omega) (by omega) (by omega), State.copied, State.copyPart_scratchInfo,
        State.copyPart_char s hva (by omega) hv (by omega), State.copied, State.copied]
      by_cases hc : (s.scratchInfo cl (a / 64)).capline = false
      · simp only [hc, and_true]
        split
        · rw [if_pos (by omega)]
        · exact if_congr (by omega) rfl rfl
      · rw [if_neg (by simp [hc]), if_neg (by simp [hc]), if_neg (by simp [hc])]

/-- The characters that a frame's copy to the begin of a line leaves in scratch. -/
theorem State.copyFrame_char (s : State) {cl off : Nat} {l : List Chr} (h : off % 64 = 0) {j : Nat} (hj : j < l.length) :
    Sparse.get 0 ((s.copyFrame cl off l).cluster cl).scratch (off + j) =
      if (s.scratchInfo cl ((off + j) / 64)).capline then Sparse.get 0 (s.cluster cl).scratch (off + j) else l.getD j 0 := by
  rw [State.copyFrame_eq, foldl_copyPart_char _ (.inl h) (Nat.le_refl off) rfl (by omega), State.copied, Nat.add_sub_cancel_left]
  cases (s.scratchInfo cl ((off + j) / 64)).capline with
  | false => rw [if_pos ⟨by omega, by omega, rfl⟩, if_neg Bool.false_ne_true]
  | true => rw [if_neg (by simp), if_pos rfl]

/-! ### What a read of a queue's packet leaves alone -/

/-- The cores, and the clusters. -/
def State.coresClusters (s : State) : Sparse Core × Sparse Cluster := (s.u.cores, s.u.clusters)

theorem State.ramCorrected_coresClusters (s : State) (d p unit : Nat) (ls : List Nat) :
    (s.ramCorrected d p unit ls).coresClusters = s.coresClusters := by
  unfold State.ramCorrected
  refine foldl_keeps State.coresClusters (fun x a => ?_) _ s
  unfold State.coresClusters
  rw [State.updDie_u_cores, State.updDie_u_clusters, State.logErr_u]

theorem State.packetRead_coresClusters (s : State) (d p q v : Nat) : (s.packetRead d p q v).1.coresClusters = s.coresClusters := by
  unfold State.packetRead
  dsimp only
  split
  · have h : ∀ (x : State) a, (((x.ramLost d p 0 0 a).retype d p q v 2).skipHead d p q).coresClusters = x.coresClusters := by
      intro x a
      change (x.ramLost d p 0 0 a).coresClusters = _
      unfold State.coresClusters State.ramLost
      rw [State.logErr_u]
    rw [h, State.ramCorrected_coresClusters]
  · exact s.ramCorrected_coresClusters _ _ _ _

theorem State.core_of_coresClusters {s t : State} (h : t.coresClusters = s.coresClusters) (n : Nat) : t.core n = s.core n :=
  congrArg (fun x : Sparse Core × Sparse Cluster => Sparse.get Core.reset x.1 n) h

theorem State.cluster_of_coresClusters {s t : State} (h : t.coresClusters = s.coresClusters) (n : Nat) : t.cluster n = s.cluster n :=
  congrArg (fun x : Sparse Core × Sparse Cluster => Sparse.get Cluster.reset x.2 n) h

theorem State.core_of_coresDies {s t : State} (h : t.coresDies = s.coresDies) (n : Nat) : t.core n = s.core n :=
  congrArg (fun x : Sparse Core × Sparse Die => Sparse.get Core.reset x.1 n) h

theorem State.slot_of_coresDies {s t : State} (h : t.coresDies = s.coresDies) (d n : Nat) : t.slot d n = s.slot d n :=
  congrArg (fun x : Sparse Core × Sparse Die => Sparse.get Slot.reset (Sparse.get Die.reset x.2 d).o.slots n) h

/-! ### The slot taken (R112) -/

/-- The registers of a core that takes slot n of a die, the frame copied to offset a of scratch. -/
def CoreRegs.takes (v : Slot) (die n a : Nat) (d : Reg) (r : CoreRegs) : CoreRegs :=
  (((r.setCap 6 (Cap.readWrite (scratchBase + a) v.chars.length)).setW d (v.handle die n)).setW (Reg.next d)
    (Pair.hi v.pos.bits)).setW (Reg.next (Reg.next d)) (Pair.lo v.pos.bits)

/-- A core that takes slot n. -/
def Core.takes (v : Slot) (die n a : Nat) (d : Reg) (k : Core) : Core := { k.updR (CoreRegs.takes v die n a d) with txn := some n }

/-- Slot n of the core's die is marked taken, its frame copied to the core's part of scratch, and the core told. -/
theorem State.takeSlot_eq (s : State) (c : CoreId) (d : Reg) (n : Nat) : ∃ (s0 : State) (ptr : Option Nat), s0.coresClusters = s.coresClusters ∧
    s.takeSlot c d n = ((s0.setSlot (coreDie c) n
        { s.slot (coreDie c) n with st := .taken, core := some c, place := ptr }).copyFrame
          (coreCluster c) (2048 * coreIndex c) (s.slot (coreDie c) n).chars).updCore c
            (Core.takes (s.slot (coreDie c) n) (coreDie c) n (2048 * coreIndex c) d) := by
  unfold State.takeSlot
  dsimp only
  split
  next ptr _ => exact ⟨_, _, s.packetRead_coresClusters (coreDie c) (s.slot (coreDie c) n).part.val 0 ptr, rfl⟩
  next => exact ⟨s, _, rfl, rfl⟩

theorem Reg.next_ne (d : Reg) : Reg.next d ≠ d ∧ Reg.next (Reg.next d) ≠ d ∧ Reg.next (Reg.next d) ≠ Reg.next d := by
  have hd := d.isLt
  simp only [Reg.next, ne_eq, Fin.ext_iff]
  omega

theorem Pair.hi_append_lo (w : Pair) : (Pair.hi w ++ Pair.lo w : BitVec 72) = w := by
  unfold Pair.hi Pair.lo BitVec'.pos
  exact (BitVec.extractLsb'_append_extractLsb'_eq_extractLsb' (start₁ := 0) (len₁ := 36) rfl).trans BitVec.extractLsb'_eq_self

section
variable (v : Slot) (die n a : Nat) (d : Reg) (r : CoreRegs)

theorem CoreRegs.takes_handle : (r.takes v die n a d).wr d = v.handle die n := by
  obtain ⟨h1, h2, -⟩ := Reg.next_ne d
  rw [CoreRegs.takes, CoreRegs.setW_wr, if_neg h2.symm, CoreRegs.setW_wr, if_neg h1.symm, CoreRegs.setW_wr, if_pos rfl]

theorem CoreRegs.takes_position :
    ((r.takes v die n a d).wr (Reg.next d) ++ (r.takes v die n a d).wr (Reg.next (Reg.next d)) : BitVec 72) = v.pos.bits := by
  obtain ⟨-, -, h3⟩ := Reg.next_ne d
  rw [CoreRegs.takes, CoreRegs.setW_wr, if_neg h3.symm, CoreRegs.setW_wr, if_pos rfl, CoreRegs.setW_wr, if_pos rfl, Pair.hi_append_lo]

theorem CoreRegs.takes_cap : (r.takes v die n a d).cap 6 = Cap.readWrite (scratchBase + a) v.chars.length :=
  (CoreRegs.setCap_cap r 6 6 _).trans (if_pos rfl)

theorem CoreRegs.takes_d : (r.takes v die n a d).d = r.d := by
  rw [CoreRegs.takes, CoreRegs.setW_d, CoreRegs.setW_d, CoreRegs.setW_d, CoreRegs.setCap_d]

theorem CoreRegs.takes_sp : (r.takes v die n a d).sp = r.sp := by
  rw [CoreRegs.takes, CoreRegs.setW_sp, CoreRegs.setW_sp, CoreRegs.setW_sp, CoreRegs.setCap_sp]

end

/-- What is done to take a slot before the core is told changes no core. -/
theorem State.core_of_frameCopied {s s0 : State} (h : s0.coresClusters = s.coresClusters) (d n cl off : Nat) (v : Slot) (l : List Chr)
    (i : Nat) : ((s0.setSlot d n v).copyFrame cl off l).core i = s.core i :=
  (State.core_of_coresDies (State.copyFrame_coresDies _ cl off l) i).trans (State.core_of_coresClusters h i)

theorem State.takeSlot_core (s : State) (c : CoreId) (d : Reg) (n m : Nat) : (s.takeSlot c d n).core m =
    if m = c.val then Core.takes (s.slot (coreDie c) n) (coreDie c) n (2048 * coreIndex c) d (s.core c) else s.core m := by
  obtain ⟨s0, ptr, h0, ht⟩ := s.takeSlot_eq c d n
  rw [ht, State.updCore_core, State.core_of_frameCopied h0, State.core_of_frameCopied h0]

theorem State.takeSlot_regs (s : State) (c : CoreId) (d : Reg) (n : Nat) : (s.takeSlot c d n).regs c =
    (s.regs c).takes (s.slot (coreDie c) n) (coreDie c) n (2048 * coreIndex c) d := by
  rw [State.regs, State.takeSlot_core, if_pos rfl]
  rfl

theorem State.takeSlot_slot (s : State) (c : CoreId) (d : Reg) (n : Nat) : ∃ ptr, (s.takeSlot c d n).slot (coreDie c) n =
    { s.slot (coreDie c) n with st := .taken, core := some c, place := ptr } := by
  obtain ⟨s0, ptr, -, ht⟩ := s.takeSlot_eq c d n
  refine ⟨ptr, ?_⟩
  rw [ht, State.slot, State.updCore_die, ← State.slot, State.slot_of_coresDies (State.copyFrame_coresDies _ _ _ _),
    State.setSlot_slot, if_pos ⟨rfl, rfl⟩]

theorem State.takeSlot_char (s : State) (c : CoreId) (d : Reg) (n : Nat) {j : Nat} (hj : j < (s.slot (coreDie c) n).chars.length) :
    Sparse.get 0 ((s.takeSlot c d n).cluster (coreCluster c)).scratch (2048 * coreIndex c + j) =
      if (s.scratchInfo (coreCluster c) ((2048 * coreIndex c + j) / 64)).capline then
        Sparse.get 0 (s.cluster (coreCluster c)).scratch (2048 * coreIndex c + j)
      else (s.slot (coreDie c) n).chars.getD j 0 := by
  obtain ⟨s0, ptr, h0, ht⟩ := s.takeSlot_eq c d n
  rw [ht, State.updCore_cluster, State.copyFrame_char _ (by omega) hj]
  rw [← State.cluster_of_coresClusters h0, State.scratchInfo, State.scratchInfo, ← State.cluster_of_coresClusters h0]
  rfl

/-- Settles O38: what a core sees of transactions is the same once it carries an instruction out (`carries_txnView`); the slot it
takes by `State.takeSlot_eq`. -/
theorem transactionStart : Obligations.TransactionStart := by
  intro s c d a r e
  refine ⟨fun p hp => ⟨exec_home_yields hp d a, exec_home_raises hp d a⟩, home_hash_injective, exec_txnNext_raises d,
    fun p h hp => ⟨fun hn x s1 hc => exec_txnNext_idles d h hp hn hc, fun n hn hfirst =>
      ⟨exec_txnNext_takes d h hp hn hfirst, State.takeable_spec hn⟩⟩, fun n => ?_, exec_txnWait_raises,
    fun n h hst => ⟨exec_txnWait_ends h hst, fun hex x s1 hc => exec_txnWait_waits h hst hex hc⟩⟩
  intro v t
  obtain ⟨ptr, hslot⟩ := s.takeSlot_slot c d n
  have hregs := s.takeSlot_regs c d n
  refine ⟨?_, ?_, ?_, ?_, ?_, ?_, fun j hj => s.takeSlot_char c d n hj, fun m hm => ?_, ?_, ?_⟩
  · rw [State.takeSlot_core, if_pos rfl]
    rfl
  · rw [hslot]
  · rw [hslot]
  · rw [hregs, CoreRegs.takes_handle, Slot.handle, bit]
    cases v.org.host <;> rfl
  · rw [hregs, CoreRegs.takes_position]
  · rw [hregs, CoreRegs.takes_cap]
  · rw [State.takeSlot_core, if_neg hm]
  · rw [hregs, CoreRegs.takes_d]
  · rw [hregs, CoreRegs.takes_sp]

end Sys2Proof.Machine
end

section
/-! PROOF of O39: TXN.CLAIM and TXN.CLAIMX declare one claim for each distinct line (R115, R116, R118). -/

namespace Sys2Proof.Machine

/-! ### One claim for each line (R116) -/

/-- A claim names line n of die d. -/
def ClaimReg.names (d n : Nat) (q : ClaimReg) : Prop := q.die = d ∧ q.line = n

/-- What a record with lines on one die adds to the claims. -/
def addClaim (a : List ClaimReg) : List (Nat × Nat) → List ClaimReg
  | [] => a
  | (d, n) :: r =>
    if a.any (fun q => decide (q.die = d) && decide (q.line = n)) then a
    else a ++ [{ die := d, line := n, lines := n :: r.map Prod.snd, granted := false }]

theorem mergeClaims_eq (l : List (List (Nat × Nat))) : mergeClaims l = (l.flatMap byDie).foldl addClaim [] := by
  unfold mergeClaims
  congr 1
  funext a r
  cases r <;> rfl

/-- A record adds nothing where its first line is claimed, and else a claim of that line, not granted. -/
theorem addClaim_cons (a : List ClaimReg) (d n : Nat) (r : List (Nat × Nat)) :
    (addClaim a ((d, n) :: r) = a ∧ ∃ q ∈ a, q.names d n) ∨
      ((∀ q ∈ a, ¬ q.names d n) ∧ ∃ q, addClaim a ((d, n) :: r) = a ++ [q] ∧ q.names d n ∧ q.granted = false) := by
  by_cases h : ∃ q ∈ a, q.names d n
  · exact .inl ⟨if_pos (by simpa [ClaimReg.names] using h), h⟩
  · exact .inr ⟨by simpa using h, _, if_neg (by simpa [ClaimReg.names] using h), ⟨rfl, rfl⟩, rfl⟩

/-- The claims are of distinct lines, none granted yet. -/
def DistinctClaims (a : List ClaimReg) : Prop :=
  (a.Pairwise fun p q => (p.die, p.line) ≠ (q.die, q.line)) ∧ ∀ q ∈ a, q.granted = false

theorem DistinctClaims.addClaim {a : List ClaimReg} (h : DistinctClaims a) (r : List (Nat × Nat)) : DistinctClaims (addClaim a r) := by
  obtain - | ⟨⟨d, n⟩, r⟩ := r
  · exact h
  obtain ⟨ha, -⟩ | ⟨hne, q, ha, ⟨rfl, rfl⟩, hg⟩ := addClaim_cons a d n r
  · rwa [ha]
  · rw [ha]
    refine ⟨List.pairwise_append.2 ⟨h.1, List.pairwise_singleton _ _, fun p hp q' hq' heq => ?_⟩, fun p hp => ?_⟩
    · rw [List.mem_singleton.1 hq', Prod.mk.injEq] at heq
      exact hne p hp heq
    · rcases List.mem_append.1 hp with hp | hp
      · exact h.2 p hp
      · rwa [List.mem_singleton.1 hp]

theorem distinctClaims_foldl (l : List (List (Nat × Nat))) {a : List ClaimReg} (h : DistinctClaims a) :
    DistinctClaims (l.foldl addClaim a) := by
  induction l generalizing a with
  | nil => exact h
  | cons r l ih => exact ih (h.addClaim r)

theorem mergeClaims_distinct (l : List (List (Nat × Nat))) : DistinctClaims (mergeClaims l) := by
  rw [mergeClaims_eq]
  exact distinctClaims_foldl _ ⟨List.Pairwise.nil, by simp⟩

theorem addClaim_subset (a : List ClaimReg) (r : List (Nat × Nat)) : a ⊆ addClaim a r := by
  obtain - | ⟨⟨d, n⟩, r⟩ := r
  · exact List.Subset.refl a
  obtain ⟨ha, -⟩ | ⟨-, q, ha, -⟩ := addClaim_cons a d n r
  · rw [ha]
    exact List.Subset.refl a
  · rw [ha]
    exact List.subset_append_left _ _

theorem foldl_addClaim_subset (l : List (List (Nat × Nat))) (a : List ClaimReg) : a ⊆ l.foldl addClaim a := by
  induction l generalizing a with
  | nil => exact List.Subset.refl a
  | cons r l ih => exact List.Subset.trans (addClaim_subset a r) (ih _)

/-- The first line of every record is claimed. -/
theorem exists_claim_of_mem {l : List (List (Nat × Nat))} {d n : Nat} {r : List (Nat × Nat)} (h : (d, n) :: r ∈ l)
    (a : List ClaimReg) : ∃ q ∈ l.foldl addClaim a, q.names d n := by
  induction l generalizing a with
  | nil => cases h
  | cons x l ih =>
    rcases List.mem_cons.1 h with rfl | h
    · have hq : ∃ q ∈ addClaim a ((d, n) :: r), q.names d n := by
        obtain ⟨ha, hq⟩ | ⟨-, q, ha, hq, -⟩ := addClaim_cons a d n r
        · rwa [ha]
        · exact ⟨q, by simp [ha], hq⟩
      obtain ⟨q, hmem, hq⟩ := hq
      exact ⟨q, foldl_addClaim_subset l _ hmem, hq⟩
    · exact ih h _

/-- The lines of a record on the die of its first line begin with that line. -/
theorem cons_mem_byDie (d n : Nat) (r : List (Nat × Nat)) : ∃ r', (d, n) :: r' ∈ byDie ((d, n) :: r) := by
  refine ⟨r.filter fun e => decide (e.1 = d), List.mem_map.2 ⟨d, ?_, by simp⟩⟩
  rw [List.map_cons, List.eraseDups_cons]
  exact List.mem_cons_self

theorem mergeClaims_covers {l : List (List (Nat × Nat))} {d n : Nat} {r : List (Nat × Nat)} (h : (d, n) :: r ∈ l) :
    ∃ q ∈ mergeClaims l, q.die = d ∧ q.line = n ∧ q.granted = false := by
  obtain ⟨r', hr'⟩ := cons_mem_byDie d n r
  have hd := mergeClaims_distinct l
  rw [mergeClaims_eq] at hd ⊢
  obtain ⟨q, hq, hdie, hline⟩ := exists_claim_of_mem (List.mem_flatMap.2 ⟨_, h, hr'⟩) []
  exact ⟨q, hq, hdie, hline, hd.2 q hq⟩

/-! ### Declaring (R115, R116) -/

/-- The claim that travels to an engine for claim q of slot n of die d. -/
def Slot.claimMsg (v : Slot) (d : DieId) (n : Nat) (q : ClaimReg) : Claim :=
  { line := q.line, lines := q.lines, part := v.part, pos := v.pos, fromDie := d, slot := n, granted := false, overflow := false,
    hurt := [] }

/-- Sends the claim of a transaction to its engine. -/
def State.sendClaim (v : Slot) (d n : Nat) (s : State) (q : ClaimReg) : State :=
  if hq : q.die < 8 then if hd : d < 8 then s.post (.claim ⟨q.die, hq⟩ (v.claimMsg ⟨d, hd⟩ n q)) else s else s

/-- The slot of a core that declares the claims cs of its transaction. -/
def State.declared (s : State) (c : CoreId) (n : Nat) (cs : List ClaimReg) (borrow : Bool) : State :=
  let s1 := s.setSlot (coreDie c) n { s.slot (coreDie c) n with st := .declared, claims := cs, borrowed := borrow }
  if borrow then s1.updCluster (coreCluster c) fun x => { x with pool := x.pool ++ [n] } else s1

theorem State.declare_eq (s : State) (c : CoreId) (n : Nat) (cs : List ClaimReg) (borrow : Bool) : s.declare c n cs borrow =
    cs.foldl (State.sendClaim (s.slot (coreDie c) n) (coreDie c) n) (s.declared c n cs borrow) := rfl

theorem State.sendClaim_u (v : Slot) (d n : Nat) (s : State) (q : ClaimReg) : (s.sendClaim v d n q).u = s.u := by
  unfold State.sendClaim
  split
  · split <;> rfl
  · rfl

/-- What is under way stays under way. -/
theorem State.mem_sendClaim (v : Slot) (d n : Nat) (s : State) (q : ClaimReg) {m : Msg} (h : m ∈ s.msgs) :
    m ∈ (s.sendClaim v d n q).msgs := by
  unfold State.sendClaim
  split
  · split
    · exact List.mem_append_left _ h
    · exact h
  · exact h

theorem State.mem_foldl_sendClaim (v : Slot) (d n : Nat) (cs : List ClaimReg) (s : State) {m : Msg} (h : m ∈ s.msgs) :
    m ∈ (cs.foldl (State.sendClaim v d n) s).msgs := by
  induction cs generalizing s with
  | nil => exact h
  | cons q cs ih => exact ih _ (s.mem_sendClaim v d n q h)

/-- Each claim is under way to its engine. -/
theorem State.claim_mem_foldl_sendClaim (v : Slot) {d : Nat} (hd : d < 8) (n : Nat) {cs : List ClaimReg} {q : ClaimReg} (hq : q ∈ cs)
    (h8 : q.die < 8) (s : State) :
    Msg.claim ⟨q.die, h8⟩ (v.claimMsg ⟨d, hd⟩ n q) ∈ (cs.foldl (State.sendClaim v d n) s).msgs := by
  induction cs generalizing s with
  | nil => cases hq
  | cons x cs ih =>
    rcases List.mem_cons.1 hq with rfl | hq
    · refine State.mem_foldl_sendClaim v d n cs _ ?_
      rw [State.sendClaim, dif_pos h8, dif_pos hd]
      exact List.mem_append_right _ List.mem_cons_self
    · exact ih hq _

theorem State.declare_u (s : State) (c : CoreId) (n : Nat) (cs : List ClaimReg) (borrow : Bool) :
    (s.declare c n cs borrow).u = (s.declared c n cs borrow).u := by
  rw [State.declare_eq]
  exact foldl_keeps State.u (State.sendClaim_u _ _ _) cs _

theorem State.declare_slot (s : State) (c : CoreId) (n : Nat) (cs : List ClaimReg) (borrow : Bool) :
    (s.declare c n cs borrow).slot (coreDie c) n =
      { s.slot (coreDie c) n with st := .declared, claims := cs, borrowed := borrow } := by
  have h : (s.declare c n cs borrow).slot (coreDie c) n = (s.declared c n cs borrow).slot (coreDie c) n := by
    unfold State.slot State.die
    rw [State.declare_u]
  have h' : (s.declared c n cs borrow).slot (coreDie c) n = (s.setSlot (coreDie c) n
      { s.slot (coreDie c) n with st := .declared, claims := cs, borrowed := borrow }).slot (coreDie c) n := by
    cases borrow <;> rfl
  rw [h, h', State.setSlot_slot, if_pos ⟨rfl, rfl⟩]

theorem State.declare_cores (s : State) (c : CoreId) (n : Nat) (cs : List ClaimReg) (borrow : Bool) :
    (s.declare c n cs borrow).u.cores = s.u.cores := by
  rw [State.declare_u]
  cases borrow <;> rfl

/-! ### The claim list (R115) -/

/-- TXN.CLAIMX, or TXN.CLAIM. -/
def claimInstr (wide : Bool) (c : CoreId) (t : Tail) : Instr := if wide then .txnClaimx c t else .txnClaim c t

theorem exec_claimInstr (wide : Bool) (c : CoreId) (t : Tail) (s : State) :
    exec (claimInstr wide c t) s = s.claiming c (claimInstr wide c t) t wide := by
  cases wide <;> rfl

theorem exec_claim_raises {s : State} {c : CoreId} (h : (s.core c).txn = none) (wide : Bool) (t : Tail) :
    Raises s c (claimInstr wide c t) .txnState 0 := by
  refine raises_of (exec_claimInstr wide c t s) fun x s1 hc => ?_
  rw [txn_of_txnView (carries_txnView hc (coreDie c)), h]

/-- The fields of the header of a claim list: its count, the capability register and the reserved positions. -/
theorem claimHeader_fields (w : Word) : (BitVec'.pos w 0 5).toNat = w.toNat / 2 ^ 31 ∧
    (BitVec'.pos w 5 3).toNat = w.toNat / 2 ^ 28 % 8 ∧ (BitVec'.pos w 8 28 = 0 ↔ w.toNat % 2 ^ 28 = 0) := by
  have hw := w.isLt
  unfold BitVec'.pos
  refine ⟨?_, ?_, ?_⟩
  · rw [BitVec.extractLsb'_toNat, Nat.shiftRight_eq_div_pow]
    omega
  · rw [BitVec.extractLsb'_toNat, Nat.shiftRight_eq_div_pow]
  · rw [← BitVec.toNat_inj, BitVec.extractLsb'_toNat, Nat.shiftRight_eq_div_pow, Nat.sub_self, pow_zero, Nat.div_one]
    rfl

theorem exec_claim_declares {s : State} {c : CoreId} {wide : Bool} {t : Tail} {x : Cur} {s1 : State} {n : Nat} {x1 x2 : Cur}
    {hd l : List Chr} {ps : List (AccPart × Option TlbEntry)} {count : Nat} {k : Cap}
    (hc : s.carries c (claimInstr wide c t) = some (x, s1)) (hn : (s1.core c).txn = some n) (hst : (s1.slot (coreDie c) n).st = .taken)
    (hh : s1.tryRead c x 0 [Tail.operand (s.regs c) t 4 4 .load] = .ok (x1, hd))
    (hcount : count = (Word.ofChars hd).toNat / 2 ^ 31) (hk : k = (s.regs c).cap ((Word.ofChars hd).toNat / 2 ^ 28 % 8))
    (h0 : 0 < count) (hmax : count ≤ if wide then 16 else 8) (hres : (Word.ofChars hd).toNat % 2 ^ 28 = 0)
    (hl : s1.tryRead c x1 1
      [{ cap := Tail.cap (s.regs c) t, va := Tail.va (s.regs c) t + 4, len := 4 * count, align := 4, need := .load }] = .ok (x2, l))
    (ha : ∀ o ∈ wordsOfChars l, (k.base + o.toNat) % 64 = 0)
    (hp : s1.checkOperands c x2.xlat (claimOperands k (s1.recLines (s1.slot (coreDie c) n).part.val) (wordsOfChars l)) = .ok ps)
    (hpool : wide = true → (s1.cluster (coreCluster c)).pool.length < 2) :
    exec (claimInstr wide c t) s = .next (s1.finish (s1.declare c n (mergeClaims ((cutRecords
      (s1.recLines (s1.slot (coreDie c) n).part.val) (wordsOfChars l).length (ps.map Prod.fst)).map
        (s1.claimLines (s1.slot (coreDie c) n).part.val (coreDie c)))) wide) c (claimInstr wide c t) none
          ((if wide then 7 + 5 * ((count + 1) / 2) else 4 + 3 * count) + Tail.cc t)) := by
  obtain ⟨hf0, hf5, hf8⟩ := claimHeader_fields (Word.ofChars hd)
  have hsmall : count ≤ 16 ∧ (8 < count → wide = true) := by
    cases wide
    · exact ⟨hmax.trans (by decide), fun h => absurd hmax (Nat.not_le.2 h)⟩
    · exact ⟨hmax, fun _ => rfl⟩
  have hformat : ¬ (16 < count ∨ (8 < count ∧ ¬ wide = true) ∨ BitVec'.pos (Word.ofChars hd) 8 28 ≠ 0) := by
    rintro (h | ⟨h, hw⟩ | h)
    · exact absurd hsmall.1 (Nat.not_le.2 h)
    · exact hw (hsmall.2 h)
    · exact h (hf8.2 hres)
  have haligned : (wordsOfChars l).findIdx? (fun o => decide ((k.base + o.toNat) % 64 ≠ 0)) = none :=
    List.findIdx?_eq_none_iff.2 fun o ho => by simp [ha o ho]
  have hroom : ¬ (wide && decide (2 ≤ (s1.cluster (coreCluster c)).pool.length)) = true := by
    cases wide
    · simp
    · simpa using hpool rfl
  have hnot : ¬ ((s1.slot (coreDie c) n).st = .aborted ∧
      (decide (x.rounds ≠ []) || decide (x.xlat ≠ []) || x.soft) = true) := by
    rw [hst]
    simp
  rw [exec_claimInstr, State.claiming, instr_carries hc, carries_regs hc]
  simp only [hn]
  rw [if_neg hnot, if_neg (not_not.2 hst), State.reading, hh]
  simp only [hf0, hf5, ← hcount, ← hk, if_neg hformat, if_neg h0.ne', State.reading, hl, haligned, hp, if_neg hroom]
  rfl

/-! ### The obligation -/

/-- Settles O39: one header and one list read, the records' distinct lines are claimed (`mergeClaims_distinct`,
`mergeClaims_covers`), and each claim is sent (`State.claim_mem_foldl_sendClaim`). -/
theorem claimDeclaration : Obligations.ClaimDeclaration := by
  intro s c t wide i r e
  refine ⟨fun h => exec_claim_raises h wide t, ?_, fun l => (mergeClaims_distinct l).1, fun l d n rest h => mergeClaims_covers h, ?_⟩
  · intro n x s1 x1 x2 hd l ps v w count k rec_ hc hn hst hh h0 hmax hres hl ha hp hpool
    exact exec_claim_declares hc hn hst hh rfl rfl h0 hmax hres hl ha hp hpool
  · intro n cs u
    have hslot := s.declare_slot c n cs wide
    refine ⟨by rw [hslot], by rw [hslot], by rw [hslot], s.declare_cores c n cs wide, fun q hq h he => ?_⟩
    exact ⟨_, State.claim_mem_foldl_sendClaim (s.slot e n) he n hq h _, rfl, rfl, rfl, rfl, rfl, rfl⟩

end Sys2Proof.Machine
end

section
/-! PROOF of O40: DPOST, DCAS and DACC up to their requests and entries (R121, R125, R126, R131). -/

namespace Sys2Proof.Machine

/-! ### DPOST and DCAS (R121, R126, R131) -/

/-- The field that a posting operation with control word w names at address va. -/
def postField (k : Cap) (va : Nat) (w : Word) (need : Need) : Operand :=
  { cap := k, va := va, len := postWidth w va, align := 4, need := need }

/-- A posting operation whose field has passed its checks: not issued in an aborted transaction, sent once the line is granted. -/
def State.postingAct (s : State) (c : CoreId) (u : Cur) (x : DReg) (w : Reg) (op : AccOp) (cc : Nat) (parts : List AccPart) : Act :=
  if s.txnAborted c then .done (s.updR c fun r => r.posted x w 8 0) none cc
  else if s.ungranted c parts then .wait s u true
  else .await (s.send c op false parts) u s.nextId

section
variable {s : State} {c : CoreId} {i : Instr} {x : DReg} {w : Reg} {k : CoreRegs → Cap} {off : CoreRegs → Nat}
  {op : CoreRegs → AccOp} {cc : Nat} {u : Cur} {s1 : State} {l : List (AccPart × Option TlbEntry)}

theorem exec_posting (he : exec i s = s.posting c i x w k off op cc) (hc : s.carries c i = some (u, s1)) (hu : u.post = none)
    (hl : s1.checkOperand c u.xlat (postField (k (s.regs c)) ((k (s.regs c)).base + off (s.regs c)) ((s.regs c).wr w) .post) =
      .ok l) :
    exec i s = .next (s1.settle c i (s1.postingAct c u x w (op (s.regs c)) cc (l.map Prod.fst))) := by
  unfold postField at hl
  rw [he, State.posting, instr_carries hc, hu, carries_regs hc]
  dsimp only
  rw [hl]
  rfl

theorem State.settle_postingAct_aborted (u : Cur) (x : DReg) (w : Reg) (op : AccOp) (cc : Nat) (parts : List AccPart)
    (h : s.txnAborted c = true) : s.settle c i (s.postingAct c u x w op cc parts) =
      s.finish (s.updR c fun q => q.setW w 8) c i none cc := by
  rw [State.postingAct, if_pos h]
  rfl

theorem State.settle_postingAct_granted (u : Cur) (x : DReg) (w : Reg) (op : AccOp) (cc : Nat) {parts : List AccPart}
    (h : s.txnAborted c = false) (hg : s.ungranted c parts = false) : s.settle c i (s.postingAct c u x w op cc parts) =
      (s.send c op false parts).updCore c fun z =>
        { z with cur := some { u with acc := some s.nextId, walk := none, gate := false } } := by
  rw [State.postingAct, if_neg (by simp [h]), if_neg (by simp [hg])]
  rfl

theorem State.settle_postingAct_ungranted (u : Cur) (x : DReg) (w : Reg) (op : AccOp) (cc : Nat) {parts : List AccPart}
    (h : s.txnAborted c = false) (hg : s.ungranted c parts = true) : s.settle c i (s.postingAct c u x w op cc parts) =
      s.updCore c fun z => { z.count (·.addFar 1) with
        cur := some { u with acc := none, walk := none, gate := false, soft := true } } := by
  rw [State.postingAct, if_neg (by simp [h]), if_pos hg]
  rfl

end

/-! ### DACC (R126) -/

theorem Slot.not_aborted_of_open {v : Slot} (h : v.st = .declared ∨ v.st = .granted) :
    ¬ v.st = .aborted ∧ ¬ (v.st ≠ .declared ∧ v.st ≠ .granted) := by
  rcases h with h | h <;> simp [h]

/-- The entry that DACC appends for its field, whose first part is q, on line `line` of die d. -/
def daccEntry (r : CoreRegs) (x : DReg) (w : Reg) (va : Nat) (q : AccPart) (d line : Nat) : DaccEntry :=
  { die := d, line := line, word := q.pa % 64 / 4, fw := ctlFw (r.wr w), x := r.dr x, va := va, key := q.key, sys := q.sys,
    waited := false }

/-- DACC, its field checked, in the transaction of slot n: the status 8, 6 or 9, or 0 with the entry appended. -/
def State.daccAct (s : State) (c : CoreId) (r : CoreRegs) (x : DReg) (w : Reg) (va n : Nat) (q : AccPart) : Act :=
  let v := s.slot (coreDie c) n
  let done (y : State) (status : Nat) : Act := .done (y.updR c fun r => r.setW w (BitVec.ofNat 36 status)) none 4
  if v.st = .aborted then done s 8
  else if v.st ≠ .declared ∧ v.st ≠ .granted then .fault .txnState 0
  else if badControl (r.wr w) (va % 64 / 4) true then done s 6
  else if 16 ≤ v.acc.length then done s 9
  else match s.target v.part.val (coreDie c) q.pa with
    | none => done s 6
    | some (d, line) => done (s.setSlot (coreDie c) n { v with acc := v.acc ++ [daccEntry r x w va q d line] }) 0

section
variable {s : State} {c : CoreId} {x : DReg} {w : Reg} {k : KReg} {o : PostOff} {u : Cur} {s1 : State} {n : Nat} {q : AccPart}

theorem exec_dacc {e : Option TlbEntry} {l : List (AccPart × Option TlbEntry)}
    (hc : s.carries c (.dacc c x w k o) = some (u, s1)) (hn : (s1.core c).txn = some n)
    (hl : s1.checkOperand c u.xlat
      (postField ((s.regs c).cap k.val) (((s.regs c).cap k.val).base + PostOff.chars o) ((s.regs c).wr w) .dacc) = .ok ((q, e) :: l)) :
    exec (.dacc c x w k o) s = .next (s1.settle c (.dacc c x w k o)
      (s1.daccAct c (s.regs c) x w (((s.regs c).cap k.val).base + PostOff.chars o) n q)) := by
  have he : exec (.dacc c x w k o) s = execDacc c x w k o s := rfl
  unfold postField at hl
  rw [he, execDacc, instr_carries hc, carries_regs hc]
  dsimp only
  rw [hl, hn]
  rfl

variable {r : CoreRegs} {va : Nat}

theorem State.daccAct_aborted (h : (s.slot (coreDie c) n).st = .aborted) :
    s.daccAct c r x w va n q = .done (s.updR c fun r => r.setW w 8) none 4 := if_pos h

section
variable (h : (s.slot (coreDie c) n).st = .declared ∨ (s.slot (coreDie c) n).st = .granted)
include h

theorem State.daccAct_badControl (hb : badControl (r.wr w) (va % 64 / 4) true = true) :
    s.daccAct c r x w va n q = .done (s.updR c fun r => r.setW w 6) none 4 := by
  obtain ⟨h1, h2⟩ := Slot.not_aborted_of_open h
  rw [State.daccAct, if_neg h1, if_neg h2, if_pos hb]
  rfl

variable (hb : badControl (r.wr w) (va % 64 / 4) true = false)
include hb

theorem State.daccAct_full (hf : 16 ≤ (s.slot (coreDie c) n).acc.length) :
    s.daccAct c r x w va n q = .done (s.updR c fun r => r.setW w 9) none 4 := by
  obtain ⟨h1, h2⟩ := Slot.not_aborted_of_open h
  rw [State.daccAct, if_neg h1, if_neg h2, if_neg (by simp [hb]), if_pos hf]
  rfl

theorem State.daccAct_appends (hf : (s.slot (coreDie c) n).acc.length < 16) {d line : Nat}
    (ht : s.target (s.slot (coreDie c) n).part.val (coreDie c) q.pa = some (d, line)) :
    s.daccAct c r x w va n q = .done ((s.setSlot (coreDie c) n { s.slot (coreDie c) n with
      acc := (s.slot (coreDie c) n).acc ++ [daccEntry r x w va q d line] }).updR c fun r => r.setW w 0) none 4 := by
  obtain ⟨h1, h2⟩ := Slot.not_aborted_of_open h
  rw [State.daccAct, if_neg h1, if_neg h2, if_neg (by simp [hb]), if_neg (Nat.not_le.2 hf), ht]
  rfl

end
end

/-! ### The obligation -/

/-- Settles O40: each instruction goes on with the checks of its field (`exec_posting`, `exec_dacc`), and each clause is one branch of
what it does then. -/
theorem postingInstructions : Obligations.PostingInstructions := by
  intro s c x y w k o t r field posting
  have hposting {i : Instr} {kf : CoreRegs → Cap} {off : CoreRegs → Nat} {op : CoreRegs → AccOp} {cc : Nat}
      (he : exec i s = s.posting c i x w kf off op cc) :
      posting i (postField (kf r) ((kf r).base + off r) (r.wr w) .post) (op r) cc := by
    intro u s1 l hc hu hl
    rw [exec_posting he hc hu hl]
    exact ⟨fun ha => congrArg Host.Outcome.next (State.settle_postingAct_aborted _ _ _ _ _ _ ha),
      fun ha hg => congrArg Host.Outcome.next (State.settle_postingAct_granted _ _ _ _ _ ha hg),
      fun ha hg => congrArg Host.Outcome.next (State.settle_postingAct_ungranted _ _ _ _ _ ha hg)⟩
  have hdcas : posting (.dcas c x y w t) (postField (Tail.cap r t) (Tail.va r t) (r.wr w) .post) (.dcas (r.wr w) (r.dr x) (r.dr y))
      (5 + Tail.cc t) :=
    hposting (kf := fun r => Tail.cap r t) (off := fun r => Tail.offset r t) (op := fun r => .dcas (r.wr w) (r.dr x) (r.dr y)) rfl
  have hdpost : posting (.dpost c x w k o) (postField (r.cap k.val) ((r.cap k.val).base + PostOff.chars o) (r.wr w) .post)
      (.dpost (r.wr w) (r.dr x)) 5 :=
    hposting (kf := fun r => r.cap k.val) (off := fun _ => PostOff.chars o) (op := fun r => .dpost (r.wr w) (r.dr x)) rfl
  refine ⟨hdpost, hdcas, ?_⟩
  intro u s1 n q e l d line va v hc hn hl ends
  have hnext {a : Act} (ha : s1.daccAct c r x w va n q = a) :
      exec (.dacc c x w k o) s = .next (s1.settle c (.dacc c x w k o) a) := by
    rw [exec_dacc hc hn hl]
    exact congrArg (fun a => Host.Outcome.next (s1.settle c (.dacc c x w k o) a)) ha
  exact ⟨fun h => hnext (State.daccAct_aborted h), fun h hb => hnext (State.daccAct_badControl h hb),
    fun h hb => ⟨fun hf => hnext (State.daccAct_full h hb hf), fun hf ht => hnext (State.daccAct_appends h hb hf ht)⟩⟩

end Sys2Proof.Machine
end

section
/-! PROOF of O41: TXN.RESPOND, TXN.COMMIT and TXN.ABORT up to the gate's answer (R129 to R131, R135, R137). -/

namespace Sys2Proof.Machine

/-! ### A core that carries an instruction out has no new access (R216) -/

theorem State.msixKey_accesses (s : State) (k : Nat) (o : Sent) : (s.msixKey k o).accesses = s.accesses := by
  unfold State.msixKey
  dsimp only
  split <;> rfl

@[simp] theorem State.event_accesses (s : State) (i : Nat) : (s.event i).accesses = s.accesses := by
  unfold State.event State.msix
  dsimp only
  split
  · split
    · split <;> exact State.msixKey_accesses _ _ _
    · rfl
  · rfl

@[simp] theorem State.logErr_accesses (s : State) (code sev die : Nat) (hub : Bool) (part unit : Nat) (w2 w3 : Word) :
    (s.logErr code sev die hub part unit w2 w3).accesses = s.accesses := by
  unfold State.logErr
  dsimp only
  split
  · exact State.event_accesses _ _
  · rfl

theorem State.correctedIn_accesses (s : State) (code c unit : Nat) (w2 w3 : Word) :
    (s.correctedIn code c unit w2 w3).accesses = s.accesses := State.logErr_accesses _ _ _ _ _ _ _ _ _

theorem State.fetchCorrected_accesses (s : State) (c n : Nat) : (s.fetchCorrected c n).accesses = s.accesses := by
  unfold State.fetchCorrected
  dsimp only
  refine (foldl_keeps State.accesses (fun x a => ?_) _ _).trans ?_
  · rw [State.correctedIn_accesses, State.updCluster_accesses]
  split
  · rw [State.correctedIn_accesses, State.updCore_accesses]
  · rfl

theorem State.rung_accesses (s : State) (c : Nat) : (s.rung c).accesses = s.accesses := by
  unfold State.rung
  split <;> rfl

theorem carries_accesses {s : State} {c i x s1} (h : s.carries c i = some (x, s1)) : s1.accesses = s.accesses := by
  unfold State.carries at h
  dsimp only at h
  split at h
  · cases h
  · split at h
    · split at h
      · cases h; rfl
      · cases h
    · split at h
      · cases h; rw [State.fetchCorrected_accesses, State.rung_accesses]
      · cases h

theorem carries_storesOut {s : State} {c i x s1} (h : s.carries c i = some (x, s1)) : s1.storesOut c = s.storesOut c := by
  rw [State.storesOut, carries_accesses h, State.storesOut]

/-! ### TXN.RESPOND (R130, R137) -/

/-- The transaction can still be resolved, or has been aborted (R135). -/
def Slot.unresolved (v : Slot) : Prop := (v.st = .taken ∨ v.st = .declared ∨ v.st = .granted) ∨ v.st = .aborted

/-- It can still be given a response. -/
theorem Slot.respondable {v : Slot} (hr : v.resp = none) (hst : v.unresolved) :
    ¬ (v.resp.isSome = true ∨ (v.st ≠ .taken ∧ v.st ≠ .declared ∧ v.st ≠ .granted ∧ v.st ≠ .aborted)) := by
  rcases hst with (h | h | h) | h <;> simp [hr, h]

/-- A response that has been placed is the slot's. -/
theorem State.placeResponse_resp {s y : State} {d n : Nat} {body : List Octet} (h : s.placeResponse d n body = some y) :
    (y.slot d n).resp = some body := by
  have hset (z : State) (v : Slot) : ((z.setSlot d n v).slot d n) = v := by rw [State.setSlot_slot, if_pos ⟨rfl, rfl⟩]
  unfold State.placeResponse at h
  dsimp only at h
  split at h
  · split at h
    · cases h; rw [hset]
    split at h
    · cases h; rw [hset]
    split at h
    · cases h
    · cases h; rw [hset]
  · split at h
    · cases h; rw [hset]
    split at h
    · cases h
    split at h
    · cases h
    · cases h; rw [hset]

/-- TXN.RESPOND with its response placed, or waiting for room. -/
def State.responds (s : State) (x : Cur) (placed : Option State) (cc : Nat) : Act :=
  match placed with
  | some y => .done y none cc
  | none => .wait s x false

section
variable {s : State} {c : CoreId} {l : Reg} {t : Tail}

theorem exec_txnRespond_noTxn (h : (s.core c).txn = none) : Raises s c (.txnRespond c l t) .txnState 0 := by
  refine raises_of rfl fun x s1 hc => ?_
  rw [txn_of_txnView (carries_txnView hc (coreDie c)), h]

variable {n : Nat} (hn : (s.core c).txn = some n)
include hn

theorem exec_txnRespond_twice (h : (s.slot (coreDie c) n).resp.isSome = true) : Raises s c (.txnRespond c l t) .txnState 0 := by
  refine raises_of rfl fun x s1 hc => ?_
  have hv := carries_txnView hc (coreDie c)
  rw [txn_of_txnView hv, hn]
  dsimp only
  rw [slot_of_txnView hv, if_pos (.inl h)]

variable (hr : (s.slot (coreDie c) n).resp = none) (hst : (s.slot (coreDie c) n).unresolved)
include hr hst

theorem exec_txnRespond_length (h : ((s.regs c).wr l).toNat = 0 ∨ 2048 < ((s.regs c).wr l).toNat) :
    Raises s c (.txnRespond c l t) .responseLength 0 := by
  refine raises_of rfl fun x s1 hc => ?_
  have hv := carries_txnView hc (coreDie c)
  rw [txn_of_txnView hv, hn]
  dsimp only
  rw [slot_of_txnView hv, if_neg (Slot.respondable hr hst), carries_regs hc, if_pos h]

theorem exec_txnRespond {x : Cur} {s1 : State} {x1 : Cur} {ch : List Chr} (h0 : 0 < ((s.regs c).wr l).toNat)
    (hmax : ((s.regs c).wr l).toNat ≤ 2048) (hc : s.carries c (.txnRespond c l t) = some (x, s1))
    (hread : s1.tryRead c x 0 [Tail.operand (s.regs c) t ((s.regs c).wr l).toNat 0 .load] = .ok (x1, ch)) :
    exec (.txnRespond c l t) s = .next (s1.settle c (.txnRespond c l t)
      (if (s.slot (coreDie c) n).st = .aborted then .done s1 none (6 + Tail.cc t)
      else s1.responds x1 (s1.placeResponse (coreDie c) n (octetsOfChars ch)) (6 + Tail.cc t))) := by
  have he : exec (.txnRespond c l t) s = execTxnRespond c l t s := rfl
  have hv := carries_txnView hc (coreDie c)
  have hlen : ¬ (((s.regs c).wr l).toNat = 0 ∨ 2048 < ((s.regs c).wr l).toNat) := by omega
  rw [he, execTxnRespond, instr_carries hc, txn_of_txnView hv, hn]
  dsimp only
  rw [slot_of_txnView hv, if_neg (Slot.respondable hr hst), carries_regs hc, if_neg hlen, State.reading, hread]
  rfl

end

/-! ### TXN.COMMIT and TXN.ABORT (R129, R130) -/

/-- TXN.ABORT, or TXN.COMMIT. -/
def resolveInstr (abort : Bool) (c : CoreId) (ws : Reg) : Instr := if abort then .txnAbort c ws else .txnCommit c ws

theorem exec_resolveInstr (abort : Bool) (c : CoreId) (ws : Reg) (s : State) :
    exec (resolveInstr abort c ws) s = s.resolving c (resolveInstr abort c ws) ws abort := by
  cases abort <;> rfl

section
variable {s : State} {c : CoreId} {abort : Bool} {ws : Reg}

theorem exec_resolve_noTxn (h : (s.core c).txn = none) : Raises s c (resolveInstr abort c ws) .txnState 0 := by
  refine raises_of (exec_resolveInstr abort c ws s) fun x s1 hc => ?_
  rw [txn_of_txnView (carries_txnView hc (coreDie c)), h]

variable {n : Nat} (hn : (s.core c).txn = some n)
include hn

/-- With its claims granted and its stores performed, the transaction is put to the gate. -/
theorem exec_resolve_asks (hst : (s.slot (coreDie c) n).st = .taken ∨ (s.slot (coreDie c) n).st = .declared ∨
      (s.slot (coreDie c) n).st = .granted)
    (hg : ∀ q ∈ (s.slot (coreDie c) n).claims, q.granted = true) (hout : s.storesOut c = false) {x : Cur} {s1 : State}
    (hd : coreDie c < 8) (hc : s.carries c (resolveInstr abort c ws) = some (x, s1)) :
    exec (resolveInstr abort c ws) s = .next (((s1.setSlot (coreDie c) n { s.slot (coreDie c) n with st := .resolving }).post
      (.resolve ⟨coreDie c, hd⟩ n (s.slot (coreDie c) n).pos (if abort then .abort else .commit))).updCore c fun k =>
        { k with cur := some { x with acc := none, walk := none, gate := true } }) := by
  have hv := carries_txnView hc (coreDie c)
  have hready : ¬ (!(s.slot (coreDie c) n).allGranted || s1.storesOut c) = true := by
    rw [carries_storesOut hc, hout, Slot.allGranted, List.all_eq_true.2 hg]
    decide
  rw [exec_resolveInstr, State.resolving, instr_carries hc, txn_of_txnView hv, hn]
  dsimp only
  rw [slot_of_txnView hv]
  rcases hst with h | h | h <;>
  · rw [h]
    dsimp only
    rw [if_neg hready, dif_pos hd]
    rfl

/-- A transaction whose outcome is known ends with it. -/
theorem exec_resolve_ends {o : Outcome} (hst : (s.slot (coreDie c) n).st = .aborted ∨ (s.slot (coreDie c) n).st = .committed)
    (ho : (s.slot (coreDie c) n).outcome = some o) : Ends s c (resolveInstr abort c ws) 8 none fun z =>
      (z.updR c fun r => r.setW ws (resolveResult abort n o)).letGo c n := by
  refine ends_of (exec_resolveInstr abort c ws s) fun x s1 hc => ?_
  have hv := carries_txnView hc (coreDie c)
  rw [txn_of_txnView hv, hn]
  dsimp only
  rw [slot_of_txnView hv, ho]
  rcases hst with h | h <;> rw [h]

end

/-- Freeing a slot leaves the cores alone. -/
theorem State.tryFree_core (s : State) (d n m : Nat) : (s.tryFree d n).core m = s.core m := by
  have h := congrArg (fun z : State => z.core m) (s.tryFree_beyondDies d n)
  exact h

/-- A core that lets go of its transaction holds none. -/
theorem State.letGo_core (s : State) (c : CoreId) (n m : Nat) :
    (s.letGo c n).core m = if m = c.val then { s.core c with txn := none } else s.core m := by
  unfold State.letGo
  rw [State.tryFree_core, State.updCore_core]
  rfl

/-! ### The obligation -/

/-- Settles O41: what the core sees of its transaction is as before the instruction (`carries_txnView`), so each clause is one branch of
the instruction's own part. -/
theorem transactionEnd : Obligations.TransactionEnd := by
  intro s c l ws t r e len open_
  refine ⟨fun h => ⟨exec_txnRespond_noTxn h, exec_resolve_noTxn (abort := false) h, exec_resolve_noTxn (abort := true) h⟩, ?_⟩
  intro n hn v
  refine ⟨exec_txnRespond_twice hn, fun hr hst => ⟨exec_txnRespond_length hn hr hst, ?respond⟩, ?resolve, ?letGo⟩
  case respond =>
    intro h0 hmax x s1 x1 ch hc hread
    rw [exec_txnRespond hn hr hst h0 hmax hc hread]
    refine ⟨fun ha => by rw [if_pos ha]; rfl, fun ha y hy => ⟨?_, State.placeResponse_resp hy⟩⟩
    have hy' : s1.placeResponse (coreDie c) n (octetsOfChars ch) = some y := hy
    rw [if_neg ha, hy']
    rfl
  case resolve =>
    intro abort i
    exact ⟨fun hst hg hout x s1 hd hc => exec_resolve_asks hn hst hg hout hd hc, fun o hst ho => exec_resolve_ends hn hst ho⟩
  case letGo => rw [State.letGo_core, if_pos rfl]

end Sys2Proof.Machine
end

section
/-! PROOF of O48: the posting unit's operations at their line, their results at the core, and DACC at commit (R122, R125 to R128,
R134). -/

namespace Sys2Proof.Machine

/-! ### What the posting unit answers (R126) -/

theorem fitsDigits_iff (k : Nat) (v : Int) : fitsDigits k v = true ↔ v.natAbs < 10 ^ k := decide_eq_true_iff

/-- The limit of DPOST: without CHECK any, else the field that the control word names. -/
def postLimit (ctl : Word) (ch : List Chr) : Option Int :=
  if ctlCheck ctl = 0 then some 0 else packedValue (lineWords ch (ctlLword ctl) (ctlLw ctl))

/-- The sum m of DPOST keeps to its limit. -/
def withinLimit (ctl : Word) (lim m : Int) : Prop := (ctlCheck ctl = 1 → lim ≤ m) ∧ (ctlCheck ctl = 2 → m ≤ lim)

/-- DPOST on a field that holds a number, with a limit that is one. -/
theorem postOutcome_dpost {ctl : Word} {x old lim : Int} {f : Nat} {ch : List Chr}
    (ho : packedValue (lineWords ch f (ctlFw ctl)) = some old) (hl : postLimit ctl ch = some lim) :
    ((postOutcome (.dpost ctl x) f ch).2.2 = some (old + x) ∧ (postOutcome (.dpost ctl x) f ch).1 = 0 ∧
        (old + x).natAbs < 10 ^ (9 * ctlFw ctl - 1) ∧ withinLimit ctl lim (old + x)) ∨
      ((postOutcome (.dpost ctl x) f ch).2.2 = none ∧
        ¬ ((old + x).natAbs < 10 ^ (9 * ctlFw ctl - 1) ∧ withinLimit ctl lim (old + x))) := by
  unfold postLimit at hl
  unfold postOutcome withinLimit
  simp only [ho, hl]
  by_cases hfit : fitsDigits (9 * ctlFw ctl - 1) (old + x) = true
  · rw [if_neg (by simp [hfit])]
    by_cases h1 : ctlCheck ctl = 1 ∧ old + x < lim
    · rw [if_pos h1]
      exact .inr ⟨rfl, fun h => absurd (h.2.1 h1.1) (not_le.2 h1.2)⟩
    rw [if_neg h1]
    by_cases h2 : ctlCheck ctl = 2 ∧ lim < old + x
    · rw [if_pos h2]
      exact .inr ⟨rfl, fun h => absurd (h.2.2 h2.1) (not_le.2 h2.2)⟩
    rw [if_neg h2]
    exact .inl ⟨rfl, rfl, (fitsDigits_iff _ _).1 hfit, fun h => not_lt.1 fun h' => h1 ⟨h, h'⟩, fun h => not_lt.1 fun h' => h2 ⟨h, h'⟩⟩
  · rw [if_pos (by simpa using hfit)]
    exact .inr ⟨rfl, fun h => hfit ((fitsDigits_iff _ _).2 h.1)⟩

/-- DPOST without such a number changes nothing. -/
theorem postOutcome_dpost_data {ctl : Word} {x : Int} {f : Nat} {ch : List Chr}
    (h : packedValue (lineWords ch f (ctlFw ctl)) = none ∨ postLimit ctl ch = none) :
    (postOutcome (.dpost ctl x) f ch).2.2 = none := by
  unfold postLimit at h
  unfold postOutcome
  dsimp only
  split
  next ho hl =>
    rcases h with h | h
    · rw [h] at ho; cases ho
    · rw [h] at hl; cases hl
  next => rfl

/-- DPOST changes its field exactly to the sum, where it fits and keeps to the limit. -/
theorem postOutcome_dpost_iff (ctl : Word) (x v : Int) (f : Nat) (ch : List Chr) :
    ((postOutcome (.dpost ctl x) f ch).2.2 = some v ↔
      ∃ old lim, packedValue (lineWords ch f (ctlFw ctl)) = some old ∧ postLimit ctl ch = some lim ∧ v = old + x ∧
        v.natAbs < 10 ^ (9 * ctlFw ctl - 1) ∧ withinLimit ctl lim v) ∧
    ((postOutcome (.dpost ctl x) f ch).2.2 = some v → (postOutcome (.dpost ctl x) f ch).1 = 0) := by
  cases ho : packedValue (lineWords ch f (ctlFw ctl)) with
  | none => simp [postOutcome_dpost_data (x := x) (.inl ho)]
  | some old =>
    cases hl : postLimit ctl ch with
    | none => simp [postOutcome_dpost_data (x := x) (.inr hl)]
    | some lim =>
      rcases postOutcome_dpost (x := x) ho hl with ⟨hr, hst, hfit, hlim⟩ | ⟨hr, hno⟩
      · rw [hr]
        refine ⟨⟨fun h => ?_, ?_⟩, fun _ => hst⟩
        · cases h
          exact ⟨old, lim, rfl, rfl, rfl, hfit, hlim⟩
        · rintro ⟨_, _, ⟨⟩, -, rfl, -⟩
          rfl
      · rw [hr]
        refine ⟨⟨fun h => (by cases h), ?_⟩, fun h => (by cases h)⟩
        rintro ⟨_, _, ⟨⟩, ⟨⟩, rfl, h⟩
        exact absurd h hno

/-- A limit that holds is one that CHECK asks for. -/
theorem exists_limit_iff (ctl : Word) (ch : List Chr) (v : Int) :
    (∃ lim, postLimit ctl ch = some lim ∧ withinLimit ctl lim v) ↔
      (ctlCheck ctl ≠ 0 → ∃ m, packedValue (lineWords ch (ctlLword ctl) (ctlLw ctl)) = some m ∧ withinLimit ctl m v) := by
  unfold postLimit
  by_cases h0 : ctlCheck ctl = 0
  · rw [if_pos h0]
    exact ⟨fun _ h => absurd h0 h, fun _ => ⟨0, rfl, by simp [withinLimit, h0]⟩⟩
  · rw [if_neg h0]
    exact ⟨fun h _ => h, fun h => h h0⟩

/-- DCAS changes its field exactly where it holds the comparand. -/
theorem postOutcome_dcas_iff (ctl : Word) (x y v : Int) (f : Nat) (ch : List Chr) :
    ((postOutcome (.dcas ctl x y) f ch).2.2 = some v ↔
      packedValue (lineWords ch f (ctlFw ctl)) = some x ∧ v = y ∧ v.natAbs < 10 ^ (9 * ctlFw ctl - 1)) ∧
    ((postOutcome (.dcas ctl x y) f ch).2.2 = some v → (postOutcome (.dcas ctl x y) f ch).1 = 0) ∧
    ((postOutcome (.dcas ctl x y) f ch).2.2 = none → (postOutcome (.dcas ctl x y) f ch).1 ≠ 0) := by
  unfold postOutcome
  dsimp only
  cases ho : packedValue (lineWords ch f (ctlFw ctl)) with
  | none => simp
  | some old =>
    dsimp only
    by_cases hx : old = x
    · rw [if_neg (not_not.2 hx), hx]
      by_cases hfit : fitsDigits (9 * ctlFw ctl - 1) y = true
      · rw [if_neg (by simp [hfit])]
        have hy := (fitsDigits_iff _ _).1 hfit
        refine ⟨⟨fun h => ?_, fun ⟨_, h, _⟩ => by rw [h]⟩, fun _ => rfl, fun h => by cases h⟩
        cases h
        exact ⟨rfl, rfl, hy⟩
      · rw [if_pos (by simpa using hfit)]
        have hy := fun h => hfit ((fitsDigits_iff _ _).2 h)
        refine ⟨⟨fun h => (by cases h), ?_⟩, fun h => (by cases h), fun _ => Nat.succ_ne_zero 2⟩
        rintro ⟨-, rfl, h⟩
        exact absurd h hy
    · rw [if_pos hx]
      exact ⟨⟨fun h => (by cases h), fun ⟨h, _⟩ => absurd (Option.some.inj h) hx⟩, fun h => (by cases h), fun _ => Nat.succ_ne_zero 4⟩

/-- A posting operation that changes its field leaves a value that fits, with status 0. -/
theorem postOutcome_changes {op : AccOp} {ctl : Word} {no : Bool} (hop : op.ctl = some (ctl, no)) {f : Nat} {ch : List Chr} {v : Int}
    (h : (postOutcome op f ch).2.2 = some v) : (postOutcome op f ch).1 = 0 ∧ v.natAbs < 10 ^ (9 * ctlFw ctl - 1) := by
  cases op with
  | dpost w x =>
    cases hop
    obtain ⟨hiff, hst⟩ := postOutcome_dpost_iff ctl x v f ch
    obtain ⟨_, _, _, _, _, hfit, _⟩ := hiff.1 h
    exact ⟨hst h, hfit⟩
  | dcas w x y =>
    cases hop
    obtain ⟨hiff, hst, _⟩ := postOutcome_dcas_iff ctl x y v f ch
    exact ⟨hst h, (hiff.1 h).2.2⟩
  | _ => cases hop

/-! ### A field of a line written (R122, R239) -/

/-- The characters of a field of fw words. -/
def fieldChars (fw : Nat) (v : Int) : List Chr := (packWords fw v).flatMap Word.chars

theorem fieldChars_length (fw : Nat) (v : Int) : (fieldChars fw v).length = 4 * fw := by
  have h : ∀ l : List Word, (l.flatMap Word.chars).length = 4 * l.length := by
    intro l
    induction l with
    | nil => rfl
    | cons w l ih =>
      rw [List.flatMap_cons, List.length_append, ih, List.length_cons]
      change 4 + 4 * l.length = _
      omega
  rw [fieldChars, h, packWords, List.length_map, List.length_range]

/-- Of the ledger memories, t differs from s in the field of fw words from character at_ of line l of die d only, which holds v. -/
def State.FieldChanged (s t : State) (d l fw at_ : Nat) (v : Int) : Prop :=
  (∀ j < 4 * fw, Sparse.get 0 (t.die d).m.mem (64 * l + at_ + j) = (fieldChars fw v).getD j 0) ∧
  ∀ f b, (f ≠ d ∨ b < 64 * l + at_ ∨ 64 * l + at_ + 4 * fw ≤ b) → Sparse.get 0 (t.die f).m.mem b = Sparse.get 0 (s.die f).m.mem b

/-- A field is written over a state with the memories of s. -/
theorem State.fieldChanged_putChars {s y : State} (hm : ∀ e, (y.die e).m.mem = (s.die e).m.mem) (d l fw at_ : Nat) (v : Int) :
    s.FieldChanged (y.putChars d l at_ (fieldChars fw v)) d l fw at_ v := by
  have h := putChars_stored hm d l at_ (fieldChars fw v)
  rwa [fieldChars_length] at h

theorem State.FieldChanged.congr {s t t' : State} {d l fw at_ : Nat} {v : Int} (h : s.FieldChanged t d l fw at_ v)
    (hm : ∀ e, (t'.die e).m.mem = (t.die e).m.mem) : s.FieldChanged t' d l fw at_ v := by
  unfold State.FieldChanged
  simp only [hm]
  exact h

/-- The state with the before-image of a line saved, where the owner has none yet. -/
def State.imaged (s : State) (d l : Nat) (p : PartId) (epoch : Nat) (owner : Option (DieId × Nat)) (want : Image → Bool) : State :=
  if s.needsImage d l want then s.saveImage d l p epoch owner false else s

theorem State.imaged_mem (s : State) (d l : Nat) (p : PartId) (epoch : Nat) (owner : Option (DieId × Nat)) (want : Image → Bool)
    (e : Nat) : ((s.imaged d l p epoch owner want).die e).m.mem = (s.die e).m.mem := by
  unfold State.imaged
  split
  · exact s.saveImage_mem ..
  · rfl

theorem State.imaged_accesses (s : State) (d l : Nat) (p : PartId) (epoch : Nat) (owner : Option (DieId × Nat)) (want : Image → Bool) :
    (s.imaged d l p epoch owner want).accesses = s.accesses := by
  unfold State.imaged
  split <;> rfl

/-! ### DPOST and DCAS at their line (R55, R122, R125, R126, R134) -/

section
variable {s : State} {id d l : Nat} {a : Access} {q : AccPart} {ctl : Word} {no : Bool} (ha : s.findAccess id = some a)

/-- A posting operation that has its result. -/
theorem State.findAccess_posted {y : State} (hy : y.accesses = s.accesses) (ha : s.findAccess id = some a) (st : Nat) (dx : Int) :
    ((y.updAccess id fun z => { z with st := .posted st dx }).findAccess id).map Access.st = some (.posted st dx) := by
  have hfind : y.findAccess id = some a := by rw [State.findAccess, hy]; exact ha
  rw [State.findAccess_updAccess (f := fun z => { z with st := .posted st dx }) hfind fun _ => rfl]
  rfl

theorem State.memErr_accesses (s : State) (c : Nat) (slot : Option Nat) : (s.memErr c slot).accesses = s.accesses := by
  unfold State.memErr
  split
  · split <;> rfl
  · rfl

theorem State.memErr_u (s : State) (c : Nat) (slot : Option Nat) : (s.memErr c slot).u = s.u := by
  unfold State.memErr
  split
  · split <;> rfl
  · rfl

/-- What the posting unit makes of an operation whose line it may work on. -/
def State.postOn (s : State) (id : Nat) (a : Access) (q : AccPart) (d l : Nat) (ctl : Word) (no : Bool) : State :=
  let posted (x : State) (st : Nat) : State := x.updAccess id fun z => { z with st := .posted st 0 }
  if badControl ctl (q.pa % 64 / 4) no then posted s 6
  else if (s.lineInfo d l).poison then posted (s.memErr a.core a.slot) 7
  else
    let r := postOutcome a.op (q.pa % 64 / 4) (s.lineChars d l)
    if r.2.2.isSome && s.storeNeedsRoom a { q with claimed := true } d l then
      if a.waited then s else (s.countImageWait a.part).updAccess id fun x => { x with waited := true }
    else s.postAt a q d l (ctlFw ctl) r

include ha

theorem exec_postingRequest_reaches (hst : a.st = .admitted) (hq : a.parts = [q]) (hop : a.op.ctl = some (ctl, no))
    (ht : s.target a.part.val (coreDie a.core) q.pa = some (d, l)) (hd : s.alive d = true) (hfree : s.earlierOut a d l = false)
    (hrep : s.underRepair d l = false) (hrow : s.rowWaits d l = false) (hkey : q.key = 0 ∨ q.key = s.lineKey d l)
    (hcap : (s.lineInfo d l).capline = false) :
    exec (.postingRequest id .clean) s = .next (s.postOn id a q d l ctl no) := by
  have he : exec (.postingRequest id .clean) s = execPostingRequest id .clean s := rfl
  rw [he, execPostingRequest]
  simp only [ha, hst, hq, hop, ht, hd, hfree, hrep, hrow, State.readTags_clean, (keyMatches_iff _ _).2 hkey, hcap,
    State.readSymbols_clean, Bool.not_true, Bool.false_eq_true, Bool.or_self, if_false]
  rfl

theorem State.postOn_badControl (hb : badControl ctl (q.pa % 64 / 4) no = true) :
    ((s.postOn id a q d l ctl no).findAccess id).map Access.st = some (.posted 6 0) ∧
      (s.postOn id a q d l ctl no).u.dies = s.u.dies := by
  rw [State.postOn, if_pos hb]
  exact ⟨State.findAccess_posted rfl ha 6 0, rfl⟩

variable (hb : badControl ctl (q.pa % 64 / 4) no = false)
include hb

theorem State.postOn_poisoned (hp : (s.lineInfo d l).poison = true) :
    ((s.postOn id a q d l ctl no).findAccess id).map Access.st = some (.posted 7 0) ∧
      (s.postOn id a q d l ctl no).u.dies = s.u.dies := by
  rw [State.postOn, if_neg (by simp [hb]), if_pos hp]
  exact ⟨State.findAccess_posted (s.memErr_accesses _ _) ha 7 0, congrArg Units.dies (s.memErr_u _ _)⟩

variable (hp : (s.lineInfo d l).poison = false)
include hp

/-- An operation that changes nothing answers its status and the old value. -/
theorem State.postOn_unchanged (hr : (postOutcome a.op (q.pa % 64 / 4) (s.lineChars d l)).2.2 = none) :
    ((s.postOn id a q d l ctl no).findAccess id).map Access.st =
        some (.posted (postOutcome a.op (q.pa % 64 / 4) (s.lineChars d l)).1 (postOutcome a.op (q.pa % 64 / 4) (s.lineChars d l)).2.1) ∧
      (s.postOn id a q d l ctl no).u.dies = s.u.dies := by
  have hid := State.id_of_findAccess ha
  rw [State.postOn, if_neg (by simp [hb]), if_neg (by simp [hp])]
  dsimp only
  rw [hr, State.postAt, hr]
  subst hid
  exact ⟨State.findAccess_posted rfl ha _ _, rfl⟩

/-- An operation that changes its field saves the line's image first (R122). -/
theorem State.postOn_changes {n : Nat} {v : Int} (hr : (postOutcome a.op (q.pa % 64 / 4) (s.lineChars d l)).2.2 = some v)
    (hn : a.slot = some n) (hjoin : (s.partn a.part.val).joinEpoch = none)
    (hroom : s.storeNeedsRoom a { q with claimed := true } d l = false) : s.postOn id a q d l ctl no =
      (((s.imaged d l a.part (s.slotEpoch (s.slot (coreDie a.core) n)) (some (⟨coreDie a.core, coreDie_lt a.core⟩, n))
        (s.ownImage (coreDie a.core) n)).putChars d l (4 * (q.pa % 64 / 4)) (fieldChars (ctlFw ctl) v)).updAccess id fun x =>
          { x with st := .posted (postOutcome a.op (q.pa % 64 / 4) (s.lineChars d l)).1
                                 (postOutcome a.op (q.pa % 64 / 4) (s.lineChars d l)).2.1 }) := by
  have hid := State.id_of_findAccess ha
  rw [State.postOn, if_neg (by simp [hb]), if_neg (by simp [hp])]
  dsimp only
  rw [hroom, Bool.and_false, if_neg Bool.false_ne_true, State.postAt, hr, hn, hid]
  dsimp only
  rw [dif_pos (coreDie_lt a.core), State.joinImage, hjoin, Nat.mul_comm]
  rfl

end

/-! ### The operation's result at its core (R126) -/

/-- The loop test at the end of an instruction changes no decimal register, and the core keeps its transaction. -/
theorem State.loopEnd_decimals (s0 s : State) (c : Nat) (k : Core) (i : Instr) (n : Nat) :
    (s0.loopEnd s c k i n).r.d = k.r.d ∧ (s0.loopEnd s c k i n).txn = k.txn := by
  unfold State.loopEnd
  dsimp only
  split
  · exact ⟨rfl, rfl⟩
  split
  · split <;> exact ⟨rfl, rfl⟩
  · split <;> exact ⟨rfl, rfl⟩

/-- An instruction that does not branch ends with the decimal registers and the transaction that its own part has left. -/
theorem State.finish_decimals (s0 s : State) (c : CoreId) (i : Instr) (cc : Nat) :
    (∀ d, ((s0.finish s c i none cc).regs c).dr d = (s.regs c).dr d) ∧ ((s0.finish s c i none cc).core c).txn = (s.core c).txn := by
  have hk (k : Core) (hd : k.r.d = (s.core c).r.d) (ht : k.txn = (s.core c).txn) :
      (∀ d, (s0.loopEnd s c k i (encode i).length).r.dr d = (s.core c).r.dr d) ∧
        (s0.loopEnd s c k i (encode i).length).txn = (s.core c).txn := by
    obtain ⟨hd', ht'⟩ := s0.loopEnd_decimals s c k i (encode i).length
    exact ⟨fun d => by rw [CoreRegs.dr, hd', hd, CoreRegs.dr], ht'.trans ht⟩
  unfold State.regs State.finish
  dsimp only
  rw [State.setCore_core, if_pos rfl]
  cases (s0.core c).r.shadow with
  | none => exact hk _ rfl rfl
  | some h => exact hk _ rfl rfl

theorem CoreRegs.posted_wr (r : CoreRegs) (x : DReg) (w : Reg) (st : Nat) (v : Int) :
    (r.posted x w st v).wr w = BitVec.ofNat 36 st := by
  have h : (r.setW w (BitVec.ofNat 36 st)).wr w = BitVec.ofNat 36 st := by rw [CoreRegs.setW_wr, if_pos rfl]
  unfold CoreRegs.posted
  dsimp only
  split
  · exact h
  · exact h

theorem CoreRegs.posted_dr (r : CoreRegs) (x : DReg) (w : Reg) (st : Nat) (v : Int) :
    (r.posted x w st v).dr x = if st = 8 then r.dr x else v := by
  unfold CoreRegs.posted
  dsimp only
  split
  · rfl
  · rw [CoreRegs.setD_dr, if_pos rfl]

/-- A DPOST that takes up its result is complete: its registers hold it, and nothing but its core has changed. -/
theorem goOn_dpost {s : State} {c : CoreId} {x : Cur} {dx : DReg} {w : Reg} {k : KReg} {o : PostOff} {st : Nat} {v : Int} (cc : Nat)
    (hi : x.instr = .dpost c dx w k o) (hx : x.post = some (st, v)) (hl : (s.core c).live = true)
    (hbad : (s.core c).regBad = false) :
    ((s.goOn c x cc).regs c).wr w = BitVec.ofNat 36 st ∧
      ((s.goOn c x cc).regs c).dr dx = (if st = 8 then (s.regs c).dr dx else v) ∧ ((s.goOn c x cc).core c).cur = none ∧
      (s.goOn c x cc).accesses = s.accesses ∧ (s.goOn c x cc).u.dies = s.u.dies := by
  have hcarries := State.carries_of_takesUp x cc hl hbad
  have hpost : x.byItself.post = some (st, v) := hx
  have hregs : (s.takesUp c x cc).regs c = { s.regs c with cnt := (s.regs c).cnt.addFar cc } := by
    rw [State.regs, State.takesUp_core]
    rfl
  rw [hi] at hcarries
  have hgo : s.goOn c x cc = (s.takesUp c x cc).finish ((s.takesUp c x cc).updR c fun r => r.posted dx w st v) c
      (.dpost c dx w k o) none 5 := by
    rw [State.goOn_eq_again, hi]
    have he : (s.takesUp c x cc).again (.dpost c dx w k o) = stateOr (s.takesUp c x cc) (execDpost c dx w k o (s.takesUp c x cc)) :=
      rfl
    rw [he, execDpost, State.posting, instr_carries hcarries, hpost]
    rfl
  rw [hgo]
  obtain ⟨hwr, hcur⟩ := State.finish_keeps (s.takesUp c x cc) ((s.takesUp c x cc).updR c fun r => r.posted dx w st v) c
    (.dpost c dx w k o) 5
  obtain ⟨hdr, -⟩ := State.finish_decimals (s.takesUp c x cc) ((s.takesUp c x cc).updR c fun r => r.posted dx w st v) c
    (.dpost c dx w k o) 5
  refine ⟨(hwr w).trans ?_, (hdr dx).trans ?_, hcur, ?_, ?_⟩
  · rw [State.updR_regs, if_pos rfl, CoreRegs.posted_wr]
  · rw [State.updR_regs, if_pos rfl, CoreRegs.posted_dr, hregs]
    rfl
  · simp [State.finish, State.takesUp]
  · simp [State.finish, State.takesUp]

theorem exec_postingResult {s : State} {id cc st : Nat} {v : Int} {a : Access} {x : Cur} (ha : s.findAccess id = some a)
    (hst : a.st = .posted st v) (hx : (s.core a.core).cur = some x) (hacc : x.acc = some id) : exec (.postingResult id cc) s =
      .next ((s.dropAccess id).goOn a.core { x with post := some (st, v) } cc) := by
  have he : exec (.postingResult id cc) s = execPostingResult id cc s := rfl
  rw [he, execPostingResult]
  simp only [ha, hst, Core.awaiting_of_acc hx hacc]

/-! ### DACC at commit (R127, R128) -/

/-- A DACC entry that may be applied is. -/
theorem exec_daccApply {s : State} {die : DieId} {c : CoreId} {ep : Nat} {p : PartId} {x : DaccEntry}
    {rest : List (CoreId × Nat × PartId × DaccEntry)} (hd : (s.die die).m.dacc = (c, ep, p, x) :: rest)
    (hw : s.outerWaits die x.line = false)
    (hv : (s.verdict { part := p, die := die, sys := x.sys, anyPart := false } (linePa die x.line + 4 * x.word) .acc true).reason = 0)
    (hkey : x.key = 0 ∨ x.key = s.lineKey die x.line) (hp : (s.lineInfo die x.line).poison = false)
    (hroom : s.imageRoom die = true) : exec (.daccApply die .clean) s = .next (s.daccAdd die (c, ep, p, x)) := by
  have he : exec (.daccApply die .clean) s = execDaccApply die .clean s := rfl
  rw [he, execDaccApply, hd, List.find?_cons_of_pos (by simp [hw])]
  simp [hv, State.readTags_clean, State.readSymbols_clean, (keyMatches_iff _ _).2 hkey, hp, hroom]

/-- An entry that is added or skipped is the first of those left. -/
theorem State.dropDacc_die (s : State) (d : Nat) (e : CoreId × Nat × PartId × DaccEntry) :
    (s.dropDacc d e).die d = { s.die d with m := { (s.die d).m with dacc := (s.die d).m.dacc.erase e } } := by
  rw [State.dropDacc, State.updDie_die, if_pos rfl]

theorem State.dropDacc_mem (s : State) (d : Nat) (e : CoreId × Nat × PartId × DaccEntry) (f : Nat) :
    ((s.dropDacc d e).die f).m.mem = (s.die f).m.mem := by
  rw [State.dropDacc, State.updDie_die]
  split
  next h => rw [h]
  next => rfl

section
variable {s : State} {d : Nat} {c : CoreId} {ep : Nat} {p : PartId} {x : DaccEntry} {rest : List (CoreId × Nat × PartId × DaccEntry)}
  (hd : (s.die d).m.dacc = (c, ep, p, x) :: rest)
include hd

/-- An entry whose field holds no number is skipped. -/
theorem State.daccAdd_skips (h : packedValue (lineWords (s.lineChars d x.line) x.word x.fw) = none) :
    ((s.daccAdd d (c, ep, p, x)).die d).m.dacc = rest ∧ ((s.daccAdd d (c, ep, p, x)).die d).daccSkip = (s.die d).daccSkip + 1 ∧
      ((s.daccAdd d (c, ep, p, x)).die d).m.mem = (s.die d).m.mem := by
  unfold State.daccAdd
  dsimp only
  rw [h]
  dsimp only
  rw [State.updDie_die, if_pos rfl, State.dropDacc_die, hd, List.erase_cons_head]
  exact ⟨rfl, rfl, rfl⟩

/-- The memory once an entry of fw words and its image are written. -/
def State.daccWritten (s : State) (d ep : Nat) (p : PartId) (x : DaccEntry) (v : Int) : State :=
  (s.imaged d x.line p ep none fun g => !g.join && decide (g.epoch = ep)).putChars d x.line (4 * x.word)
    (fieldChars x.fw (accumulate (9 * x.fw - 1) v x.x))

omit hd in
theorem State.daccWritten_die (v : Int) :
    ((s.daccWritten d ep p x v).die d).m.dacc = (s.die d).m.dacc ∧ ((s.daccWritten d ep p x v).die d).daccWrap = (s.die d).daccWrap := by
  unfold State.daccWritten State.putChars
  rw [State.updDie_die, if_pos rfl]
  unfold State.imaged
  split
  · unfold State.saveImage
    dsimp only
    rw [State.updDie_die, if_pos rfl]
    exact ⟨rfl, rfl⟩
  · exact ⟨rfl, rfl⟩

/-- An entry is added to the number of its field. -/
theorem State.daccAdd_adds {v : Int} (h : packedValue (lineWords (s.lineChars d x.line) x.word x.fw) = some v)
    (hjoin : (s.partn p.val).joinEpoch = none) :
    ((s.daccAdd d (c, ep, p, x)).die d).m.dacc = rest ∧
      s.FieldChanged (s.daccAdd d (c, ep, p, x)) d x.line x.fw (4 * x.word) (accumulate (9 * x.fw - 1) v x.x) ∧
      ((s.daccAdd d (c, ep, p, x)).die d).daccWrap =
        (s.die d).daccWrap + if accumulate (9 * x.fw - 1) v x.x = v + x.x then 0 else 1 := by
  have hadd : s.daccAdd d (c, ep, p, x) =
      if accumulate (9 * x.fw - 1) v x.x = v + x.x then (s.daccWritten d ep p x v).dropDacc d (c, ep, p, x)
      else ((s.daccWritten d ep p x v).dropDacc d (c, ep, p, x)).updDie d fun z => { z with daccWrap := z.daccWrap + 1 } := by
    unfold State.daccAdd
    dsimp only
    rw [h]
    dsimp only
    rw [State.joinImage, hjoin]
    rfl
  obtain ⟨hdacc, hwrap⟩ := State.daccWritten_die (s := s) (d := d) (ep := ep) (p := p) (x := x) v
  have hfield := State.fieldChanged_putChars (s.imaged_mem d x.line p ep none fun g => !g.join && decide (g.epoch = ep)) d x.line x.fw
    (4 * x.word) (accumulate (9 * x.fw - 1) v x.x)
  have hdrop := hfield.congr ((s.daccWritten d ep p x v).dropDacc_mem d (c, ep, p, x))
  rw [hadd]
  split
  · rw [State.dropDacc_die, hdacc, hd, List.erase_cons_head, hwrap]
    exact ⟨rfl, hdrop, (add_zero _).symm⟩
  · rw [State.updDie_die, if_pos rfl, State.dropDacc_die, hdacc, hd, List.erase_cons_head, hwrap]
    refine ⟨rfl, hdrop.congr fun e => ?_, rfl⟩
    rw [State.updDie_die]
    split
    next h => rw [h]
    next => rfl

end

/-- DACC wraps into the range of R127. -/
theorem accumulate_spec {m : Nat} (hm : 0 < m) (v x : Int) : (accumulate m v x - (v + x)) % 10 ^ m = 0 ∧
    -(5 * 10 ^ (m - 1)) ≤ accumulate m v x ∧ accumulate m v x < 5 * 10 ^ (m - 1) := by
  obtain ⟨k, rfl⟩ := Nat.exists_eq_succ_of_ne_zero hm.ne'
  have hpow : (10 : Int) ^ (k + 1) = 2 * (5 * 10 ^ k) := by ring
  have hpos : (0 : Int) < 10 ^ k := by positivity
  have h0 := Int.emod_nonneg (v + x + 5 * 10 ^ k) (show (10 : Int) ^ (k + 1) ≠ 0 by positivity)
  have h1 := Int.emod_lt_of_pos (v + x + 5 * 10 ^ k) (show (0 : Int) < 10 ^ (k + 1) by positivity)
  have hdiv := Int.emod_add_mul_ediv (v + x + 5 * 10 ^ k) (10 ^ (k + 1))
  change (((v + x + 5 * 10 ^ k) % 10 ^ (k + 1) - 5 * 10 ^ k - (v + x)) % 10 ^ (k + 1) = 0) ∧
    -(5 * 10 ^ k) ≤ (v + x + 5 * 10 ^ k) % 10 ^ (k + 1) - 5 * 10 ^ k ∧
    (v + x + 5 * 10 ^ k) % 10 ^ (k + 1) - 5 * 10 ^ k < 5 * 10 ^ k
  refine ⟨Int.emod_eq_zero_of_dvd ⟨-((v + x + 5 * 10 ^ k) / 10 ^ (k + 1)), ?_⟩, by linarith, by linarith⟩
  linarith

/-! ### The obligation -/

/-- Settles O48: at its line an operation ends as `State.postOn` says, by R126's order of conditions; its answer and a DACC entry change
the registers and the field as `goOn_dpost` and `State.daccAdd_adds` say. -/
theorem postingUnit : Obligations.PostingUnit := by
  intro s id cc d l n fw packed changed
  refine ⟨?post, ?outcome, ?result, ?dacc, fun m v x hm => accumulate_spec hm v x⟩
  case post =>
    intro a q ctl no ha hst hq hop ht hd hfree hrep hrow hkey hcap hfw f r status
    subst hfw
    have hreach := exec_postingRequest_reaches ha hst hq hop ht hd hfree hrep hrow hkey hcap
    refine ⟨fun hb => ⟨_, hreach, State.postOn_badControl ha hb⟩, fun hb hp => ⟨_, hreach, State.postOn_poisoned ha hb hp⟩,
      fun hb hp hr => ⟨_, hreach, State.postOn_unchanged ha hb hp hr⟩, fun v hb hp hr hn hjoin hroom => ⟨_, hreach, ?_⟩⟩
    rw [State.postOn_changes ha hb hp hr hn hjoin hroom]
    obtain ⟨hzero, hfit⟩ := postOutcome_changes hop hr
    refine ⟨?_, s.fieldChanged_putChars (fun e => s.imaged_mem d l a.part _ _ _ e) d l (ctlFw ctl) (4 * f) v, hfit, fun hneed => ?_⟩
    · rw [← hzero]
      exact State.findAccess_posted (s.imaged_accesses d l a.part _ _ _) ha _ _
    · have himaged : (s.imaged d l a.part (s.slotEpoch (s.slot (coreDie a.core) n)) (some (⟨coreDie a.core, coreDie_lt a.core⟩, n))
          (s.ownImage (coreDie a.core) n)) = s.saveImage d l a.part (s.slotEpoch (s.slot (coreDie a.core) n))
          (some (⟨coreDie a.core, coreDie_lt a.core⟩, n)) false := if_pos hneed
      rw [himaged]
      exact ⟨_, (State.putChars_images _ d l _ _ d).trans (s.saveImage_images d l a.part _ _ false), rfl, rfl, rfl⟩
  case outcome =>
    intro ctl x y v f ch old lim
    obtain ⟨hdpost, hdpost0⟩ := postOutcome_dpost_iff ctl x v f ch
    obtain ⟨hdcas, -, hdcas0⟩ := postOutcome_dcas_iff ctl x y v f ch
    refine ⟨hdpost.trans ⟨?_, ?_⟩, hdcas, hdpost0, hdcas0⟩
    · rintro ⟨w, m, hw, hm, rfl, hfit, hlim⟩
      exact ⟨⟨w, hw, rfl⟩, hfit, (exists_limit_iff ctl ch (w + x)).1 ⟨m, hm, hlim⟩⟩
    · rintro ⟨⟨w, hw, rfl⟩, hfit, hlim⟩
      obtain ⟨m, hm, hkeeps⟩ := (exists_limit_iff ctl ch (w + x)).2 hlim
      exact ⟨w, m, hw, hm, rfl, hfit, hkeeps⟩
  case result =>
    intro a x c dx w k o st v ha hst hc hx hacc hi hl hbad
    subst hc
    obtain ⟨hw, hdr, hcur, hacc', hdies⟩ := goOn_dpost (s := s.dropAccess id) (x := { x with post := some (st, v) }) cc hi rfl hl hbad
    refine ⟨_, exec_postingResult ha hst hx hacc, hw, hdr, hcur, ?_, hdies⟩
    rw [State.findAccess, hacc']
    exact s.findAccess_dropAccess id
  case dacc =>
    intro die c ep p x rest hdie hd hline hfw hw hv hkey hp hjoin hroom old
    subst hdie hline hfw
    have hexec := exec_daccApply hd hw hv hkey hp hroom
    refine ⟨fun hold => ⟨_, hexec, State.daccAdd_skips hd hold⟩, fun v hold => ⟨_, hexec, State.daccAdd_adds hd hold hjoin⟩⟩

end Sys2Proof.Machine
end

section
/-! PROOF of O50: the gate's decision, its answer at the core, abort notices, restoration from images, and the end of a repair (R129 to
R132, R134, R135, R384, R385). -/

namespace Sys2Proof.Machine

/-! ### The gate decides (R130, R131, R134) -/

/-- The requests to resolve a transaction. -/
def Msg.isResolve : Msg → Bool
  | .resolve _ _ _ _ => true
  | _ => false

/-- The gate's answers that travel to die d. -/
def Msg.isAnswerTo (d : DieId) : Msg → Bool
  | .answer e _ _ _ => decide (e = d)
  | _ => false

/-- The abort notices that travel to die d. -/
def Msg.isNoticeTo (d : DieId) : Msg → Bool
  | .notice e _ _ _ => decide (e = d)
  | _ => false

/-- The outcome for which a request asks. -/
def Resolve.want : Resolve → Outcome
  | .commit => .committed
  | .abort => .software
  | .memerr => .memerr

/-- A transaction after a decision on the one at pos. -/
def GateTxn.decidedAt (pos : Position) (o : Outcome) (t : GateTxn) : GateTxn := if t.pos = pos then { t with outcome := some o } else t

theorem GateTxn.outcome_of_decidedAt {pos : Position} {o : Outcome} {l : List GateTxn} :
    ∀ g ∈ l.map (GateTxn.decidedAt pos o), g.pos = pos → g.outcome = some o := by
  intro g hg hpos
  obtain ⟨t, -, rfl⟩ := List.mem_map.1 hg
  unfold GateTxn.decidedAt at hpos ⊢
  split at hpos
  next h => rw [if_pos h]
  next h => exact absurd hpos h

/-- A decision that is no event is noted at the gate and counted. -/
theorem State.decide_quiet (s : State) (p : Nat) (pos : Position) (epoch : Nat) {o : Outcome} (h : o.isEvent = false) :
    s.decide_ p pos epoch o = s.updPartn p fun q =>
      { q with txns := q.txns.map (GateTxn.decidedAt pos o), cnt := q.cnt.decided o } := by
  unfold State.decide_
  dsimp only
  rw [if_neg (by simp [h])]
  rfl

/-- A decision notes the outcome, and changes no die and no message. -/
theorem State.decide_spec (s : State) (p : Nat) (pos : Position) (epoch : Nat) (o : Outcome) :
    ((s.decide_ p pos epoch o).partn p).txns = (s.partn p).txns.map (GateTxn.decidedAt pos o) ∧
      (s.decide_ p pos epoch o).u.dies = s.u.dies ∧ (s.decide_ p pos epoch o).msgs = s.msgs := by
  cases hev : o.isEvent with
  | false =>
    rw [s.decide_quiet p pos epoch hev, State.updPartn_partn, if_pos rfl]
    exact ⟨rfl, rfl, rfl⟩
  | true =>
    unfold State.decide_
    dsimp only
    rw [if_pos hev]
    unfold State.logEvent
    dsimp only
    rw [State.updPartn_partn, if_pos rfl]
    refine ⟨?_, rfl, rfl⟩
    have hp (f : Sundial → Sundial) (q : Partition → Partition) : ((s.updPartn p q).updSd f).partn p = q (s.partn p) :=
      (State.updPartn_partn _ _ _ _).trans (if_pos rfl)
    exact congrArg Partition.txns (hp _ _)

/-- What holds of a run over indices after step d holds after it, where no step undoes it. -/
theorem iter_reaches {β : Type} {view : State → β} {Q : State → Prop} {f : Nat → State → State} {s : State}
    (hv : ∀ k x, view (f k x) = view x) (hQ : ∀ k x, Q x → Q (f k x)) {d n : Nat} (hd : d < n)
    (hstep : ∀ x, view x = view s → Q (f d x)) : Q (iter n f s) := by
  induction n with
  | zero => omega
  | succ n ih =>
    rw [iter_succ]
    by_cases hdn : d = n
    · subst hdn
      exact hstep _ (iter_keeps view hv d s)
    · exact hQ _ _ (ih (by omega))

/-- A list of messages is posted in order. -/
theorem foldl_post_msgs {α : Type} (g : α → Msg) (l : List α) (s : State) :
    (l.foldl (fun y a => y.post (g a)) s).msgs = s.msgs ++ l.map g := by
  induction l generalizing s with
  | nil => simp
  | cons a l ih => rw [List.foldl_cons, ih, State.post_msgs, List.map_cons, List.append_assoc, List.singleton_append]

/-- Each slot that holds the transaction gets the abort notice. -/
theorem State.noticeAll_posts {s : State} {p n : Nat} {pos : Position} {d : DieId} (o : Outcome) (hn : n ∈ s.slotsOf d p)
    (hpos : (s.slot d n).pos = pos) : Msg.notice d n pos o ∈ (s.noticeAll p pos o).msgs := by
  refine iter_reaches (view := fun x => x.u.dies) (Q := fun x => Msg.notice d n pos o ∈ x.msgs) (fun k x => ?_) (fun k x hx => ?_) d.isLt
    fun x hx => ?_
  · split
    · exact foldl_keeps (fun x => x.u.dies) (by intro _ _; rfl) _ _
    · rfl
  · split
    next h =>
      rw [foldl_post_msgs (fun n => Msg.notice ⟨k, h⟩ n pos o)]
      exact List.mem_append_left _ hx
    next => exact hx
  · have hdie : x.die d = s.die d := congrArg (fun m => Sparse.get Die.reset m d) hx
    rw [dif_pos d.isLt, foldl_post_msgs (fun n => Msg.notice ⟨d, d.isLt⟩ n pos o)]
    refine List.mem_append_right _ (List.mem_map.2 ⟨n, List.mem_filter.2 ⟨?_, ?_⟩, rfl⟩)
    · rw [State.slotsOf, hdie]
      exact hn
    · rw [State.slot, hdie]
      exact decide_eq_true hpos

theorem State.edgePassed_partn (x : State) (p : Nat) : x.edgePassed.partn p = x.partn p := rfl

/-- A decision with its notices. -/
theorem State.decide_notices (x : State) (p : Nat) (pos : Position) (epoch : Nat) (o : Outcome) :
    (((x.decide_ p pos epoch o).noticeAll p pos o).edgePassed.partn p).txns = (x.partn p).txns.map (GateTxn.decidedAt pos o) ∧
      ∀ {d : DieId} {n : Nat}, n ∈ x.slotsOf d p → (x.slot d n).pos = pos →
        Msg.notice d n pos o ∈ ((x.decide_ p pos epoch o).noticeAll p pos o).edgePassed.msgs := by
  obtain ⟨htxns, hdies, -⟩ := x.decide_spec p pos epoch o
  refine ⟨?_, fun {d n} hn hpos => ?_⟩
  · rw [State.edgePassed_partn, State.partn_of_order (State.noticeAll_order _ _ _ _), htxns]
  · have hdie : (x.decide_ p pos epoch o).die d = x.die d := by rw [State.die, hdies, State.die]
    rw [State.edgePassed, State.updSd_msgs]
    refine State.noticeAll_posts o ?_ ?_
    · rw [State.slotsOf, hdie]
      exact hn
    · rw [State.slot, hdie]
      exact hpos

/-- What the gate makes of a request to resolve transaction t of p, which slot n of die d holds. -/
def State.resolved (x : State) (d : DieId) (n : Nat) (p : PartId) (r : Resolve) (t : GateTxn) : State :=
  match t.outcome, r with
  | some o, _ => x.post (.answer d n t.pos o)
  | none, .memerr =>
    if x.h.mirror.role = 2 then x else ((x.decide_ p t.pos t.epoch .memerr).noticeAll p t.pos .memerr).edgePassed
  | none, _ => ((x.decide_ p t.pos t.epoch r.want).post (.answer d n t.pos r.want)).edgePassed

theorem State.resolved_again {x : State} {d : DieId} {n : Nat} {p : PartId} {r : Resolve} {t : GateTxn} {o : Outcome}
    (ho : t.outcome = some o) : x.resolved d n p r t = x.post (.answer d n t.pos o) := by
  unfold State.resolved
  rw [ho]

theorem State.resolved_decides {x : State} {d : DieId} {n : Nat} {p : PartId} {r : Resolve} {t : GateTxn} (ho : t.outcome = none)
    (hr : r ≠ .memerr) :
    x.resolved d n p r t = ((x.decide_ p t.pos t.epoch r.want).post (.answer d n t.pos r.want)).edgePassed := by
  unfold State.resolved
  rw [ho]
  cases r with
  | commit => rfl
  | abort => rfl
  | memerr => exact absurd rfl hr

theorem State.resolved_memerr {x : State} {d : DieId} {n : Nat} {p : PartId} {t : GateTxn} (ho : t.outcome = none)
    (hrole : x.h.mirror.role ≠ 2) :
    x.resolved d n p .memerr t = ((x.decide_ p t.pos t.epoch .memerr).noticeAll p t.pos .memerr).edgePassed := by
  unfold State.resolved
  rw [ho]
  exact if_neg hrole

theorem exec_resolveRequest {s : State} {d : DieId} {n : Nat} {pos : Position} {r : Resolve} {rest : List Msg} {t : GateTxn}
    (hup : s.up gateDomain 4 = true) (h : takeMsg Msg.isResolve [] s.msgs = some (.resolve d n pos r, rest))
    (hpos : (s.slot d n).pos = pos) (hst : (s.slot d n).st ≠ .free)
    (ht : ((s.partn (s.slot d n).part).txns.find? fun t => decide (t.pos = pos)) = some t)
    (hdue : s.curfewDue (s.slot d n).part t = false) :
    exec .resolveRequest s = .next (State.resolved { s with msgs := rest } d n (s.slot d n).part r t) ∧ t.pos = pos := by
  have he : exec .resolveRequest s = execResolveRequest s := rfl
  have hdue' : State.curfewDue { s with msgs := rest } (s.slot d n).part t = false := hdue
  have ht' : ((State.partn { s with msgs := rest } (s.slot d n).part).txns.find? fun t => decide (t.pos = pos)) = some t := ht
  have htpos : t.pos = pos := by simpa using List.find?_some ht
  refine ⟨?_, htpos⟩
  rw [he, execResolveRequest, if_neg (by simp [hup])]
  refine congrArg Host.Outcome.next ((State.receive_of_takeMsg h _).trans ?_)
  dsimp only
  rw [State.withMsgs_slot, if_neg (by simp [hpos, hst]), ht']
  dsimp only
  rw [hdue', if_neg Bool.false_ne_true]
  unfold State.resolved
  rw [htpos]
  cases ho : t.outcome with
  | some o => cases r <;> rfl
  | none => cases r <;> rfl

/-! ### What a repair and a restored line leave alone (R384, R385) -/

/-- What the work of a die on its lines leaves alone: the cores, the slots of every die, and the memory of the other dies. -/
def State.besideMem (s : State) (e : Nat) : Sparse Core × (Nat → Sparse Slot) × (Nat → Option DieMem) :=
  (s.u.cores, fun f => (s.die f).o.slots, fun f => if f = e then none else some (s.die f).m)

theorem State.besideMem_of_u {s t : State} (h : t.u = s.u) (e : Nat) : t.besideMem e = s.besideMem e := by
  unfold State.besideMem State.die
  rw [h]

theorem State.updDie_besideMem (s : State) (e : Nat) {f : Die → Die} (hf : ∀ z, (f z).o.slots = z.o.slots := by intro; rfl) :
    (s.updDie e f).besideMem e = s.besideMem e := by
  have hslots : (fun g => ((s.updDie e f).die g).o.slots) = fun g => (s.die g).o.slots :=
    funext fun g => State.updDie_view (fun z => z.o.slots) hf s e g
  have hm : (fun g => if g = e then none else some ((s.updDie e f).die g).m) = fun g => if g = e then none else some (s.die g).m := by
    funext g
    split
    · rfl
    next hg => rw [State.updDie_die, if_neg hg]
  unfold State.besideMem
  rw [hslots, hm, State.updDie_u_cores]

theorem State.logErr_besideMem (s : State) (code sev die : Nat) (hub : Bool) (part unit : Nat) (w2 w3 : Word) (e : Nat) :
    (s.logErr code sev die hub part unit w2 w3).besideMem e = s.besideMem e := State.besideMem_of_u (s.logErr_u ..) e

theorem State.correctedArea_besideMem (s : State) (e row : Nat) (at_ : List (Nat × Nat)) :
    (s.correctedArea e row at_).besideMem e = s.besideMem e :=
  foldl_keeps (State.besideMem · e) (fun x c => by rw [State.updDie_besideMem, State.logErr_besideMem]) at_ s

theorem State.poisonKept_besideMem (s : State) (e l : Nat) : (s.poisonKept e l).besideMem e = s.besideMem e := by
  unfold State.poisonKept State.skipHeld State.setLineInfo
  rw [State.updDie_besideMem, State.updDie_besideMem, State.logErr_besideMem]

theorem State.sendMirror_besideMem (s : State) (dst : Nat) (body : MPayload) (e : Nat) :
    (s.sendMirror dst body).besideMem e = s.besideMem e := by
  unfold State.sendMirror State.sendMirrorOn
  split <;> rfl

theorem State.askPartner_besideMem (s : State) (d l t e : Nat) : (s.askPartner d l t).besideMem e = s.besideMem e := by
  unfold State.askPartner
  split <;> rfl

theorem State.startRepair_besideMem (s : State) (e l : Nat) : (s.startRepair e l).besideMem e = s.besideMem e := by
  unfold State.startRepair
  split
  · exact s.poisonKept_besideMem e l
  · dsimp only
    split
    · split
      · rw [State.askPartner_besideMem, State.updDie_besideMem]
      · split
        · exact s.poisonKept_besideMem e l
        · rw [State.sendMirror_besideMem, State.updDie_besideMem]
          rfl
    · exact s.poisonKept_besideMem e l

theorem State.putLine_besideMem (s : State) (e l : Nat) (ch : List Chr) (info : LineMeta) :
    (s.putLine e l ch info).besideMem e = s.besideMem e := s.updDie_besideMem e

theorem State.restoreFrom_besideMem (s : State) (e : Nat) (g : Image) : (s.restoreFrom e g).besideMem e = s.besideMem e := by
  unfold State.restoreFrom
  split
  · exact s.putLine_besideMem e _ _ _
  · rw [State.putLine_besideMem, State.correctedArea_besideMem]
  · rw [State.startRepair_besideMem, State.setLineInfo, State.updDie_besideMem, State.areaLost, State.logErr_besideMem]

theorem State.restoreOn_besideMem (s : State) (d n e : Nat) : (s.restoreOn d n e).besideMem e = s.besideMem e := by
  unfold State.restoreOn
  dsimp only
  rw [State.updDie_besideMem, foldl_keeps (State.besideMem · e) fun x g => x.restoreFrom_besideMem e g]

theorem State.cores_of_besideMem {s t : State} {e : Nat} (h : t.besideMem e = s.besideMem e) : t.u.cores = s.u.cores :=
  congrArg Prod.fst h

theorem State.slots_of_besideMem {s t : State} {e : Nat} (h : t.besideMem e = s.besideMem e) (d : Nat) :
    (t.die d).o.slots = (s.die d).o.slots := congrFun (congrArg (fun v => v.2.1) h) d

theorem State.m_of_besideMem {s t : State} {e f : Nat} (h : t.besideMem e = s.besideMem e) (hf : f ≠ e) :
    (t.die f).m = (s.die f).m := by
  have h' := congrFun (congrArg (fun v => v.2.2) h) f
  simp only [State.besideMem, if_neg hf] at h'
  exact Option.some.inj h'

/-! ### The cores and the slots -/

/-- The cores, and the slots of every die. -/
def State.coresSlots (s : State) : Sparse Core × (Nat → Sparse Slot) := (s.u.cores, fun f => (s.die f).o.slots)

theorem State.coresSlots_of_besideMem {s t : State} {e : Nat} (h : t.besideMem e = s.besideMem e) : t.coresSlots = s.coresSlots := by
  unfold State.coresSlots
  rw [State.cores_of_besideMem h, funext (State.slots_of_besideMem h)]

theorem State.slot_of_coresSlots {s t : State} (h : t.coresSlots = s.coresSlots) (d n : Nat) : t.slot d n = s.slot d n :=
  congrArg (fun v : Sparse Core × (Nat → Sparse Slot) => Sparse.get Slot.reset (v.2 d) n) h

theorem State.cores_of_coresSlots {s t : State} (h : t.coresSlots = s.coresSlots) : t.u.cores = s.u.cores := congrArg Prod.fst h

theorem State.updDie_coresSlots (s : State) (d : Nat) {f : Die → Die} (hf : ∀ z, (f z).o.slots = z.o.slots := by intro; rfl) :
    (s.updDie d f).coresSlots = s.coresSlots := State.coresSlots_of_besideMem (s.updDie_besideMem d hf)

theorem State.retype_coresSlots (s : State) (d p q v type : Nat) : (s.retype d p q v type).coresSlots = s.coresSlots :=
  s.updDie_coresSlots d

theorem State.skipHead_coresSlots (s : State) (d p q : Nat) : (s.skipHead d p q).coresSlots = s.coresSlots := by
  unfold State.skipHead
  dsimp only
  exact s.updDie_coresSlots d

theorem State.addRecord_coresSlots (s : State) (d n : Nat) (o : Outcome) : (s.addRecord d n o).coresSlots = s.coresSlots :=
  s.updDie_coresSlots d

/-- Lines that are still poisoned are put to repair before the claims on them are given up. -/
theorem State.repairClaims_coresSlots (s : State) (d n : Nat) : (s.repairClaims d n).coresSlots = s.coresSlots := by
  refine foldl_keeps State.coresSlots (fun x q => foldl_keeps State.coresSlots (fun y l => ?_) _ _) _ _
  split
  · exact State.coresSlots_of_besideMem (y.startRepair_besideMem q.die l)
  · rfl

/-! ### The slot at its end (R119, R131, R135) -/

theorem State.updSlot_cores (s : State) (d n : Nat) (f : Slot → Slot) : (s.updSlot d n f).u.cores = s.u.cores := rfl

theorem State.updSlot_slot_same (s : State) (d n : Nat) (f : Slot → Slot) : (s.updSlot d n f).slot d n = f (s.slot d n) := by
  rw [State.updSlot, State.setSlot_slot, if_pos ⟨rfl, rfl⟩]

/-- What ends a slot's claims leaves alone: the cores, the slots, and the memory of every die. -/
def State.coresSlotsMem (s : State) : Sparse Core × (Nat → Sparse Slot) × (Nat → DieMem) :=
  (s.u.cores, fun f => (s.die f).o.slots, fun f => (s.die f).m)

/-- The state once the claims of a slot have been released and its cluster's pool is given back. -/
def State.unclaimed (s : State) (d n : Nat) : State :=
  iter 8 (fun k x => x.updCluster (8 * d + k) fun z => { z with pool := z.pool.filter (· ≠ n) })
    ((s.slot d n).claims.foldl (fun x q =>
      if hq : q.die < 8 then
        if hd : d < 8 then x.post (.claimRelease ⟨q.die, hq⟩ q.line n ⟨d, hd⟩) else x
      else x) s)

theorem State.unclaimed_coresSlotsMem (s : State) (d n : Nat) : (s.unclaimed d n).coresSlotsMem = s.coresSlotsMem := by
  refine (iter_keeps State.coresSlotsMem (by intro _ _; rfl) 8 _).trans (foldl_keeps State.coresSlotsMem (fun x q => ?_) _ s)
  split
  · split <;> rfl
  · rfl

theorem State.releaseClaims_eq (s : State) (d n : Nat) :
    s.releaseClaims d n = (s.unclaimed d n).updSlot d n fun v => { v with claims := [], borrowed := false } := rfl

theorem State.slot_of_coresSlotsMem {s t : State} (h : t.coresSlotsMem = s.coresSlotsMem) (d n : Nat) : t.slot d n = s.slot d n :=
  congrArg (fun v : Sparse Core × (Nat → Sparse Slot) × (Nat → DieMem) => Sparse.get Slot.reset (v.2.1 d) n) h

theorem State.m_of_coresSlotsMem {s t : State} (h : t.coresSlotsMem = s.coresSlotsMem) (e : Nat) : (t.die e).m = (s.die e).m :=
  congrArg (fun v : Sparse Core × (Nat → Sparse Slot) × (Nat → DieMem) => v.2.2 e) h

theorem State.cores_of_coresSlotsMem {s t : State} (h : t.coresSlotsMem = s.coresSlotsMem) : t.u.cores = s.u.cores :=
  congrArg Prod.fst h

theorem State.updSlot_m (s : State) (d n : Nat) (f : Slot → Slot) (e : Nat) : ((s.updSlot d n f).die e).m = (s.die e).m :=
  State.updDie_view Die.m (by intro _; rfl) s d e

theorem State.restoreOns_coresSlots (s : State) (d n : Nat) : (iter 8 (fun e x => x.restoreOn d n e) s).coresSlots = s.coresSlots :=
  iter_keeps State.coresSlots (fun e x => State.coresSlots_of_besideMem (x.restoreOn_besideMem d n e)) 8 s

theorem State.restoreSlot_eq (s : State) (d n : Nat) : s.restoreSlot d n =
    ((iter 8 (fun e x => x.restoreOn d n e) s).releaseClaims d n).updSlot d n fun v => { v with restored := true, acc := [] } := rfl

/-- A restored slot holds no claim and no DACC entry. -/
theorem State.restoreSlot_slot (s : State) (d n : Nat) : (s.restoreSlot d n).slot d n =
    { s.slot d n with restored := true, acc := [], claims := [], borrowed := false } := by
  rw [State.restoreSlot_eq, State.updSlot_slot_same, State.releaseClaims_eq, State.updSlot_slot_same,
    State.slot_of_coresSlotsMem (State.unclaimed_coresSlotsMem _ d n), State.slot_of_coresSlots (s.restoreOns_coresSlots d n)]

theorem State.restoreSlot_cores (s : State) (d n : Nat) : (s.restoreSlot d n).u.cores = s.u.cores := by
  rw [State.restoreSlot_eq, State.updSlot_cores, State.releaseClaims_eq, State.updSlot_cores,
    State.cores_of_coresSlotsMem (State.unclaimed_coresSlotsMem _ d n)]
  exact State.cores_of_coresSlots (s.restoreOns_coresSlots d n)

theorem State.hostOutcome_keeps (s : State) (d n k : Nat) :
    (s.hostOutcome d n k).u.cores = s.u.cores ∧ ((s.hostOutcome d n k).slot d n).restored = (s.slot d n).restored := by
  unfold State.hostOutcome
  dsimp only
  split
  · exact ⟨rfl, rfl⟩
  split
  · rw [State.updSlot_slot_same]
    exact ⟨rfl, rfl⟩
  · exact ⟨rfl, rfl⟩

theorem State.discardResponse_keeps (s : State) (d n : Nat) :
    (s.discardResponse d n).u.cores = s.u.cores ∧ ((s.discardResponse d n).slot d n).restored = (s.slot d n).restored := by
  unfold State.discardResponse
  dsimp only
  rw [State.updSlot_slot_same, State.updSlot_cores]
  generalize hx : iter 32 _ s = x
  have hcache : x.coresSlots = s.coresSlots := by
    rw [← hx]
    refine iter_keeps State.coresSlots (fun g x => ?_) 32 s
    split
    · rfl
    · refine (State.skipHead_coresSlots _ _ _ _).trans ?_
      exact foldl_keeps State.coresSlots (fun y e => y.retype_coresSlots _ _ _ _ _) _ x
  have hrestored : (x.slot d n).restored = (s.slot d n).restored := by rw [State.slot_of_coresSlots hcache]
  exact ⟨State.cores_of_coresSlots hcache, hrestored⟩

/-- An aborted slot keeps its outcome, and whether it has been restored. -/
theorem State.abortSlot_spec (s : State) (d n : Nat) (o : Outcome) : ((s.abortSlot d n o).slot d n).st = .aborted ∧
    ((s.abortSlot d n o).slot d n).outcome = some o ∧ ((s.abortSlot d n o).slot d n).restored = (s.slot d n).restored ∧
    (s.abortSlot d n o).u.cores = s.u.cores := by
  have hrec := s.addRecord_coresSlots d n o
  have hrestored := congrArg Slot.restored (State.slot_of_coresSlots hrec d n)
  have hcores : (s.addRecord d n o).u.cores = s.u.cores := State.cores_of_coresSlots hrec
  obtain ⟨hc2, hr2⟩ := (s.addRecord d n o).hostOutcome_keeps d n 2
  obtain ⟨hcd, hrd⟩ := (s.addRecord d n o).discardResponse_keeps d n
  obtain ⟨hc4, hr4⟩ := ((s.addRecord d n o).discardResponse d n).hostOutcome_keeps d n 4
  unfold State.abortSlot
  dsimp only
  rw [State.updSlot_slot_same, State.updSlot_cores]
  refine ⟨rfl, rfl, ?_⟩
  cases o with
  | curfew =>
    dsimp only
    exact ⟨hrd.trans hrestored, hcd.trans hcores⟩
  | memerr =>
    dsimp only
    exact ⟨hr4.trans (hrd.trans hrestored), hc4.trans (hcd.trans hcores)⟩
  | committed => exact ⟨hr2.trans hrestored, hc2.trans hcores⟩
  | software => exact ⟨hr2.trans hrestored, hc2.trans hcores⟩

/-- A committed slot keeps its outcome. -/
theorem State.commitSlot_spec (s : State) (d n : Nat) : ((s.commitSlot d n).slot d n).st = .committed ∧
    ((s.commitSlot d n).slot d n).outcome = some .committed ∧ (s.commitSlot d n).u.cores = s.u.cores := by
  unfold State.commitSlot
  dsimp only
  rw [State.updSlot_slot_same, State.updSlot_cores]
  refine ⟨rfl, rfl, ?_⟩
  rw [State.releaseClaims_eq, State.updSlot_cores, State.cores_of_coresSlotsMem (State.unclaimed_coresSlotsMem _ d n),
    foldl_keeps (fun x : State => x.u.cores) (by intro _ _; rfl)]
  exact (State.hostOutcome_keeps _ d n 1).1.trans (State.cores_of_coresSlots (s.addRecord_coresSlots d n .committed))

/-! ### The gate's answer ends TXN.COMMIT and TXN.ABORT (R129, R131) -/

theorem again_resolveInstr (s : State) (abort : Bool) (c : CoreId) (ws : Reg) :
    s.again (resolveInstr abort c ws) = stateOr s (exec (resolveInstr abort c ws) s) := by
  cases abort <;> rfl

/-- A core that goes on with TXN.COMMIT or TXN.ABORT on an ended transaction lets go of it, with its outcome in its register. -/
theorem goOn_resolve {s : State} {c : CoreId} {x : Cur} {abort : Bool} {ws : Reg} {n : Nat} {o : Outcome} (cc : Nat)
    (hi : x.instr = resolveInstr abort c ws) (hl : (s.core c).live = true) (hbad : (s.core c).regBad = false)
    (hn : (s.core c).txn = some n) (hst : (s.slot (coreDie c) n).st = .aborted ∨ (s.slot (coreDie c) n).st = .committed)
    (ho : (s.slot (coreDie c) n).outcome = some o) : ((s.goOn c x cc).core c).txn = none ∧ ((s.goOn c x cc).core c).cur = none ∧
      ((s.goOn c x cc).regs c).wr ws = resolveResult abort n o := by
  have hcarries := State.carries_of_takesUp x cc hl hbad
  rw [hi] at hcarries
  have htxn : ((s.takesUp c x cc).core c).txn = some n := by
    rw [State.takesUp_core]
    exact hn
  have hends := exec_resolve_ends (s := s.takesUp c x cc) (abort := abort) (ws := ws) htxn hst ho _ _ hcarries
  rw [State.goOn_eq_again, hi, again_resolveInstr, hends]
  dsimp only [stateOr]
  obtain ⟨hwr, hcur⟩ := State.finish_keeps (s.takesUp c x cc)
    (((s.takesUp c x cc).updR c fun r => r.setW ws (resolveResult abort n o)).letGo c n) c (resolveInstr abort c ws) 8
  obtain ⟨-, hfree⟩ := State.finish_decimals (s.takesUp c x cc)
    (((s.takesUp c x cc).updR c fun r => r.setW ws (resolveResult abort n o)).letGo c n) c (resolveInstr abort c ws) 8
  refine ⟨hfree.trans ?_, hcur, (hwr ws).trans ?_⟩
  · rw [State.letGo_core, if_pos rfl]
  · have hregs (z : State) : (z.letGo c n).regs c = z.regs c := by
      rw [State.regs, State.letGo_core, if_pos rfl]
      rfl
    rw [hregs, State.updR_regs, if_pos rfl, CoreRegs.setW_wr, if_pos rfl]

/-- A slot's number is below 512, so its outcome is in the register. -/
theorem resolveResult_of_lt (abort : Bool) {n : Nat} (hn : n < 512) (o : Outcome) : resolveResult abort n o =
    if o = .committed then 0 else if o = .software then 1 else if abort then 2 else 1 := by
  unfold resolveResult
  rw [if_neg (by omega)]
  cases o <;> rfl

/-- The state in which a slot that waits for the gate has the gate's answer. -/
def State.answered (s : State) (d : DieId) (n : Nat) (o : Outcome) : State :=
  if o = .committed then (s.repairClaims d n).commitSlot d n else (s.abortSlot d n o).restoreSlot d n

theorem State.answered_spec (s : State) (d : DieId) (n : Nat) (o : Outcome) :
    (((s.answered d n o).slot d n).st = .aborted ∨ ((s.answered d n o).slot d n).st = .committed) ∧
      ((s.answered d n o).slot d n).outcome = some o ∧ (s.answered d n o).u.cores = s.u.cores := by
  unfold State.answered
  split
  next h =>
    obtain ⟨hst, ho, hcores⟩ := (s.repairClaims d n).commitSlot_spec d n
    exact ⟨.inr hst, by rw [ho, h], hcores.trans (State.cores_of_coresSlots (s.repairClaims_coresSlots d n))⟩
  next =>
    obtain ⟨hst, ho, -, hcores⟩ := s.abortSlot_spec d n o
    rw [State.restoreSlot_slot]
    exact ⟨.inl hst, ho, (State.restoreSlot_cores _ d n).trans hcores⟩

section
variable {s : State} {d : DieId} {n cc : Nat} {pos : Position} {o : Outcome} {rest : List Msg} {c : CoreId} {x : Cur}

theorem exec_gateAnswer (h : takeMsg (Msg.isAnswerTo d) [] s.msgs = some (.answer d n pos o, rest)) (hpos : (s.slot d n).pos = pos)
    (hst : (s.slot d n).st = .resolving) (hc : (s.slot d n).core = some c) (hx : (s.core c).cur = some x) (hg : x.gate = true) :
    exec (.gateAnswer d cc) s = .next ((State.answered { s with msgs := rest } d n o).goOn c x cc) := by
  have he : exec (.gateAnswer d cc) s = execGateAnswer d cc s := rfl
  have hcores := (State.answered_spec { s with msgs := rest } d n o).2.2
  have hcur : ((State.answered { s with msgs := rest } d n o).core c).cur = some x := by
    rw [State.core, hcores]
    exact hx
  rw [he, execGateAnswer]
  refine congrArg Host.Outcome.next ((State.receive_of_takeMsg h _).trans ?_)
  dsimp only
  rw [State.withMsgs_slot, if_neg (by simp [hpos, hst]), hc]
  dsimp only
  rw [← show (State.answered { s with msgs := rest } d n o).gateDone c cc =
    (State.answered { s with msgs := rest } d n o).goOn c x cc by rw [State.gateDone, hcur]; exact if_pos hg]
  cases o with
  | committed =>
    rw [if_pos ⟨hpos, rfl⟩]
    rfl
  | software =>
    rw [if_neg (by simp)]
    rfl
  | curfew =>
    rw [if_neg (by simp)]
    rfl
  | memerr =>
    rw [if_neg (by simp)]
    rfl

/-- The gate's answer ends the instruction of the core that waits for it. -/
theorem exec_gateAnswer_ends {abort : Bool} {ws : Reg} (h : takeMsg (Msg.isAnswerTo d) [] s.msgs = some (.answer d n pos o, rest))
    (hpos : (s.slot d n).pos = pos) (hst : (s.slot d n).st = .resolving) (hc : (s.slot d n).core = some c) (hd : coreDie c = d)
    (hn : (s.core c).txn = some n) (hx : (s.core c).cur = some x) (hg : x.gate = true) (hl : (s.core c).live = true)
    (hbad : (s.core c).regBad = false) (hi : x.instr = resolveInstr abort c ws) :
    ∃ u, exec (.gateAnswer d cc) s = .next u ∧ (u.core c).txn = none ∧ (u.core c).cur = none ∧
      (u.regs c).wr ws = resolveResult abort n o := by
  obtain ⟨hend, ho, hcores⟩ := State.answered_spec { s with msgs := rest } d n o
  have hcore : (State.answered { s with msgs := rest } d n o).core c = s.core c := by
    rw [State.core, hcores]
    rfl
  refine ⟨_, exec_gateAnswer h hpos hst hc hx hg, goOn_resolve cc hi ?_ ?_ ?_ ?_ ?_⟩
  · rw [hcore, hl]
  · rw [hcore, hbad]
  · rw [hcore, hn]
  · rw [hd]
    exact hend
  · rw [hd]
    exact ho

/-! ### An abort notice (R132, R135) -/

/-- A notice aborts a transaction whose core has not asked the gate, and interrupts the core. -/
theorem exec_abortNotice (h : takeMsg (Msg.isNoticeTo d) [] s.msgs = some (.notice d n pos o, rest)) (hpos : (s.slot d n).pos = pos)
    (hst : (s.slot d n).st = .taken ∨ (s.slot d n).st = .declared ∨ (s.slot d n).st = .granted) (hc : (s.slot d n).core = some c) :
    exec (.abortNotice d) s = .next ((State.abortSlot { s with msgs := rest } d n o).interrupt c .aborted) := by
  have he : exec (.abortNotice d) s = execAbortNotice d s := rfl
  rw [he, execAbortNotice]
  refine congrArg Host.Outcome.next ((State.receive_of_takeMsg h _).trans ?_)
  dsimp only
  rw [State.withMsgs_slot, if_neg (not_not.2 hpos), hc]
  rcases hst with h | h | h <;> rw [h]

theorem State.interrupt_core (s : State) (c : Nat) (i : Item) (m : Nat) : (s.interrupt c i).core m =
    if m = c then (s.core c).updSp fun p => { p with ipend := BitVec'.setAt p.ipend i.position true } else s.core m :=
  s.updCore_core c m _

end

/-! ### Lines restored from their images (R122, R132) -/

/-- Line l of die e holds ch with state info. -/
def State.LineIs (s : State) (e l : Nat) (ch : List Chr) (info : LineMeta) : Prop := s.lineChars e l = ch ∧ s.lineInfo e l = info

/-- A line is read from its die's memory. -/
theorem State.lineIs_of_m {s t : State} {e : Nat} (h : (t.die e).m = (s.die e).m) (l : Nat) :
    t.LineIs e l (s.lineChars e l) (s.lineInfo e l) := by
  unfold State.LineIs State.lineChars State.lineInfo
  rw [h]
  exact ⟨rfl, rfl⟩

theorem eq_of_getD_zero {l l' : List Chr} (hlen : l.length = l'.length) (h : ∀ i < l.length, l.getD i 0 = l'.getD i 0) : l = l' := by
  refine List.ext_getElem hlen fun i hi hi' => ?_
  have := h i hi
  rwa [List.getD_eq_getElem _ _ hi, List.getD_eq_getElem _ _ hi'] at this

/-- A line that is written holds what is written. -/
theorem State.putLine_same (s : State) (e l : Nat) {ch : List Chr} (info : LineMeta) (hch : ch.length = 64) :
    (s.putLine e l ch info).LineIs e l ch info := by
  unfold State.LineIs State.lineChars State.lineInfo State.putLine
  rw [State.updDie_die, if_pos rfl]
  refine ⟨eq_of_getD_zero (by rw [getList_length, hch]) fun i hi => ?_, (Sparse.get_set _ _ _ _ _).trans (if_pos rfl)⟩
  rw [getList_length] at hi
  rw [getList_getD _ _ _ _ _ hi, Sparse.get_setList, if_pos (by omega), Nat.add_sub_cancel_left]

/-- The other lines of its die keep what they hold. -/
theorem State.putLine_other (s : State) (e : Nat) {l m : Nat} {ch : List Chr} (info : LineMeta) (hch : ch.length = 64) (hm : m ≠ l) :
    (s.putLine e l ch info).LineIs e m (s.lineChars e m) (s.lineInfo e m) := by
  unfold State.LineIs State.lineChars State.lineInfo State.putLine
  rw [State.updDie_die, if_pos rfl]
  refine ⟨eq_of_getD_zero (by rw [getList_length, getList_length]) fun i hi => ?_, (Sparse.get_set _ _ _ _ _).trans (if_neg hm)⟩
  rw [getList_length] at hi
  rw [getList_getD _ _ _ _ _ hi, getList_getD _ _ _ _ _ hi, Sparse.get_setList, if_neg (by omega)]

/-- A sound image of a whole line. -/
def Image.Sound (g : Image) : Prop := g.chars.length = 64 ∧ g.hurt = []

theorem State.restoreFrom_sound (s : State) (e : Nat) {g : Image} (h : g.Sound) :
    s.restoreFrom e g = s.putLine e g.line g.chars g.info := by
  unfold State.restoreFrom
  rw [h.2, readUnit160_nil]

/-- Sound images of different lines restore these lines and no other. -/
theorem restoreFroms_lines {e : Nat} {l : List Image} (hs : ∀ g ∈ l, g.Sound) (hl : l.Pairwise fun a b => a.line ≠ b.line) (s : State) :
    (∀ g ∈ l, (l.foldl (fun x g => x.restoreFrom e g) s).LineIs e g.line g.chars g.info) ∧
      ∀ m, (∀ g ∈ l, g.line ≠ m) → (l.foldl (fun x g => x.restoreFrom e g) s).LineIs e m (s.lineChars e m) (s.lineInfo e m) := by
  induction l generalizing s with
  | nil => exact ⟨by simp, fun m _ => ⟨rfl, rfl⟩⟩
  | cons a l ih =>
    obtain ⟨ha, hs'⟩ := List.forall_mem_cons.1 hs
    obtain ⟨hal, hl'⟩ := List.pairwise_cons.1 hl
    obtain ⟨hin, hout⟩ := ih hs' hl' (s.putLine e a.line a.chars a.info)
    rw [List.foldl_cons, s.restoreFrom_sound e ha]
    refine ⟨fun g hg => ?_, fun m hm => ?_⟩
    · rcases List.mem_cons.1 hg with rfl | hg
      · obtain ⟨hch, hinfo⟩ := s.putLine_same e g.line g.info ha.1
        have hkept := hout g.line fun b hb => (hal b hb).symm
        rwa [hch, hinfo] at hkept
      · exact hin g hg
    · obtain ⟨ham, hm'⟩ := List.forall_mem_cons.1 hm
      obtain ⟨hch, hinfo⟩ := s.putLine_other e a.info ha.1 ham.symm
      have hkept := hout m hm'
      rwa [hch, hinfo] at hkept

/-- What the restoration of a slot's lines on die e reads: the order, the slots, and the die's memory. -/
def State.restoreView (s : State) (e : Nat) : (Sundial × Sparse Partition) × (Nat → Sparse Slot) × DieMem :=
  (s.order, fun f => (s.die f).o.slots, (s.die e).m)

theorem State.restoreOn_restoreView (s : State) (d n : Nat) {k e : Nat} (hk : k ≠ e) :
    (s.restoreOn d n k).restoreView e = s.restoreView e := by
  have hb := s.restoreOn_besideMem d n k
  have ho : (s.restoreOn d n k).order = s.order := by
    unfold State.restoreOn
    dsimp only
    rw [State.updDie_order, foldl_order fun y g => y.restoreFrom_order k g]
  unfold State.restoreView
  rw [ho, funext (State.slots_of_besideMem hb), State.m_of_besideMem hb hk.symm]

theorem State.ownImage_of_restoreView {s t : State} {e : Nat} (h : t.restoreView e = s.restoreView e) (d n : Nat) (g : Image) :
    t.ownImage d n g = s.ownImage d n g := by
  have hsd : t.h.sd = s.h.sd := congrArg (fun v => v.1.1) h
  have hslot : t.slot d n = s.slot d n := congrArg (fun m => Sparse.get Slot.reset m n) (congrFun (congrArg (fun v => v.2.1) h) d)
  unfold State.ownImage State.slotEpoch State.epochOf State.unwrap State.tick
  rw [hsd, hslot]

theorem State.m_of_restoreView {s t : State} {e : Nat} (h : t.restoreView e = s.restoreView e) : (t.die e).m = (s.die e).m :=
  congrArg (fun v => v.2.2) h

/-- A run over indices of which the view depends on step e only. -/
theorem iter_view_at {β : Type} {view : State → β} {f : Nat → State → State} {e : Nat}
    (hf : ∀ k x, k ≠ e → view (f k x) = view x) {n : Nat} (he : e < n) (s : State) :
    ∃ x, view x = view s ∧ view (iter n f s) = view (f e x) := by
  have hbefore : ∀ k ≤ e, view (iter k f s) = view s := by
    intro k hk
    induction k with
    | zero => rfl
    | succ k ih => rw [iter_succ, hf k _ (by omega), ih (by omega)]
  induction n with
  | zero => omega
  | succ n ih =>
    rw [iter_succ]
    by_cases hne : n = e
    · subst hne
      exact ⟨iter n f s, hbefore n le_rfl, rfl⟩
    · rw [hf n _ hne]
      exact ih (by omega)

/-- The restoration of a slot's lines on die e. -/
theorem State.restoreOn_lines {s : State} {d n e : Nat} (hs : ∀ g ∈ (s.die e).m.images, g.Sound)
    (hl : ((s.die e).m.images.filter (s.ownImage d n)).Pairwise fun a b => a.line ≠ b.line) :
    (∀ g ∈ (s.die e).m.images, s.ownImage d n g = true → (s.restoreOn d n e).LineIs e g.line g.chars g.info) ∧
      ∀ m, (∀ g ∈ (s.die e).m.images, s.ownImage d n g = true → g.line ≠ m) →
        (s.restoreOn d n e).LineIs e m (s.lineChars e m) (s.lineInfo e m) := by
  obtain ⟨hin, hout⟩ := restoreFroms_lines (e := e) (fun g hg => hs g (List.mem_filter.1 hg).1) hl s
  have hkept (x : State) (f : List Image → List Image) (l : Nat) (ch : List Chr) (info : LineMeta) (h : x.LineIs e l ch info) :
      (x.updDie e fun z => { z with m := { z.m with images := f z.m.images } }).LineIs e l ch info := by
    unfold State.LineIs State.lineChars State.lineInfo at h ⊢
    rw [State.updDie_die, if_pos rfl]
    exact h
  exact ⟨fun g hg hown => hkept _ _ _ _ _ (hin g (List.mem_filter.2 ⟨hg, hown⟩)), fun m hm => hkept _ _ _ _ _ (hout m fun g hg =>
    hm g (List.mem_filter.1 hg).1 (List.mem_filter.1 hg).2)⟩

theorem State.restoreSlot_m (s : State) (d n e : Nat) :
    ((s.restoreSlot d n).die e).m = ((iter 8 (fun e x => x.restoreOn d n e) s).die e).m := by
  rw [State.restoreSlot_eq, State.updSlot_m, State.releaseClaims_eq, State.updSlot_m,
    State.m_of_coresSlotsMem (State.unclaimed_coresSlotsMem _ d n)]

/-- A slot that is restored has its lines back, and the other lines are left alone. -/
theorem State.restoreSlot_lines {s : State} {d n e : Nat} (he : e < 8) (hs : ∀ g ∈ (s.die e).m.images, g.Sound)
    (hl : ((s.die e).m.images.filter (s.ownImage d n)).Pairwise fun a b => a.line ≠ b.line) :
    (∀ g ∈ (s.die e).m.images, s.ownImage d n g = true → (s.restoreSlot d n).LineIs e g.line g.chars g.info) ∧
      ∀ m, (∀ g ∈ (s.die e).m.images, s.ownImage d n g = true → g.line ≠ m) →
        (s.restoreSlot d n).LineIs e m (s.lineChars e m) (s.lineInfo e m) := by
  obtain ⟨x, hx, hiter⟩ := iter_view_at (view := (State.restoreView · e)) (f := fun e x => x.restoreOn d n e)
    (fun k x hk => x.restoreOn_restoreView d n hk) he s
  have hm := State.m_of_restoreView hx
  have hown := State.ownImage_of_restoreView hx d n
  have hend : ((s.restoreSlot d n).die e).m = ((x.restoreOn d n e).die e).m :=
    (s.restoreSlot_m d n e).trans (State.m_of_restoreView hiter)
  have hline (m : Nat) (ch : List Chr) (info : LineMeta) (h : (x.restoreOn d n e).LineIs e m ch info) :
      (s.restoreSlot d n).LineIs e m ch info := by
    obtain ⟨hch, hinfo⟩ := h
    have := State.lineIs_of_m hend m
    rwa [hch, hinfo] at this
  have hsame (m : Nat) : x.lineChars e m = s.lineChars e m ∧ x.lineInfo e m = s.lineInfo e m := State.lineIs_of_m hm m
  obtain ⟨hin, hout⟩ := State.restoreOn_lines (s := x) (d := d) (n := n) (e := e) (by rw [hm]; exact hs)
    (by rw [hm, funext hown]; exact hl)
  rw [hm] at hin hout
  refine ⟨fun g hg h => hline _ _ _ (hin g hg ((hown g).trans h)), fun m h => hline _ _ _ ?_⟩
  have := hout m fun g hg hg' => h g hg ((hown g).symm.trans hg')
  rwa [(hsame m).1, (hsame m).2] at this

/-! ### The end of a repair (R384, R385) -/

theorem State.poisonKept_die (s : State) (d l : Nat) : ((s.poisonKept d l).die d).m.info =
    Sparse.set LineMeta.reset (s.die d).m.info l { s.lineInfo d l with poison := true } ∧
      ((s.poisonKept d l).die d).m.repairs = (s.die d).m.repairs.filter fun r => decide (r.line ≠ l) := by
  have hlog : ∀ w2 w3, (s.logErr 0o04 2 d false (s.linePart d l) (rowOf l) w2 w3).die d = s.die d := by
    intro w2 w3
    rw [State.die, State.logErr_u, State.die]
  unfold State.poisonKept State.skipHeld State.setLineInfo
  rw [State.updDie_die, if_pos rfl, State.updDie_die, if_pos rfl, hlog]
  exact ⟨rfl, rfl⟩

/-- A line whose repair ends without its content stays poisoned. -/
theorem State.poisonKept_line (s : State) (d l : Nat) :
    ((s.poisonKept d l).lineInfo d l).poison = true ∧ (s.poisonKept d l).underRepair d l = false := by
  obtain ⟨hinfo, hrep⟩ := s.poisonKept_die d l
  refine ⟨?_, ?_⟩
  · rw [State.lineInfo, hinfo, Sparse.get_set, if_pos rfl]
  · rw [State.underRepair, hrep, List.any_eq_false]
    intro r hr
    simpa using (List.mem_filter.1 hr).2

theorem State.poisonKept_others (s : State) (d : Nat) {l m : Nat} (hm : m ≠ l) :
    (s.poisonKept d l).lineInfo d m = s.lineInfo d m ∧ (s.poisonKept d l).underRepair d m = s.underRepair d m := by
  obtain ⟨hinfo, hrep⟩ := s.poisonKept_die d l
  refine ⟨?_, ?_⟩
  · rw [State.lineInfo, hinfo, Sparse.get_set, if_neg hm]
    rfl
  · rw [State.underRepair, hrep, List.any_filter, State.underRepair]
    congr 1
    funext r
    by_cases h : r.line = m
    · simp [h, hm]
    · simp [h]

/-! ### The obligation -/

/-- Settles O50: the gate's decision is `State.resolved`; its answer and its notices leave the cores alone but for the one they name; a
restored slot has its lines back by `State.restoreSlot_lines`. -/
theorem resolution : Obligations.Resolution := by
  intro s d n cc pos rest v got
  refine ⟨?gate, ?answer, ?notice, ?restore, ?repair⟩
  case gate =>
    intro r t hup h hpos hst ht hdue want
    obtain ⟨hexec, htpos⟩ := exec_resolveRequest hup h hpos hst ht hdue
    have hwant : want = r.want := by cases r <;> rfl
    refine ⟨fun hr => ⟨_, hexec, ?_⟩, fun o hr ho => ?_, fun hr ho hrole => ⟨_, hexec, ?_⟩⟩
    · cases ho : t.outcome with
      | some o =>
        rw [State.resolved_again ho, htpos]
        exact ⟨rfl, fun h => (by cases h), fun h => (by cases h), fun _ => rfl⟩
      | none =>
        rw [State.resolved_decides ho hr, htpos, ← hwant]
        have hquiet : want.isEvent = false := by
          rw [hwant]
          cases r with
          | commit => rfl
          | abort => rfl
          | memerr => exact absurd rfl hr
        rw [State.decide_quiet _ _ _ _ hquiet]
        have hp (m : Msg) (f : Partition → Partition) : (((State.updPartn { s with msgs := rest } v.part f).post m).edgePassed.partn
            v.part) = f (s.partn v.part) := (State.updPartn_partn _ _ _ _).trans (if_pos rfl)
        rw [hp]
        exact ⟨rfl, fun _ => GateTxn.outcome_of_decidedAt, fun _ => rfl, fun h => absurd rfl h⟩
    · rw [hexec, State.resolved_again ho, htpos]
    · subst hr
      rw [State.resolved_memerr (x := { s with msgs := rest }) ho hrole, htpos]
      obtain ⟨htxns, hposts⟩ := State.decide_notices { s with msgs := rest } v.part pos t.epoch .memerr
      refine ⟨?_, fun hn => hposts hn hpos⟩
      rw [htxns]
      exact GateTxn.outcome_of_decidedAt
  case answer =>
    intro o c x ws h hpos hst hc hd hn hn512 hx hg hl hbad
    refine ⟨fun hi => ?_, fun hi ho => ?_⟩
    · obtain ⟨u, hu, htxn, hcur, hws⟩ := exec_gateAnswer_ends (cc := cc) (abort := false) h hpos hst hc hd hn hx hg hl hbad hi
      refine ⟨u, hu, htxn, hcur, hws.trans ?_⟩
      rw [resolveResult_of_lt false hn512, if_neg Bool.false_ne_true, ite_self]
    · obtain ⟨u, hu, htxn, hcur, hws⟩ := exec_gateAnswer_ends (cc := cc) (abort := true) h hpos hst hc hd hn hx hg hl hbad hi
      refine ⟨u, hu, htxn, hcur, hws.trans ?_⟩
      rw [resolveResult_of_lt true hn512, if_neg ho, if_pos rfl]
  case notice =>
    intro o c h hpos hst hc _
    obtain ⟨hst', ho, hrestored, hcores⟩ := State.abortSlot_spec { s with msgs := rest } d n o
    have hcore (m : Nat) : (State.abortSlot { s with msgs := rest } d n o).core m = s.core m := by
      rw [State.core, hcores]
      rfl
    refine ⟨_, exec_abortNotice h hpos hst hc, hst', ho, hrestored, ?_, fun m hm => ?_⟩
    · rw [State.regs, State.interrupt_core, if_pos rfl, hcore]
      rfl
    · rw [State.interrupt_core, if_neg hm, hcore]
  case restore =>
    intro hst hr hout
    have hexec : exec (.abortRestore d n) s = .next ((s.restoreSlot d n).tryFree d n) :=
      congrArg Host.Outcome.next (if_neg (by simp [show (s.slot d n).st = _ from hst, show (s.slot d n).restored = _ from hr, hout]))
    exact ⟨hexec, s.restoreSlot_slot d n, fun e he hs hl => State.restoreSlot_lines he hs hl⟩
  case repair =>
    intro line hrep
    obtain ⟨hp, hend⟩ := s.poisonKept_line d line
    exact ⟨_, congrArg Host.Outcome.next (if_pos hrep), hp, hend, fun l hl => s.poisonKept_others d hl⟩

end Sys2Proof.Machine
end

section
/-! PROOF of O55: sessions of the Lerid Posting Transport, a request's landing and admission, the response cache, and departures (R108 to
R110, R336 to R343, R355). -/

namespace Sys2Proof.Machine

/-! ### Sessions of a port (R335, R336) -/

@[simp] theorem State.setSession_session (s : State) (n i j : Nat) (x : Session) :
    (s.setSession n i x).session n j = if j = i then x else s.session n j := by
  unfold State.session State.setSession
  rw [State.updPort_port, if_pos rfl]
  exact Sparse.get_set _ _ _ _ _

@[simp] theorem State.updSession_session (s : State) (n i j : Nat) (f : Session → Session) :
    (s.updSession n i f).session n j = if j = i then f (s.session n i) else s.session n j := s.setSession_session n i j _

theorem State.setSession_port (s : State) (n i : Nat) (x : Session) :
    (s.setSession n i x).port n = { s.port n with sessions := Sparse.set Session.reset (s.port n).sessions i x } := by
  rw [State.setSession, State.updPort_port, if_pos rfl]

/-- What holds of every entry and of the default holds of what a key reads as. -/
theorem get_of_forall {α : Type} {P : α → Prop} {d : α} (hd : P d) {m : Sparse α} (h : ∀ e ∈ m, P e.2) (k : Nat) :
    P (Sparse.get d m k) := by
  induction m with
  | nil => exact hd
  | cons e m ih =>
    obtain ⟨he, hm⟩ := List.forall_mem_cons.1 h
    rw [Sparse.get_cons]
    split
    · exact he
    · exact ih hm

/-- A port whose entries are all free has no open session. -/
theorem State.session_isOpen_of_none {s : State} {n : Nat} (h : ∀ e ∈ (s.port n).sessions, e.2.isOpen = false) (i : Nat) :
    (s.session n i).isOpen = false := by
  exact get_of_forall (P := fun x : Session => x.isOpen = false) rfl h i

/-- A session but for the flag that a delayed acknowledgement is due. -/
def Session.settled (x : Session) : Session := { x with ackDue := false }

/-- A frame to an open session carries its acknowledgement. -/
def State.acked (s : State) (n : Nat) (sid : BitVec 32) (p : Peer) : State :=
  if ((s.sidSession n sid p).filter fun x => x.peer.matches p).isSome then
    s.updSession n (s.sidKey n sid p) Session.settled
  else s

theorem State.acked_settled (s : State) (n : Nat) (sid : BitVec 32) (p : Peer) (i : Nat) :
    ((s.acked n sid p).session n i).settled = (s.session n i).settled := by
  unfold State.acked
  split
  · rw [State.updSession_session]
    split
    next h => rw [h]; rfl
    next => rfl
  · rfl

/-- What an LPT frame changes: the acknowledgement of its session, and the free values taken. -/
theorem State.lptFrame_state (s : State) (n type : Nat) (retx : Bool) (sid seq tag : BitVec 32) (p : Peer) (body : List Octet) :
    ∃ k, (s.lptFrame n type retx sid seq tag p body).1 = { s.acked n sid p with free := k } := by
  unfold State.lptFrame State.acked
  dsimp only [State.fresh]
  cases h : (s.sidSession n sid p).filter fun x => x.peer.matches p with
  | none => exact ⟨_, rfl⟩
  | some x => exact ⟨_, rfl⟩

/-- What the messages of port n leave alone: the port but for its sessions and the frames to be sent, the dies, the partitions and the
hub. -/
def State.unsaid (s : State) (n : Nat) : Port × Sparse Die × Sparse Partition × Hub :=
  ({ s.port n with sessions := [], out := [] }, s.u.dies, s.u.parts, s.h)

theorem State.updPort_unsaid (s : State) (n : Nat) {f : Port → Port}
    (hf : ∀ z, { f z with sessions := [], out := [] } = { z with sessions := [], out := [] }) : (s.updPort n f).unsaid n = s.unsaid n := by
  unfold State.unsaid
  rw [State.updPort_port, if_pos rfl, hf]
  rfl

theorem State.setSession_unsaid (s : State) (n i : Nat) (x : Session) : (s.setSession n i x).unsaid n = s.unsaid n :=
  s.updPort_unsaid n fun _ => rfl

theorem State.acked_unsaid (s : State) (n : Nat) (sid : BitVec 32) (p : Peer) : (s.acked n sid p).unsaid n = s.unsaid n := by
  unfold State.acked
  split
  · exact s.setSession_unsaid n _ _
  · rfl

theorem State.queueOut_unsaid (s : State) (n prio part : Nat) (o : List Octet) : (s.queueOut n prio part o).unsaid n = s.unsaid n := by
  unfold State.queueOut
  split
  · rfl
  · exact s.updPort_unsaid n fun _ => rfl

theorem State.queueOut_session (s : State) (n prio part : Nat) (o : List Octet) (i : Nat) :
    (s.queueOut n prio part o).session n i = s.session n i := by
  unfold State.queueOut
  split
  · rfl
  · rw [State.session, State.updPort_port, if_pos rfl, State.session]

section
variable (s : State) (n prio part type : Nat) (retx : Bool) (sid seq tag : BitVec 32) (p : Peer) (body : List Octet)

theorem State.lptFrame_unsaid : (s.lptFrame n type retx sid seq tag p body).1.unsaid n = s.unsaid n := by
  obtain ⟨k, hk⟩ := s.lptFrame_state n type retx sid seq tag p body
  rw [hk]
  exact s.acked_unsaid n sid p

theorem State.sendLpt_unsaid : (s.sendLpt n prio part type retx sid seq tag p body).unsaid n = s.unsaid n := by
  unfold State.sendLpt
  rw [State.queueOut_unsaid, State.lptFrame_unsaid]

theorem State.sendLpt_settled (i : Nat) :
    ((s.sendLpt n prio part type retx sid seq tag p body).session n i).settled = (s.session n i).settled := by
  obtain ⟨k, hk⟩ := s.lptFrame_state n type retx sid seq tag p body
  unfold State.sendLpt
  rw [State.queueOut_session, hk]
  exact s.acked_settled n sid p i

end

section
variable {s t : State} {n : Nat} (h : t.unsaid n = s.unsaid n)
include h

theorem State.inbox_of_unsaid : (t.port n).inbox = (s.port n).inbox := congrArg (fun v => v.1.inbox) h

theorem State.cnt_of_unsaid : (t.port n).cnt = (s.port n).cnt := congrArg (fun v => v.1.cnt) h

theorem State.dies_of_unsaid : t.u.dies = s.u.dies := congrArg (fun v => v.2.1) h

theorem State.cached_of_unsaid : (t.port n).cached = (s.port n).cached := congrArg (fun v => v.1.cached) h

end

theorem Session.isOpen_of_settled {x y : Session} (h : x.settled = y.settled) : x.isOpen = y.isOpen :=
  (congrArg Session.isOpen h : x.settled.isOpen = y.settled.isOpen)

/-! ### REFUSED (R342) -/

/-- A refusal in tick t as the port counts it. -/
def Port.countRefused (t : BitVec 48) (z : Port) : Port :=
  { z with cnt := { z.cnt with refused := z.cnt.refused + 1 }, refusedTick := t, refusedTo := if z.refusedTick = t then z.refusedTo else [] }

/-- The port remembers to whom a refusal was sent. -/
def Port.noteRefused (l : Nat × Nat × Nat) (z : Port) : Port := { z with refusedTo := l :: z.refusedTo }

/-- A refusal is counted, and its message is sent or not. -/
theorem State.sendRefused_cases (s : State) (n : Nat) (m : Lpt) (reason : Nat) :
    s.sendRefused n m reason = s.updPort n (Port.countRefused (s.die (n / 4)).o.tick) ∨ ∃ l k sid body, s.sendRefused n m reason =
      State.sendLpt { (s.updPort n (Port.countRefused (s.die (n / 4)).o.tick)).updPort n (Port.noteRefused l) with
        free := k } n 4 0 7 false sid m.seq m.tag m.peer body := by
  unfold State.sendRefused
  exact (ite_eq_or_eq _ _ _).imp id fun h => ⟨_, _, _, _, h⟩

/-- A refusal counts in the port; the port's sessions and its input stay. -/
theorem State.sendRefused_spec (s : State) (n : Nat) (m : Lpt) (reason : Nat) :
    ((s.sendRefused n m reason).port n).cnt = { (s.port n).cnt with refused := (s.port n).cnt.refused + 1 } ∧
      ((s.sendRefused n m reason).port n).inbox = (s.port n).inbox ∧
      (∀ i, ((s.sendRefused n m reason).session n i).settled = (s.session n i).settled) ∧
      (s.sendRefused n m reason).u.dies = s.u.dies ∧ (s.sendRefused n m reason).u.parts = s.u.parts ∧
      (s.sendRefused n m reason).h = s.h := by
  have hport (y : State) (f : Port → Port) : (y.updPort n f).port n = f (y.port n) := (y.updPort_port n n f).trans (if_pos rfl)
  rcases s.sendRefused_cases n m reason with h | ⟨l, k, sid, body, h⟩
  · rw [h]
    unfold State.session
    rw [hport]
    exact ⟨rfl, rfl, fun _ => rfl, rfl, rfl, rfl⟩
  · rw [h]
    generalize hx : (s.updPort n (Port.countRefused (s.die (n / 4)).o.tick)).updPort n (Port.noteRefused l) = x
    have hxport : x.port n = Port.noteRefused l (Port.countRefused (s.die (n / 4)).o.tick (s.port n)) := by
      rw [← hx, hport, hport]
    have hrest : x.u.dies = s.u.dies ∧ x.u.parts = s.u.parts ∧ x.h = s.h := by
      rw [← hx]
      simp only [State.updPort_u_dies, State.updPort_u_parts, State.updPort_h, and_self]
    have hsaid : (State.sendLpt { x with free := k } n 4 0 7 false sid m.seq m.tag m.peer body).unsaid n = x.unsaid n :=
      State.sendLpt_unsaid _ n 4 0 7 false sid m.seq m.tag m.peer body
    refine ⟨(State.cnt_of_unsaid hsaid).trans ?_, (State.inbox_of_unsaid hsaid).trans ?_, fun i => ?_, ?_⟩
    · rw [hxport]
      rfl
    · rw [hxport]
      rfl
    · rw [State.sendLpt_settled]
      have hsession : x.session n i = s.session n i := by
        rw [State.session, hxport]
        rfl
      exact congrArg Session.settled hsession
    · exact ⟨(congrArg (fun v => v.2.1) hsaid).trans hrest.1, (congrArg (fun v => v.2.2.1) hsaid).trans hrest.2.1,
        (congrArg (fun v => v.2.2.2) hsaid).trans hrest.2.2⟩

/-! ### Messages taken from the port's input (R336, R342) -/

/-- The port once the message at the head of its input is taken. -/
def State.taken (s : State) (n : Nat) (ms : List Lpt) : State := s.updPort n fun x => { x with inbox := ms }

theorem State.takeLpt_of_inbox {s : State} {n : Nat} {m : Lpt} {ms : List Lpt} {type : Nat} (h : (s.port n).inbox = m :: ms)
    (ht : m.type = type) (f : State → Lpt → State) : s.takeLpt n type f = f (s.taken n ms) m := by
  unfold State.takeLpt
  rw [h]
  exact if_pos ht

theorem State.taken_port (s : State) (n : Nat) (ms : List Lpt) : (s.taken n ms).port n = { s.port n with inbox := ms } := by
  rw [State.taken, State.updPort_port, if_pos rfl]

theorem State.taken_session (s : State) (n : Nat) (ms : List Lpt) (i : Nat) : (s.taken n ms).session n i = s.session n i := by
  rw [State.session, State.taken_port, State.session]

/-- The answer to an OPEN leaves the port's input, and its entries but for what they have to acknowledge. -/
theorem State.sendOpened_spec (y : State) (n i : Nat) (m : Lpt) (x : Session) :
    (∀ j, ((y.sendOpened n i m x).session n j).settled = (y.session n j).settled) ∧
      ((y.sendOpened n i m x).port n).inbox = (y.port n).inbox :=
  ⟨fun j => y.sendLpt_settled n 4 0 2 false _ _ _ _ [] j, State.inbox_of_unsaid (y.sendLpt_unsaid n 4 0 2 false _ _ _ _ [])⟩

/-- A session's fields other than its acknowledgement. -/
theorem Session.fields_of_settled {x y : Session} (h : x.settled = y.settled) :
    x.isOpen = y.isOpen ∧ x.peer = y.peer ∧ x.nonce = y.nonce ∧ x.base = y.base ∧ x.gen = y.gen := by
  injection h with hopen hgen hpeer hnonce _ hbase
  exact ⟨hopen, hpeer, hnonce, hbase, hgen⟩

section
variable {s : State} {n : PortId} {m : Lpt} {ms : List Lpt} (h : (s.port n).inbox = m :: ms)
include h

omit h in
/-- No session of the port is the one that an OPEN asks for again. -/
theorem find_open_none {p q : Nat × Session → Bool} (hs : ∀ e ∈ (s.port n).sessions, e.2.isOpen = false) :
    ((s.taken n ms).port n).sessions.find? (fun e => e.2.isOpen && p e && q e && decide (e.2.nonce = m.sid)) = none := by
  rw [State.taken_port, List.find?_eq_none]
  intro e he
  simp [hs e he]

/-- An OPEN takes the port's first entry where all are free. -/
theorem exec_open (ht : m.type = 1) (ha : (s.taken n ms).admits = true) (hmode : s.paramN 56 n 0 ≠ 2)
    (hbase : (s.taken n ms).tableBase n m.peer = 0) (hs : ∀ e ∈ (s.port n).sessions, e.2.isOpen = false)
    (hn : 0 < s.paramN 49 n 16384) : exec (.open_ n) s =
      let x := { s.session n 0 with
        isOpen := true, peer := m.peer, nonce := m.sid, part := none, base := m.seq, win := [], lastTick := s.tick, ackDue := false }
      .next (((s.taken n ms).setSession n 0 x).sendOpened n 0 m x) := by
  have he : exec (.open_ n) s = execOpen n s := rfl
  have hmode' : (decide ((s.taken n ms).paramN 56 n 0 = 2)) = false := decide_eq_false hmode
  have hfree : ((List.range ((s.taken n ms).paramN 49 n 16384)).find? fun i => !((s.taken n ms).session n (0 + i)).isOpen) = some 0 := by
    have hn' : 0 < (s.taken n ms).paramN 49 n 16384 := hn
    obtain ⟨k, hk⟩ := Nat.exists_eq_succ_of_ne_zero hn'.ne'
    rw [hk, List.range_succ_eq_map, List.find?_cons_of_pos]
    rw [State.taken_session, State.session_isOpen_of_none hs]
    rfl
  rw [he, execOpen, State.takeLpt_of_inbox h ht]
  dsimp only
  rw [find_open_none hs, hmode', ha, hbase]
  rw [if_neg (by decide), if_neg (by simp), hfree]
  dsimp only
  rw [State.taken_session]
  rfl

theorem exec_open_refused (ht : m.type = 1) (ha : (s.taken n ms).admits = false) (hs : ∀ e ∈ (s.port n).sessions, e.2.isOpen = false) :
    exec (.open_ n) s = .next ((s.taken n ms).sendRefused n m 3) := by
  have he : exec (.open_ n) s = execOpen n s := rfl
  rw [he, execOpen, State.takeLpt_of_inbox h ht]
  dsimp only
  rw [find_open_none hs, ha]
  dsimp only
  rw [if_pos (by decide)]

/-- A REQUEST that names no open session is refused. -/
theorem exec_request_noSession (ht : m.type = 3) (hx : (s.taken n ms).msgSession n m = none) : exec (.request n) s =
    .next (((s.taken n ms).updPort n fun z => { z with cnt := { z.cnt with noSession := z.cnt.noSession + 1 } }).sendRefused n m 6) := by
  have he : exec (.request n) s = execRequest n s := rfl
  rw [he, execRequest, State.takeLpt_of_inbox h ht]
  dsimp only
  rw [State.reqRow, hx]

theorem exec_ack {x : Session} (ht : m.type = 6) (hx : (s.taken n ms).msgSession n m = some x) : exec (.ack n) s =
    .next (((s.taken n ms).updSession n ((s.taken n ms).msgKey n m) fun x => { x with lastTick := s.tick }).clientAck n m x) := by
  have he : exec (.ack n) s = execAck n s := rfl
  rw [he, execAck, State.takeLpt_of_inbox h ht]
  dsimp only
  rw [hx]
  rfl

theorem exec_close {x : Session} (ht : m.type = 8) (hx : (s.taken n ms).msgSession n m = some x) : exec (.close_ n) s =
    .next ((((s.taken n ms).clientAck n m x).sendLpt n 4 0 9 false m.sid m.seq m.tag m.peer []).setSession n
      ((s.taken n ms).msgKey n m) x.freed) := by
  have he : exec (.close_ n) s = execClose n s := rfl
  rw [he, execClose, State.takeLpt_of_inbox h ht]
  rw [hx]

end

/-! ### The response cache (R339, R343) -/

/-- What the responses that leave a port's cache leave alone: the port but for its cache, the dies' parts of the order, the hub, and a
queue in which transactions land. -/
def State.cacheView (s : State) (n a p : Nat) : Port × (Nat → DieOrder) × Hub × Queue :=
  ({ s.port n with cached := [] }, fun d => (s.die d).o, s.h, s.queue a p 0)

theorem State.retirePacket_queue (s : State) (d p q v a b : Nat) (h : 8 * b ≠ 8 * p + q) :
    (s.retirePacket d p q v).queue a b 0 = s.queue a b 0 := by
  unfold State.retirePacket State.skipHead State.setQueue State.retype State.queue
  dsimp only
  rw [State.updDie_die]
  split
  next ha =>
    subst ha
    rw [State.updDie_die, if_pos rfl, Sparse.get_set, if_neg (by omega)]
  next ha => rw [State.updDie_die, if_neg ha]

theorem State.retirePacket_o (s : State) (d p q v e : Nat) : ((s.retirePacket d p q v).die e).o = (s.die e).o := by
  unfold State.retirePacket State.skipHead State.setQueue State.retype
  dsimp only
  rw [State.updDie_view Die.o (by intro _; rfl), State.updDie_view Die.o (by intro _; rfl)]

theorem State.uncache_port (s : State) (n : Nat) (e : Cached) :
    (s.uncache n e).port n = { s.port n with cached := (s.port n).cached.erase e } := by
  unfold State.uncache
  dsimp only
  rw [State.updPort_port, if_pos rfl]
  rfl

theorem State.uncache_cached (s : State) (n : Nat) (e : Cached) : ((s.uncache n e).port n).cached = (s.port n).cached.erase e := by
  rw [State.uncache_port]

theorem State.uncache_cacheView (s : State) (n : Nat) (e : Cached) (a p : Nat) : (s.uncache n e).cacheView n a p = s.cacheView n a p := by
  have ho := s.retirePacket_o (n / 4) e.part (4 + n % 4) e.ptr
  have hq := s.retirePacket_queue (n / 4) e.part (4 + n % 4) e.ptr a p (by omega)
  refine Prod.ext ?_ (Prod.ext (funext ho) (Prod.ext rfl hq))
  exact congrArg (fun z : Port => { z with cached := [] }) (s.uncache_port n e)

theorem foldl_uncache_cached (n : Nat) (l : List Cached) (s : State) :
    ((l.foldl (fun y e => y.uncache n e) s).port n).cached = (s.port n).cached.diff l := by
  induction l generalizing s with
  | nil => rfl
  | cons e l ih => rw [List.foldl_cons, ih, State.uncache_cached, List.diff_cons]

/-- Once the elements of a list that have a property are erased from it, none has it. -/
theorem not_of_mem_diff_filter {c : Cached → Bool} {l : List Cached} {e : Cached} (h : e ∈ l.diff (l.filter c)) : c e = false := by
  by_contra hc
  have hcount := List.count_diff e l (l.filter c)
  rw [List.count_filter (by simpa using hc), Nat.sub_self] at hcount
  exact List.count_eq_zero.1 hcount h

theorem State.clientAck_cacheView (s : State) (n : Nat) (m : Lpt) (x : Session) (a p : Nat) :
    (s.clientAck n m x).cacheView n a p = s.cacheView n a p :=
  foldl_keeps (State.cacheView · n a p) (fun y e => y.uncache_cacheView n e a p) _ s

/-- After an acknowledgement beyond E's predecessor no departed response before it is cached. -/
theorem State.clientAck_cached {s : State} {n : Nat} {m : Lpt} {x : Session} (h : 2 ^ 31 ≤ (m.ack - x.base).toNat) {e : Cached}
    (he : e ∈ ((s.clientAck n m x).port n).cached) (hd : e.departed = true) (hs : e.sid = m.sid) : (e.seq - m.ack).toNat < 2 ^ 31 := by
  unfold State.clientAck at he
  dsimp only at he
  rw [foldl_uncache_cached, if_neg (by omega)] at he
  have hnot := not_of_mem_diff_filter he
  simp only [hd, hs, decide_true, Bool.true_and, Bool.or_eq_false_iff, decide_eq_false_iff_not] at hnot
  omega

section
variable {s t : State} {n a p : Nat} (h : t.cacheView n a p = s.cacheView n a p)
include h

theorem State.session_of_cacheView (i : Nat) : t.session n i = s.session n i :=
  congrArg (fun v : Port × (Nat → DieOrder) × Hub × Queue => Sparse.get Session.reset v.1.sessions i) h

theorem State.inbox_of_cacheView : (t.port n).inbox = (s.port n).inbox :=
  congrArg (fun v : Port × (Nat → DieOrder) × Hub × Queue => v.1.inbox) h

theorem State.queue_of_cacheView : t.queue a p 0 = s.queue a p 0 :=
  congrArg (fun v : Port × (Nat → DieOrder) × Hub × Queue => v.2.2.2) h

end

/-! ### A REQUEST lands (R77, R338, R351) -/

/-- A REQUEST lands where the queue of its landing is enabled and has room for it. -/
theorem State.queue_of_reqRow {s : State} {n : Nat} {m : Lpt} {p : PartId} {a : DieId} (h : s.reqRow n m = .land p a) :
    (s.queue a p 0).en = true ∧ ¬ (s.queue a p 0).spare < 1 + (s.queue a p 0).payload m.octets.length := by
  unfold State.reqRow at h
  dsimp only at h
  split at h
  · cases h
  split at h
  · split at h
    · cases h
    · split at h <;> cases h
    split at h
    · cases h
    split at h
    · cases h
    split at h
    · cases h
    split at h
    · split at h
      · cases h
      split at h
      · cases h
      next hroom =>
        cases h
        simpa using hroom
    · cases h
  split at h
  · split at h <;> cases h
  · cases h

theorem State.reserveFrame_isSome {s : State} {a p len : Nat} (hen : (s.queue a p 0).en = true)
    (hroom : ¬ (s.queue a p 0).spare < 1 + (s.queue a p 0).payload len) : ∃ s2 ptr, s.reserveFrame a p len = some (s2, ptr) := by
  unfold State.reserveFrame State.reservePacket
  dsimp only
  rw [if_pos hen, if_neg hroom]
  exact ⟨_, _, rfl⟩

/-- A reservation changes a die's queue RAM and its queues. -/
theorem State.reserveFrame_spec {s s2 : State} {a p len ptr : Nat} (h : s.reserveFrame a p len = some (s2, ptr)) :
    (∀ d, (s2.die d).o = (s.die d).o) ∧ s2.u.ports = s.u.ports := by
  unfold State.reserveFrame State.reservePacket at h
  dsimp only at h
  split at h
  · split at h
    · cases h
    · cases h
      refine ⟨fun d => ?_, rfl⟩
      unfold State.setQueue
      rw [State.updDie_view Die.o (by intro _; rfl), State.updDie_view Die.o (by intro _; rfl)]
  · cases h

/-- The position that port n gives next. -/
def State.nextPos (s : State) (n : Nat) : Position :=
  { tick := (s.die (n / 4)).o.tick, port := BitVec.ofNat 6 n,
    seq := BitVec.ofNat 18 (if (s.port n).seqTick = (s.die (n / 4)).o.tick then (s.port n).seq else 0) }

/-- What the position depends on. -/
def State.stampView (s : State) (n : Nat) : (Nat → DieOrder) × BitVec 48 × Nat := (fun d => (s.die d).o, (s.port n).seqTick, (s.port n).seq)

theorem State.nextPos_of_stampView {s t : State} {n : Nat} (h : t.stampView n = s.stampView n) : t.nextPos n = s.nextPos n :=
  congrArg (fun v : (Nat → DieOrder) × BitVec 48 × Nat => 
    Position.mk (v.1 (n / 4)).tick (BitVec.ofNat 6 n) (BitVec.ofNat 18 (if v.2.1 = (v.1 (n / 4)).tick then v.2.2 else 0))) h

theorem State.updPort_stampView (s : State) (n : Nat) {f : Port → Port}
    (hf : ∀ z, (f z).seqTick = z.seqTick ∧ (f z).seq = z.seq := by intro _; exact ⟨rfl, rfl⟩) :
    (s.updPort n f).stampView n = s.stampView n := by
  obtain ⟨ht, hs⟩ := hf (s.port n)
  unfold State.stampView
  rw [State.updPort_port, if_pos rfl, ht, hs]
  rfl

theorem State.stampView_of_cacheView {s t : State} {n a p : Nat} (h : t.cacheView n a p = s.cacheView n a p) :
    t.stampView n = s.stampView n :=
  congrArg (fun v : Port × (Nat → DieOrder) × Hub × Queue => (v.2.1, v.1.seqTick, v.1.seq)) h

theorem State.updSession_stampView (s : State) (n i : Nat) (f : Session → Session) : (s.updSession n i f).stampView n = s.stampView n := by
  unfold State.updSession State.setSession
  rw [State.updPort_stampView]

/-- The state once a message of session x has been heard. -/
def State.heard (s : State) (n : Nat) (m : Lpt) (x : Session) : State :=
  (s.updSession n (s.msgKey n m) fun y => { y with lastTick := s.tick }).clientAck n m x

theorem State.heard_stampView (s : State) (n : Nat) (m : Lpt) (x : Session) : (s.heard n m x).stampView n = s.stampView n := by
  unfold State.heard
  rw [State.stampView_of_cacheView (State.clientAck_cacheView _ n m x 0 0), State.updSession_stampView]

theorem State.heard_queue (s : State) (n : Nat) (m : Lpt) (x : Session) (a p : Nat) : (s.heard n m x).queue a p 0 = s.queue a p 0 :=
  State.queue_of_cacheView (s := s.updSession n (s.msgKey n m) fun y => { y with lastTick := s.tick }) (State.clientAck_cacheView _ n m x a p)

theorem exec_request_land {s : State} {n : PortId} {m : Lpt} {ms : List Lpt} {x : Session} {p : PartId} {a : DieId}
    (h : (s.port n).inbox = m :: ms) (ht : m.type = 3) (hx : (s.taken n ms).msgSession n m = some x)
    (hrow : (s.taken n ms).reqRow n m = .land p a) :
    ∃ s2 ptr, ((s.taken n ms).heard n m x).reserveFrame a p m.octets.length = some (s2, ptr) ∧
      let s3 := ((s2.updSession n ((s.taken n ms).msgKey n m) fun y => y.setNum m.seq .inflight).stampPort n).1
      exec (.request n) s =
        .next (s3.land (n / 4) a { (s3.requestSlot n { m with peer := x.peer } p (s.nextPos n)) with place := some ptr }) := by
  obtain ⟨hen, hroom⟩ := State.queue_of_reqRow hrow
  rw [← (s.taken n ms).heard_queue n m x a p] at hen hroom
  obtain ⟨s2, ptr, hres⟩ := State.reserveFrame_isSome hen hroom
  refine ⟨s2, ptr, hres, ?_⟩
  have he : exec (.request n) s = execRequest n s := rfl
  have hres' : (State.clientAck ((s.taken n ms).updSession n ((s.taken n ms).msgKey n m) fun y =>
      { y with lastTick := (s.taken n ms).tick }) n m x).reserveFrame a p m.octets.length = some (s2, ptr) := hres
  obtain ⟨ho, hports⟩ := State.reserveFrame_spec hres
  have hs2 : s2.stampView n = ((s.taken n ms).heard n m x).stampView n := by
    unfold State.stampView State.port
    rw [funext ho, hports]
  have hview : (s2.updSession n ((s.taken n ms).msgKey n m) fun y => y.setNum m.seq .inflight).stampView n = s.stampView n := by
    rw [State.updSession_stampView, hs2, State.heard_stampView, State.taken, State.updPort_stampView]
  have hpos : ((s2.updSession n ((s.taken n ms).msgKey n m) fun y => y.setNum m.seq .inflight).stampPort n).2 = s.nextPos n :=
    State.nextPos_of_stampView hview
  rw [he, execRequest, State.takeLpt_of_inbox h ht]
  dsimp only
  rw [hrow, hx]
  dsimp only
  rw [hres']
  dsimp only
  rw [hpos]

/-! ### Acknowledgements that are due, and responses that are sent again (R339, R343) -/

theorem sidIndex_sidOf (gen : BitVec 18) {i : Nat} (hi : i < 16384) : sidIndex (sidOf gen i) = i := by
  unfold sidIndex sidOf
  rw [BitVec.toNat_append, BitVec.toNat_ofNat, Nat.mod_eq_of_lt (b := 2 ^ 14) hi, Nat.shiftLeft_eq, Nat.mul_comm, ← Nat.two_pow_add_eq_or_of_lt hi]
  omega

theorem sidGen_sidOf (gen : BitVec 18) (i : Nat) : sidGen (sidOf gen i) = gen := by
  unfold sidGen sidOf
  have hi := (BitVec.ofNat 14 i).isLt
  refine BitVec.eq_of_toNat_eq ?_
  rw [BitVec.toNat_ofNat, BitVec.toNat_append, Nat.shiftLeft_eq, Nat.mul_comm, ← Nat.two_pow_add_eq_or_of_lt hi]
  have := gen.isLt
  omega

theorem Peer.matches_refl (p : Peer) : p.matches p = true := by simp [Peer.matches]

/-- An open session of the port's own table is the one that its SID names. -/
theorem State.sidSession_own {s : State} {n i : Nat} (hi : i < 16384) (ho : (s.session n i).isOpen = true)
    (ha : s.adopted n (s.session n i).peer = false) :
    s.sidKey n (sidOf (s.session n i).gen i) (s.session n i).peer = i ∧
      s.sidSession n (sidOf (s.session n i).gen i) (s.session n i).peer = some (s.session n i) := by
  have hkey : s.sidKey n (sidOf (s.session n i).gen i) (s.session n i).peer = i := by
    rw [State.sidKey, State.tableBase, ha, sidIndex_sidOf _ hi, if_neg Bool.false_ne_true, Nat.zero_add]
  refine ⟨hkey, ?_⟩
  unfold State.sidSession
  dsimp only
  rw [hkey, if_pos]
  simp [ho, sidGen_sidOf]

/-- A message to an open session carries its acknowledgement, and waits to be sent. -/
theorem State.sendLpt_own {s : State} {n i : Nat} (hi : i < 16384) (ho : (s.session n i).isOpen = true)
    (ha : s.adopted n (s.session n i).peer = false) (hm : s.mute n = false) (prio part type : Nat) (retx : Bool) (seq tag : BitVec 32)
    (body : List Octet) :
    let t := s.sendLpt n prio part type retx (sidOf (s.session n i).gen i) seq tag (s.session n i).peer body
    (t.session n i).ackDue = false ∧ (t.port n).out.length = (s.port n).out.length + 1 := by
  obtain ⟨hkey, hsid⟩ := State.sidSession_own hi ho ha
  obtain ⟨k, hk⟩ := s.lptFrame_state n type retx (sidOf (s.session n i).gen i) seq tag (s.session n i).peer body
  have hacked : s.acked n (sidOf (s.session n i).gen i) (s.session n i).peer = s.updSession n i Session.settled := by
    rw [State.acked, hsid, hkey, Option.filter_some, Peer.matches_refl, if_pos rfl]
    exact if_pos rfl
  have hmute : State.mute { s.updSession n i Session.settled with free := k } n = false := hm
  have hport : State.port { s.updSession n i Session.settled with free := k } n =
      { s.port n with sessions := Sparse.set Session.reset (s.port n).sessions i (s.session n i).settled } := s.setSession_port n i _
  dsimp only
  unfold State.sendLpt
  dsimp only
  rw [State.queueOut_session, hk, hacked]
  refine ⟨?_, ?_⟩
  · exact congrArg Session.ackDue ((s.updSession_session n i i Session.settled).trans (if_pos rfl))
  · unfold State.queueOut
    rw [hmute, if_neg Bool.false_ne_true, State.updPort_port, if_pos rfl, hport, List.length_append]
    rfl

/-- An acknowledgement that is due is sent when its delay has passed. -/
theorem exec_lptAckDelay {s : State} {n : PortId} {i : Nat} (hi : i < 16384) (ho : (s.session n i).isOpen = true)
    (hdue : (s.session n i).ackDue = true) (ha : s.adopted n (s.session n i).peer = false) (hdelay : s.paramN 52 n 20 ≠ 0)
    (hm : s.mute n = false) : ∃ t, exec (.lptAckDelay n i) s = .next t ∧ (t.session n i).ackDue = false ∧
      (t.port n).out.length = (s.port n).out.length + 1 := by
  have he : exec (.lptAckDelay n i) s = execLptAckDelay n i s := rfl
  rw [he, execLptAckDelay]
  dsimp only
  rw [if_neg (by simp [ho, hdue, hdelay])]
  exact ⟨_, rfl, State.sendLpt_own (s := s.fresh.1) hi ho ha hm 4 0 6 false _ _ []⟩

section
variable {s : State} {n : PortId} {sid seq : BitVec 32} {e : Cached} (he : s.cachedFor n sid seq = some e)
include he

theorem State.mem_of_cachedFor : e ∈ (s.port n).cached := List.mem_of_find?_eq_some he

/-- A response whose backoff has passed is marked to be sent again. -/
theorem exec_lptResend (h0 : s.paramN 53 n 0 ≠ 0) (hmax : e.sends < s.paramN 54 n 2) (hdue : e.due = 0) (hm : s.mute n = false) :
    exec (.lptResend n sid seq) s = .next (s.resend n e true) := by
  have hexec : exec (.lptResend n sid seq) s = execLptResend n sid seq s := rfl
  rw [hexec, execLptResend, he]
  dsimp only
  rw [if_neg (by simp [h0, hm, hdue, Nat.not_le.2 hmax])]

theorem exec_lptResend_max (hmax : s.paramN 54 n 2 ≤ e.sends) : exec (.lptResend n sid seq) s = .next s := by
  have hexec : exec (.lptResend n sid seq) s = execLptResend n sid seq s := rfl
  rw [hexec, execLptResend, he]
  dsimp only
  rw [if_pos (.inr (.inl hmax))]

theorem exec_lptHoldExpiry : exec (.lptHoldExpiry n sid seq) s = .next (s.uncache n e) := by
  have hexec : exec (.lptHoldExpiry n sid seq) s = execLptHoldExpiry n sid seq s := rfl
  rw [hexec, execLptHoldExpiry, he]

end

theorem State.resend_port (s : State) (n : Nat) (e : Cached) (timed : Bool) : (s.resend n e timed).port n =
    { s.port n with
      cnt := { (s.port n).cnt with resent := (s.port n).cnt.resent + 1 },
      cached := (s.port n).cached.map fun x => if x = e then { x with sends := x.sends + bit timed, due := x.due + 1 } else x } := by
  rw [State.resend, State.updPort_port, if_pos rfl]

/-- The element of a list that an update names is updated. -/
theorem mem_map_update {α : Type} [DecidableEq α] {l : List α} {e : α} (f : α → α) (h : e ∈ l) :
    f e ∈ l.map fun x => if x = e then f x else x := List.mem_map.2 ⟨e, h, if_pos rfl⟩

/-! ### Admission (R108 to R110) -/

/-- What landing a packet leaves alone: the dies' parts of the order, the partitions and the hub. -/
def State.admitView (s : State) : (Nat → DieOrder) × Sparse Partition × Hub := (fun d => (s.die d).o, s.u.parts, s.h)

section
variable {s t : State} (h : t.admitView = s.admitView)
include h

theorem State.slot_of_admitView (d n : Nat) : t.slot d n = s.slot d n :=
  congrArg (fun v : (Nat → DieOrder) × Sparse Partition × Hub => Sparse.get Slot.reset (v.1 d).slots n) h

theorem State.partn_of_admitView (p : Nat) : t.partn p = s.partn p :=
  congrArg (fun v : (Nat → DieOrder) × Sparse Partition × Hub => Sparse.get Partition.reset v.2.1 p) h

theorem State.o_of_admitView (d : Nat) : (t.die d).o = (s.die d).o :=
  congrArg (fun v : (Nat → DieOrder) × Sparse Partition × Hub => v.1 d) h

theorem State.h_of_admitView : t.h = s.h := congrArg (fun v : (Nat → DieOrder) × Sparse Partition × Hub => v.2.2) h

end

theorem State.updDie_admitView (s : State) (d : Nat) {f : Die → Die} (hf : ∀ z, (f z).o = z.o := by intro _; rfl) :
    (s.updDie d f).admitView = s.admitView := by
  unfold State.admitView
  rw [funext (State.updDie_view Die.o hf s d)]
  rfl

theorem State.reservePacket_admitView {s s1 : State} {d p q n ptr : Nat} (h : s.reservePacket d p q n = some (s1, ptr)) :
    s1.admitView = s.admitView := by
  unfold State.reservePacket at h
  dsimp only at h
  split at h
  · cases h
  · cases h
    unfold State.setQueue
    rw [State.updDie_admitView, State.updDie_admitView]

theorem State.fillPacket_admitView (s : State) (d p q ptr : Nat) (x : Word) (l : List Word) :
    (s.fillPacket d p q ptr x l).admitView = s.admitView := by
  unfold State.fillPacket
  dsimp only
  rw [State.updDie_admitView]

theorem State.landPacket_admitView {s s1 : State} {d type ptr : Nat} {v : Slot} (h : s.landPacket d v type = some (s1, ptr)) :
    s1.admitView = s.admitView := by
  unfold State.landPacket at h
  split at h
  · cases h
  dsimp only at h
  split at h
  · cases h
    exact s.fillPacket_admitView ..
  · obtain ⟨⟨y, ptr'⟩, hres, heq⟩ := Option.map_eq_some_iff.1 h
    cases heq
    rw [State.fillPacket_admitView, State.reservePacket_admitView hres]

theorem State.discardPacket_admitView (s : State) (d p q ptr : Nat) : (s.discardPacket d p q ptr).admitView = s.admitView := by
  unfold State.discardPacket State.skipHead State.setQueue State.retype
  dsimp only
  rw [State.updDie_admitView, State.updDie_admitView]

theorem State.setNumber_admitView (s : State) (v : Slot) (f : Session → Session) : (s.setNumber v f).admitView = s.admitView := by
  unfold State.setNumber
  split <;> rfl

theorem State.sendRefused_admitView (s : State) (n : Nat) (m : Lpt) (reason : Nat) : (s.sendRefused n m reason).admitView = s.admitView := by
  obtain ⟨-, -, -, hdies, hparts, hh⟩ := s.sendRefused_spec n m reason
  unfold State.admitView State.die
  rw [hdies, hparts, hh]

theorem State.hostRefused_spec (s : State) (v : Slot) (outcome : Nat) (pos : Position) :
    (s.hostRefused v outcome pos).u = s.u ∧ (s.hostRefused v outcome pos).h = { s.h with host := (s.hostRefused v outcome pos).h.host } :=
  ⟨rfl, rfl⟩

/-- A refusal as the partition counts it. -/
def Partition.countRefused (q : Partition) : Partition := { q with cnt := { q.cnt with refused := q.cnt.refused + 1 } }

theorem State.refuseStamped_eq (s : State) (v : Slot) (reason : Nat) : s.refuseStamped v reason true =
    if v.org.host then (s.updPartn v.part Partition.countRefused).hostRefused v (reason + 4) v.pos
    else ((s.updPartn v.part Partition.countRefused).setNumber v fun x => x.setNum v.org.seq .none).sendRefused v.org.port v.lpt reason :=
  rfl

/-- A refusal of a stamped transaction counts in its partition. -/
theorem State.refuseStamped_spec (s : State) (v : Slot) (reason : Nat) :
    ((s.refuseStamped v reason true).partn v.part).cnt.refused = (s.partn v.part).cnt.refused + 1 ∧
      (∀ d, ((s.refuseStamped v reason true).die d).o = (s.die d).o) ∧
      (s.refuseStamped v reason true).h = { s.h with host := (s.refuseStamped v reason true).h.host } := by
  rw [State.refuseStamped_eq]
  have hcount : ((s.updPartn v.part Partition.countRefused).partn v.part).cnt.refused = (s.partn v.part).cnt.refused + 1 := by
    rw [State.updPartn_partn, if_pos rfl, Partition.countRefused]
  split
  · obtain ⟨hu, hh⟩ := State.hostRefused_spec (s.updPartn v.part Partition.countRefused) v (reason + 4) v.pos
    refine ⟨?_, fun d => ?_, ?_⟩
    · rw [State.partn, hu]
      exact hcount
    · rw [State.die, hu, State.updPartn_u_dies, State.die]
    · rw [hh, State.updPartn_h]
  · have hview := (State.sendRefused_admitView _ v.org.port v.lpt reason).trans
      (State.setNumber_admitView (s.updPartn v.part Partition.countRefused) v fun x => x.setNum v.org.seq .none)
    refine ⟨?_, fun d => ?_, ?_⟩
    · rw [State.partn_of_admitView hview, hcount]
    · rw [State.o_of_admitView hview, State.updPartn_die]
    · rw [State.h_of_admitView hview, State.updPartn_h]

/-- Tandem pairs are no matter of the host interface. -/
theorem State.tandemOf_of_h {s t : State} (h : t.h = { s.h with host := t.h.host }) (p : Nat) : t.tandemOf p = s.tandemOf p :=
  calc t.tandemOf p = State.tandemOf { s with h := t.h } p := rfl
    _ = State.tandemOf { s with h := { s.h with host := t.h.host } } p := by rw [← h]
    _ = s.tandemOf p := rfl

theorem State.copyToPartner_of_none {s : State} {v : Slot} (h : s.tandemOf v.part = none) (d : Nat) (admitted : Bool) :
    s.copyToPartner d v admitted = s := by
  unfold State.copyToPartner
  dsimp only
  split
  · rw [h]
    exact if_neg (by simp)
  · rfl

/-- A transaction as it lands on die d. -/
def State.landedSlot (s : State) (d : DieId) (v : Slot) : Slot :=
  { v with
    chars := s.landed (if v.org.host then 4 * d.val else v.org.port) (s.queue d v.part 0) v.octets,
    dense := (s.queue d v.part 0).dense }

section
variable {s s1 : State} {d : DieId} {v : Slot} {ptr : Nat} (hl : s.landPacket d (s.landedSlot d v) 1 = some (s1, ptr))
include hl

theorem State.arrive_refused {reason : Nat} (hr : s1.admitRefusal d v.part v.octets.length = some reason) :
    s.arrive d v = (s1.discardPacket d v.part 0 ptr).refuseStamped (s.landedSlot d v) reason true := by
  have hl' : s.landPacket d { v with
      chars := s.landed (if v.org.host then 4 * d.val else v.org.port) (s.queue d v.part 0) v.octets,
      dense := (s.queue d v.part 0).dense } 1 = some (s1, ptr) := hl
  unfold State.arrive
  dsimp only
  rw [hl']
  dsimp only
  rw [hr]
  rfl

/-- The slot that an admitted transaction takes, and its entry at the gate. -/
def State.admitted (s1 : State) (d : DieId) (w : Slot) (ptr : Nat) : State :=
  (s1.takeFreeSlot d w ptr).1.enterGate d (s1.takeFreeSlot d w ptr).2 w

theorem State.arrive_admitted (hr : s1.admitRefusal d v.part v.octets.length = none) :
    (s.arrive d v).admitView = (s1.admitted d (s.landedSlot d v) ptr).admitView := by
  have hl' : s.landPacket d { v with
      chars := s.landed (if v.org.host then 4 * d.val else v.org.port) (s.queue d v.part 0) v.octets,
      dense := (s.queue d v.part 0).dense } 1 = some (s1, ptr) := hl
  have harrive : s.arrive d v = if v.org.host then s1.admitted d (s.landedSlot d v) ptr
      else (s1.admitted d (s.landedSlot d v) ptr).setNumber (s.landedSlot d v) fun x => { (x.hold v.org.seq) with ackDue := true } := by
    unfold State.arrive
    dsimp only
    rw [hl']
    dsimp only
    rw [hr]
    rfl
  rw [harrive]
  split
  · rfl
  · exact State.setNumber_admitView _ _ _

end

theorem State.exists_freeSlot {s : State} {d p len : Nat} (h : s.admitRefusal d p len = none) :
    ∃ k, s.freeSlotOf d = some k ∧ (s.slot d k).st = .free := by
  unfold State.admitRefusal at h
  split at h
  · cases h
  split at h
  · cases h
  next hfree =>
    rw [not_or] at hfree
    obtain ⟨k, hk⟩ := Option.ne_none_iff_exists'.1 (fun hn => hfree.1 (Option.isNone_iff_eq_none.2 hn))
    exact ⟨k, hk, by simpa using List.find?_some hk⟩

/-- An admitted transaction is in its slot and at the gate, and counted. -/
theorem State.admitted_spec {s : State} {d : DieId} {k : Nat} (hk : s.freeSlotOf d = some k) (w : Slot) (ptr : Nat) :
    (s.admitted d w ptr).slot d k = { w with st := .queued, place := some ptr } ∧
      (∀ j, j ≠ k → (s.admitted d w ptr).slot d j = s.slot d j) ∧
      ((s.admitted d w ptr).partn w.part).cnt.admitted = (s.partn w.part).cnt.admitted + 1 ∧
      (∃ g ∈ ((s.admitted d w ptr).partn w.part).txns, g.pos = w.pos ∧ g.curfew = w.curfew ∧ g.outcome = none) ∧
      (s.admitted d w ptr).h = s.h := by
  have htake : s.takeFreeSlot d w ptr = (s.setSlot d k { w with st := .queued, place := some ptr }, k) := by
    rw [State.takeFreeSlot, hk]
    rfl
  have hslot (x : State) (j : Nat) : (x.enterGate d k w).slot d j = x.slot d j := rfl
  unfold State.admitted
  rw [htake]
  refine ⟨?_, fun j hj => ?_, ?_, ?_, rfl⟩
  · rw [hslot, State.setSlot_slot, if_pos ⟨rfl, rfl⟩]
  · rw [hslot, State.setSlot_slot, if_neg (by simp [hj])]
  · unfold State.enterGate
    rw [State.updPartn_partn, if_pos rfl]
    rfl
  · unfold State.enterGate
    rw [State.updPartn_partn, if_pos rfl]
    exact ⟨_, List.mem_append_right _ (List.mem_singleton_self _), rfl, rfl, rfl⟩

/-- The transactions that travel to die d. -/
def Msg.isCopyTo (d : DieId) : Msg → Bool
  | .copy e _ _ _ => decide (e = d)
  | _ => false

/-- A transaction that has travelled from its port's die arrives. -/
theorem exec_frameCopyArrive {s : State} {d : DieId} {v : Slot} {rest : List Msg}
    (h : takeMsg (Msg.isCopyTo d) [] s.msgs = some (.copy d v false none, rest)) (ha : s.alive d = true) (hn : s.tandemOf v.part = none)
    (hh : (State.arrive { s with msgs := rest } d v).h = { s.h with host := (State.arrive { s with msgs := rest } d v).h.host }) :
    exec (.frameCopyArrive d) s = .next (State.arrive { s with msgs := rest } d v) := by
  have hna : ¬ (!State.alive { s with msgs := rest } d) = true := by simpa using ha
  refine congrArg Host.Outcome.next ((State.receive_of_takeMsg h _).trans ((if_neg hna).trans ((if_pos rfl).trans ?_)))
  exact State.copyToPartner_of_none ((State.tandemOf_of_h hh v.part).trans hn) _ _

/-! ### Departures (R137, R355) -/

section
variable {s : State} {n : PortId} {p : PartId} (hn : n.val < 32) (ha : s.alive (n / 4) = true) (hm : s.mute n = false)
include hn ha hm

theorem exec_departurePass : exec (.departurePass n p) s = .next ((s.departing n p).foldl (fun x e => x.depart n e) s) := by
  have he : exec (.departurePass n p) s = execDeparturePass n p s := rfl
  rw [he, execDeparturePass, if_neg (by simp [ha, hm, hn])]

end

theorem State.mem_of_departing {s : State} {n p : Nat} {e : Cached} (h : s.departing n p = [e]) : e ∈ (s.port n).cached :=
  (List.mem_filter.1 (h ▸ List.mem_singleton_self e)).1

/-- A response of the port's own die waits to be sent. -/
theorem State.depart_port {s : State} {n : Nat} {e : Cached} (h : (s.slot e.die e.slot).org.port / 4 = n / 4) :
    (s.depart n e).port n =
      { s.port n with cached := (s.port n).cached.map fun x => if x = e then { x with due := 1 } else x } := by
  unfold State.depart
  dsimp only
  rw [if_pos (.inl h), State.updPort_port, if_pos rfl]

/-- What a frame that is sent reads of the state: the ports, the dies' parts of the order, and the frames sent before it. -/
def State.sendView (s : State) : Sparse Port × (Nat → DieOrder) × List Sent := (s.u.ports, fun d => (s.die d).o, s.sent)

theorem State.port_of_sendView {s t : State} (h : t.sendView = s.sendView) (n : Nat) : t.port n = s.port n :=
  congrArg (fun v : Sparse Port × (Nat → DieOrder) × List Sent => Sparse.get Port.reset v.1 n) h

theorem State.sent_of_sendView {s t : State} (h : t.sendView = s.sendView) : t.sent = s.sent :=
  congrArg (fun v : Sparse Port × (Nat → DieOrder) × List Sent => v.2.2) h

theorem State.updDie_sendView (s : State) (d : Nat) {f : Die → Die} (hf : ∀ z, (f z).o = z.o := by intro _; rfl) :
    (s.updDie d f).sendView = s.sendView := by
  unfold State.sendView
  rw [funext (State.updDie_view Die.o hf s d)]
  rfl

/-- A corrected error is logged without an interrupt to the host. -/
theorem State.logErr_corrected_sendView (s : State) (code die : Nat) (hub : Bool) (part unit : Nat) (w2 w3 : Word) :
    (s.logErr code 1 die hub part unit w2 w3).sendView = s.sendView := by
  unfold State.logErr
  dsimp only
  rw [if_neg (by decide)]
  rfl

theorem State.ramCorrected_sendView (s : State) (d p unit : Nat) (ls : List Nat) : (s.ramCorrected d p unit ls).sendView = s.sendView :=
  foldl_keeps State.sendView (fun x c => by rw [State.updDie_sendView, State.logErr_corrected_sendView]) _ s

theorem State.cachePacket_sendView (s : State) (d p q ptr : Nat) (t : BitVec 48) : (s.cachePacket d p q ptr t).sendView = s.sendView := by
  unfold State.cachePacket State.retype
  dsimp only
  rw [State.updDie_sendView, State.updDie_sendView]

/-- The queue RAM lines of the packet at pointer v. -/
def State.packetLines (s : State) (d p q v : Nat) : List Nat :=
  (s.queue d p q).lines v ((s.queue d p q).payload (lwOctets ((s.queue d p q).read (s.die d).qram v)))

/-- A packet without an uncorrectable error is read, its corrections noted. -/
theorem State.packetRead_cases (s : State) (d p q v : Nat) : (s.packetRead d p q v).2 = (s.ramBad d (s.packetLines d p q v)).isSome ∧
    ((s.packetRead d p q v).2 = false → (s.packetRead d p q v).1 = s.ramCorrected d p 0 (s.packetLines d p q v)) := by
  unfold State.packetRead State.packetLines
  dsimp only
  cases s.ramBad d ((s.queue d p q).lines v ((s.queue d p q).payload (lwOctets ((s.queue d p q).read (s.die d).qram v)))) with
  | none => exact ⟨rfl, fun _ => rfl⟩
  | some l => exact ⟨rfl, fun h => (by cases h)⟩

/-- A packet that can be read leaves the ports, the order and the frames sent alone, whatever its port holds. -/
theorem State.packetRead_of_read {s : State} {d p q v : Nat} (h : (s.packetRead d p q v).2 = false) (n : Nat) (f : Port → Port) :
    ((s.updPort n f).packetRead d p q v).2 = false ∧ ((s.updPort n f).packetRead d p q v).1.sendView = (s.updPort n f).sendView := by
  obtain ⟨hlost, hread⟩ := (s.updPort n f).packetRead_cases d p q v
  have hsound : ((s.updPort n f).packetRead d p q v).2 = false := hlost.trans ((s.packetRead_cases d p q v).1.symm.trans h)
  exact ⟨hsound, by rw [hread hsound, State.ramCorrected_sendView]⟩

/-- A slot whose response has departed says so, or has been freed. -/
theorem State.respGone_slot (s : State) (e : Cached) :
    ((s.respGone e).slot e.die e.slot).departed = true ∨ ((s.respGone e).slot e.die e.slot).st = .free := by
  unfold State.respGone
  rcases State.tryFree_cases (s.updSlot e.die e.slot fun v => { v with departed := true }) e.die e.slot with h | h
  · rw [h, State.updSlot_slot_same]
    exact .inl rfl
  · rw [h]
    unfold State.freeSlot
    dsimp only
    rw [State.setSlot_slot, if_pos ⟨rfl, rfl⟩]
    exact .inr rfl

theorem State.respGone_port (s : State) (e : Cached) (n : Nat) :
    (s.respGone e).port n = s.port n ∧ (s.respGone e).sent = s.sent := by
  have h : (s.respGone e).beyondDies = s.beyondDies := by
    unfold State.respGone
    rw [State.tryFree_beyondDies]
    rfl
  have hport : (s.respGone e).beyondDies.port n = s.beyondDies.port n := by rw [h]
  have hsent : (s.respGone e).beyondDies.sent = s.beyondDies.sent := by rw [h]
  exact ⟨hport, hsent⟩

theorem State.lptFrame_sent (s : State) (n type : Nat) (retx : Bool) (sid seq tag : BitVec 32) (p : Peer) (body : List Octet) :
    (s.lptFrame n type retx sid seq tag p body).1.sent = s.sent := by
  obtain ⟨k, hk⟩ := s.lptFrame_state n type retx sid seq tag p body
  rw [hk]
  unfold State.acked
  split <;> rfl

/-- A response as its cache holds it once its frame has been sent in tick t. -/
def Cached.leaves (t : BitVec 48) (e : Cached) : Cached := { e with departed := true, due := e.due - 1, tick := t }

/-- Port n with response e gone out in tick t. -/
def State.noteSent (s : State) (n : Nat) (e : Cached) (t : BitVec 48) : State :=
  s.updPort n fun z => { z with cached := z.cached.map fun x => if x = e then x.leaves t else x }

/-- The frame of a response whose packet can be read. -/
theorem State.sendResponse_spec {s : State} {n : Nat} {e : Cached} (he : e ∈ (s.port n).cached)
    (hlost : (s.packetRead (n / 4) e.part (4 + n % 4) e.ptr).2 = false)
    (hview : (s.packetRead (n / 4) e.part (4 + n % 4) e.ptr).1.sendView = s.sendView) :
    ∃ t o, s.sendResponse n e = (t, some o) ∧ t.sent = s.sent ∧ e.leaves (s.die (n / 4)).o.tick ∈ (t.port n).cached ∧
      (e.departed = false → (t.slot e.die e.slot).departed = true ∨ (t.slot e.die e.slot).st = .free) := by
  generalize hs0 : (s.packetRead (n / 4) e.part (4 + n % 4) e.ptr).1 = s0 at hview
  generalize hs1 : s0.noteSent n e (s.die (n / 4)).o.tick = s1
  have hcached : e.leaves (s.die (n / 4)).o.tick ∈ (s1.port n).cached := by
    rw [← hs1, State.noteSent, State.updPort_port, if_pos rfl, State.port_of_sendView hview]
    exact mem_map_update (Cached.leaves (s.die (n / 4)).o.tick) he
  have hsent1 : s1.sent = s.sent := by
    have hsent := State.sent_of_sendView hview
    rw [← hs1, ← hsent]
    rfl
  have hresp : ∃ s2 o, s.sendResponse n e = ((s2.lptFrame n 4 (e.departed || e.retx) e.sid e.seq e.tag e.peer o).1,
      some (s2.lptFrame n 4 (e.departed || e.retx) e.sid e.seq e.tag e.peer o).2) ∧ s2 = if e.departed then s1
        else (s1.cachePacket (n / 4) e.part (4 + n % 4) e.ptr (s.die (n / 4)).o.tick).respGone e := by
    refine ⟨_, s.packetOctets (n / 4) e.part (4 + n % 4) e.ptr 4, ?_, rfl⟩
    unfold State.sendResponse
    dsimp only
    rw [hlost, if_neg Bool.false_ne_true, hs0, ← hs1]
    rfl
  obtain ⟨s2, body, hresp, hs2⟩ := hresp
  have hport2 : s2.port n = s1.port n ∧ s2.sent = s1.sent := by
    rw [hs2]
    split
    · exact ⟨rfl, rfl⟩
    · obtain ⟨hport, hsent⟩ := State.respGone_port (s1.cachePacket (n / 4) e.part (4 + n % 4) e.ptr (s.die (n / 4)).o.tick) e n
      have hcache := s1.cachePacket_sendView (n / 4) e.part (4 + n % 4) e.ptr (s.die (n / 4)).o.tick
      exact ⟨hport.trans (State.port_of_sendView hcache n), hsent.trans (State.sent_of_sendView hcache)⟩
  have hsaid := s2.lptFrame_unsaid n 4 (e.departed || e.retx) e.sid e.seq e.tag e.peer body
  refine ⟨_, _, hresp, ?_, ?_, fun hd => ?_⟩
  · rw [State.lptFrame_sent, hport2.2, hsent1]
  · rw [State.cached_of_unsaid hsaid, hport2.1]
    exact hcached
  · have hslot := State.respGone_slot (s1.cachePacket (n / 4) e.part (4 + n % 4) e.ptr (s.die (n / 4)).o.tick) e
    have hsame : (s2.lptFrame n 4 (e.departed || e.retx) e.sid e.seq e.tag e.peer body).1.slot e.die e.slot = s2.slot e.die e.slot :=
      by
      rw [State.slot, State.die, State.dies_of_unsaid hsaid, State.slot, State.die]
    rw [hsame, hs2, hd, if_neg Bool.false_ne_true]
    exact hslot

/-- A port without a frame of its own to send sends its next response. -/
theorem exec_frameTransmit_response {s : State} {n : PortId} {e : Cached} (ha : s.alive (n / 4) = true)
    (hm : s.mute n = false) (hup : (s.port n).up = true) (hex : s.portExists n = true) (hout : (s.port n).nextOut = none)
    (hresp : (s.port n).nextResponse = some e) (hlost : (s.packetRead (n / 4) e.part (4 + n % 4) e.ptr).2 = false) :
    ∃ t, exec (.frameTransmit n) s = .next t ∧ (∃ f, t.sent = s.sent ++ [.frame n f]) ∧
      e.leaves (s.die (n / 4)).o.tick ∈ (t.port n).cached ∧
      (e.departed = false → (t.slot e.die e.slot).departed = true ∨ (t.slot e.die e.slot).st = .free) := by
  have he : exec (.frameTransmit n) s = execFrameTransmit n s := rfl
  have hmem : e ∈ (s.port n).cached := by
    obtain ⟨p, -, hp⟩ := List.exists_of_findSome?_eq_some hresp
    exact List.mem_of_find?_eq_some hp
  obtain ⟨hread, hview⟩ := State.packetRead_of_read hlost n fun z => { z with rr := e.part }
  have hmem' : e ∈ ((s.updPort n fun z => { z with rr := e.part }).port n).cached := by
    rw [State.updPort_port, if_pos rfl]
    exact hmem
  obtain ⟨y, o, hsend, hsent, hcached, hslot⟩ := State.sendResponse_spec hmem' hread hview
  have hexec : exec (.frameTransmit n) s =
      .next ((y.countPort n fun c => { c with txFrames := c.txFrames + 1 }).emit (.frame n o)) := by
    rw [he, execFrameTransmit, if_neg (by simp [hup, hm, ha, hex])]
    dsimp only
    rw [hout, hresp]
    dsimp only
    rw [hsend]
  refine ⟨_, hexec, ⟨o, ?_⟩, ?_, hslot⟩
  · rw [← show y.sent = s.sent from hsent]
    rfl
  · have hport : ((y.countPort n fun c => { c with txFrames := c.txFrames + 1 }).port n).cached = (y.port n).cached := by
      rw [State.countPort, State.updPort_port, if_pos rfl]
    exact hport.symm ▸ hcached

/-! ### The clauses of a port's input (R336 to R339, R342) -/

section
variable {s : State} {n : PortId} {m : Lpt} {ms : List Lpt} (h : (s.port n).inbox = m :: ms)
include h

/-- An OPEN opens the port's first entry where all are free. -/
theorem open_opens (ht : m.type = 1) (ha : (s.taken n ms).admits = true) (hmode : s.paramN 56 n 0 ≠ 2)
    (hbase : (s.taken n ms).tableBase n m.peer = 0) (hs : ∀ e ∈ (s.port n).sessions, e.2.isOpen = false)
    (hn : 0 < s.paramN 49 n 16384) : ∃ t, exec (.open_ n) s = .next t ∧ (t.session n 0).isOpen = true ∧
      (t.session n 0).peer = m.peer ∧ (t.session n 0).nonce = m.sid ∧ (t.session n 0).base = m.seq ∧
      (t.session n 0).gen = (s.session n 0).gen ∧ (t.port n).inbox = ms := by
  refine ⟨_, exec_open h ht ha hmode hbase hs hn, ?_⟩
  generalize hx : ({ s.session n 0 with
    isOpen := true, peer := m.peer, nonce := m.sid, part := none, base := m.seq, win := [], lastTick := s.tick,
    ackDue := false } : Session) = x
  obtain ⟨hsession, hinbox⟩ := ((s.taken n ms).setSession n 0 x).sendOpened_spec n 0 m x
  have hfields := hsession 0
  rw [State.setSession_session, if_pos rfl] at hfields
  obtain ⟨hopen, hpeer, hnonce, hseq, hgen⟩ := Session.fields_of_settled hfields
  rw [hopen, hpeer, hnonce, hseq, hgen, hinbox, State.setSession_port, s.taken_port n ms, ← hx]
  exact ⟨rfl, rfl, rfl, rfl, rfl, rfl⟩

/-- An OPEN outside admission is refused, and opens nothing. -/
theorem open_refused (ht : m.type = 1) (ha : (s.taken n ms).admits = false) (hs : ∀ e ∈ (s.port n).sessions, e.2.isOpen = false) :
    ∃ t, exec (.open_ n) s = .next t ∧ (t.port n).cnt.refused = (s.port n).cnt.refused + 1 ∧ (t.port n).inbox = ms ∧
      ∀ i, (t.session n i).isOpen = false := by
  obtain ⟨hcnt, hinbox, hsessions, -⟩ := (s.taken n ms).sendRefused_spec n m 3
  refine ⟨_, exec_open_refused h ht ha hs, ?_, ?_, fun i => ?_⟩
  · rw [hcnt, s.taken_port n ms]
  · rw [hinbox, s.taken_port n ms]
  · rw [Session.isOpen_of_settled (hsessions i), State.taken_session, State.session_isOpen_of_none hs]

/-- A REQUEST that names no open session is counted and refused. -/
theorem request_noSession (ht : m.type = 3) (hx : (s.taken n ms).msgSession n m = none) : ∃ t, exec (.request n) s = .next t ∧
    (t.port n).cnt.noSession = (s.port n).cnt.noSession + 1 ∧ (t.port n).cnt.refused = (s.port n).cnt.refused + 1 ∧
    (t.port n).inbox = ms := by
  refine ⟨_, exec_request_noSession h ht hx, ?_⟩
  obtain ⟨hcnt, hinbox, -⟩ := ((s.taken n ms).updPort n fun z =>
    { z with cnt := { z.cnt with noSession := z.cnt.noSession + 1 } }).sendRefused_spec n m 6
  rw [hcnt, hinbox, State.updPort_port, if_pos rfl, s.taken_port n ms]
  exact ⟨rfl, rfl, rfl⟩

/-- An ACK beyond E releases the responses before it. -/
theorem ack_releases {x : Session} (ht : m.type = 6) (hx : (s.taken n ms).msgSession n m = some x)
    (hk : 2 ^ 31 ≤ (m.ack - x.base).toNat) : ∃ t, exec (.ack n) s = .next t ∧ (t.port n).inbox = ms ∧
      (t.session n ((s.taken n ms).msgKey n m)).lastTick = s.tick ∧
      ∀ e ∈ (t.port n).cached, e.departed = true → e.sid = m.sid → (e.seq - m.ack).toNat < 2 ^ 31 := by
  refine ⟨_, exec_ack h ht hx, ?_⟩
  generalize hy : ((s.taken n ms).updSession n ((s.taken n ms).msgKey n m) fun x => { x with lastTick := s.tick }) = y
  have hack := y.clientAck_cacheView n m x 0 0
  refine ⟨?_, ?_, fun e he hd hs => State.clientAck_cached hk he hd hs⟩
  · rw [State.inbox_of_cacheView hack, ← hy, State.updSession, State.setSession_port, s.taken_port n ms]
  · rw [State.session_of_cacheView hack, ← hy, State.updSession_session, if_pos rfl]

/-- A CLOSE frees its entry. -/
theorem close_frees {x : Session} (ht : m.type = 8) (hx : (s.taken n ms).msgSession n m = some x) : ∃ t, exec (.close_ n) s = .next t ∧
    t.session n ((s.taken n ms).msgKey n m) = x.freed ∧ (t.port n).inbox = ms := by
  have hack := (s.taken n ms).clientAck_cacheView n m x 0 0
  have hsaid := ((s.taken n ms).clientAck n m x).sendLpt_unsaid n 4 0 9 false m.sid m.seq m.tag m.peer []
  refine ⟨_, exec_close h ht hx, ?_, ?_⟩
  · rw [State.setSession_session, if_pos rfl]
  · rw [State.setSession_port]
    dsimp only
    rw [State.inbox_of_unsaid hsaid, State.inbox_of_cacheView hack, s.taken_port n ms]

end

/-! ### The clauses of admission (R108 to R110) -/

section
variable {s s1 : State} {d : DieId} {v : Slot} {rest : List Msg} {ptr : Nat}
  (h : takeMsg (Msg.isCopyTo d) [] s.msgs = some (.copy d v false none, rest)) (ha : s.alive d = true) (hn : s.tandemOf v.part = none)
  (hl : State.landPacket { s with msgs := rest } d (State.landedSlot { s with msgs := rest } d v) 1 = some (s1, ptr))
include h ha hn hl

theorem frameCopyArrive_admits (hr : s1.admitRefusal d v.part v.octets.length = none) : ∃ t k, exec (.frameCopyArrive d) s = .next t ∧
    (s.slot d k).st = .free ∧
    t.slot d k = { State.landedSlot { s with msgs := rest } d v with st := .queued, place := some ptr } ∧
    (t.partn v.part).cnt.admitted = (s.partn v.part).cnt.admitted + 1 ∧
    (∃ g ∈ (t.partn v.part).txns, g.pos = v.pos ∧ g.curfew = v.curfew ∧ g.outcome = none) ∧
    ∀ j, j ≠ k → t.slot d j = s.slot d j := by
  have hview : s1.admitView = s.admitView := (State.landPacket_admitView hl).trans rfl
  have harrive := State.arrive_admitted hl hr
  obtain ⟨k, hk, hfree⟩ := State.exists_freeSlot hr
  obtain ⟨hslot, hothers, hcnt, htxns, hh⟩ := State.admitted_spec hk (State.landedSlot { s with msgs := rest } d v) ptr
  have hhub := (State.h_of_admitView harrive).trans (hh.trans (State.h_of_admitView hview))
  have hpart := State.partn_of_admitView hview v.part
  refine ⟨_, k, exec_frameCopyArrive h ha hn (by rw [hhub]), ?_, ?_, ?_, ?_, fun j hj => ?_⟩
  · rw [← State.slot_of_admitView hview, hfree]
  · rw [State.slot_of_admitView harrive, hslot]
  · rw [State.partn_of_admitView harrive, ← hpart]
    exact hcnt
  · rw [State.partn_of_admitView harrive]
    exact htxns
  · rw [State.slot_of_admitView harrive, hothers j hj, State.slot_of_admitView hview]

theorem frameCopyArrive_refuses {reason : Nat} (hr : s1.admitRefusal d v.part v.octets.length = some reason) :
    ∃ t, exec (.frameCopyArrive d) s = .next t ∧ (t.partn v.part).cnt.refused = (s.partn v.part).cnt.refused + 1 ∧
      (t.die d).o.slots = (s.die d).o.slots := by
  have hview : s1.admitView = s.admitView := (State.landPacket_admitView hl).trans rfl
  have hdiscard := (s1.discardPacket_admitView d v.part 0 ptr).trans hview
  obtain ⟨hcnt, ho, hh⟩ :=
    (s1.discardPacket d v.part 0 ptr).refuseStamped_spec (State.landedSlot { s with msgs := rest } d v) reason
  rw [← State.arrive_refused hl hr] at hcnt ho hh
  rw [State.h_of_admitView hdiscard] at hh
  refine ⟨_, exec_frameCopyArrive h ha hn hh, ?_, ?_⟩
  · rw [← State.partn_of_admitView hdiscard]
    exact hcnt
  · rw [ho, State.o_of_admitView hdiscard]

end

/-! ### The obligation -/

/-- Settles O55: a port's messages leave its cache, its input and its sessions alone (`State.unsaid`), what a client acknowledges leaves
the queues of landing alone (`State.cacheView`), and a landed packet leaves the slots alone until one is taken (`State.admitView`). -/
theorem postingTransport : Obligations.PostingTransport := by
  intro s n m ms d p z s0 run
  refine ⟨fun h => ⟨open_opens h, open_refused h, request_noSession h, ?land, fun _ => ack_releases h, fun _ => close_frees h⟩, ?sessions,
    ?cache, ?admission, ?departures⟩
  case land =>
    intro x a ht hx hrow s1 tick at_
    obtain ⟨s2, ptr, hres, hexec⟩ := exec_request_land h ht hx hrow
    refine ⟨⟨s2, ptr, hres, hexec⟩, fun hna => ⟨_, hexec, ?_⟩⟩
    rw [State.land, if_neg hna]
    exact ⟨_, List.mem_append_right _ (List.mem_singleton_self _), rfl, rfl, rfl, rfl, rfl⟩
  case sessions =>
    intro i ho
    exact ⟨congrArg Host.Outcome.next (if_pos ho), fun hi hdue ha hdelay hm => exec_lptAckDelay hi ho hdue ha hdelay hm⟩
  case cache =>
    intro sid seq e he
    refine ⟨fun h0 hmax hdue hm => ⟨_, exec_lptResend he h0 hmax hdue hm, ?_⟩, exec_lptResend_max he,
      ⟨_, exec_lptHoldExpiry he, s.uncache_cached n e⟩⟩
    have hmem := mem_map_update (fun x : Cached => { x with sends := x.sends + bit true, due := x.due + 1 }) (State.mem_of_cachedFor he)
    rw [hdue] at hmem
    dsimp only
    rw [State.resend_port]
    exact ⟨rfl, hmem, rfl⟩
  case admission =>
    intro v rest s1 ptr h x q w ha hn hl
    exact ⟨fun hr => frameCopyArrive_admits h ha hn hl hr, fun reason hr => frameCopyArrive_refuses h ha hn hl hr⟩
  case departures =>
    intro hn ha hm
    have hexec := exec_departurePass (p := p) hn ha hm
    refine ⟨fun h => by rw [hexec, h]; rfl, fun e h hown => ⟨_, hexec, ?_⟩, fun e hup hex hout hresp hlost =>
      exec_frameTransmit_response ha hm hup hex hout hresp hlost⟩
    dsimp only
    rw [h, List.foldl_cons, List.foldl_nil, State.depart_port hown]
    exact ⟨mem_map_update (fun x : Cached => { x with due := 1 }) (State.mem_of_departing h), rfl⟩

end Sys2Proof.Machine
end
section
/-! SUPPORT for O17 to O20 and O23 to O33: what a core that carries an instruction out has left alone of the package. -/

namespace Sys2Proof.Machine

/-! ### What a fetch and its corrections leave alone (R382) -/

/-- A core that carries an instruction out has begun it before, or its bell has ended and what the fetch meets has been corrected. -/
theorem carries_cases {s : State} {c : CoreId} {i : Instr} {x : Cur} {s1 : State} (h : s.carries c i = some (x, s1)) :
    s1 = s ∨ s1 = (s.rung c).fetchCorrected c (encode i).length := by
  unfold State.carries at h
  dsimp only at h
  split at h
  · cases h
  · split at h
    · split at h
      · cases h; exact .inl rfl
      · cases h
    · split at h
      · cases h; exact .inr rfl
      · cases h

/-- A view of the state that neither a core's marks nor a corrected error's log entry changes is the same after the corrections of a
fetch. -/
theorem State.fetchCorrected_keeps {α : Type} (g : State → α) (c : Nat)
    (hmark : ∀ s, g (s.updCore c fun k => { k with regCe := none }) = g s)
    (hcode : ∀ s l, g (s.updCluster (coreCluster c) fun e => { e with codeCe := e.codeCe.erase l }) = g s)
    (hlog : ∀ s code unit w2 w3, g (s.correctedIn code c unit w2 w3) = g s) (s : State) (n : Nat) :
    g (s.fetchCorrected c n) = g s := by
  unfold State.fetchCorrected
  dsimp only
  refine (foldl_keeps g (fun y l => ?_) _ _).trans ?_
  · rw [hlog, hcode]
  · split
    · rw [hlog, hmark]
    · rfl

/-- `State.fetchCorrected_keeps` for a core that carries an instruction out. -/
theorem carries_keeps {s : State} {c : CoreId} {i : Instr} {x : Cur} {s1 : State} (h : s.carries c i = some (x, s1)) {α : Type}
    (g : State → α) (hcore : ∀ (s : State) (k : Core), g (s.setCore c k) = g s)
    (hcode : ∀ s l, g (s.updCluster (coreCluster c) fun e => { e with codeCe := e.codeCe.erase l }) = g s)
    (hlog : ∀ s code unit w2 w3, g (s.correctedIn code c unit w2 w3) = g s) : g s1 = g s := by
  rcases carries_cases h with rfl | rfl
  · rfl
  · rw [State.fetchCorrected_keeps g c (fun s => hcore s _) hcode hlog]
    unfold State.rung
    split
    · exact hcore s _
    · rfl

/-- The core that carries an instruction out differs in its bell and its mark of a correctable symbol only. -/
theorem carries_core {s : State} {c : CoreId} {i : Instr} {x : Cur} {s1 : State} (h : s.carries c i = some (x, s1)) :
    ∃ b r, s1.core c = { s.core c with bell := b, regCe := r } := by
  rcases carries_cases h with rfl | rfl
  · exact ⟨_, _, rfl⟩
  · exact ⟨false, none, by rw [State.fetchCorrected_core, State.rung_core]⟩

theorem carries_units {s : State} {c : CoreId} {i : Instr} {x : Cur} {s1 : State} (h : s.carries c i = some (x, s1)) :
    (s1.core c).u = (s.core c).u := by
  obtain ⟨b, r, hk⟩ := carries_core h
  rw [hk]

theorem carries_core_of_ne {s : State} {c : CoreId} {i : Instr} {x : Cur} {s1 : State} (h : s.carries c i = some (x, s1)) {n : Nat}
    (hn : n ≠ c.val) : s1.core n = s.core n :=
  carries_keeps h (fun s => s.core n) (fun s k => by rw [State.setCore_core, if_neg hn]) (fun _ _ => rfl)
    fun _ _ _ _ _ => State.correctedIn_core _ _ _ _ _ _ _

/-- What die d, and the code store and scratch of cluster e, hold. -/
def State.holds (s : State) (d e : Nat) : DieMem × Sparse Chr × Sparse Syll × Sparse Chr :=
  ((s.die d).m, (s.die d).qram, (s.cluster e).code, (s.cluster e).scratch)

theorem State.updDie_holds {f : Die → Die} (s : State) (n d e : Nat) (hm : ∀ z, (f z).m = z.m := by intro; rfl)
    (hq : ∀ z, (f z).qram = z.qram := by intro; rfl) : (s.updDie n f).holds d e = s.holds d e := by
  rw [State.holds, State.updDie_view Die.m hm, State.updDie_view Die.qram hq]
  rfl

theorem State.logErr_holds (s : State) (code sev die : Nat) (hub : Bool) (part unit : Nat) (w2 w3 : Word) (d e : Nat) :
    (s.logErr code sev die hub part unit w2 w3).holds d e = s.holds d e := by
  unfold State.holds State.die State.cluster
  rw [State.logErr_u]

theorem State.correctedIn_holds (s : State) (code c unit : Nat) (w2 w3 : Word) (d e : Nat) :
    (s.correctedIn code c unit w2 w3).holds d e = s.holds d e := by
  unfold State.correctedIn
  rw [State.updDie_holds, State.logErr_holds]

theorem State.updCodeCe_holds (s : State) (cl : Nat) (f : Cluster → List (Nat × Nat × Nat)) (d e : Nat) :
    (s.updCluster cl fun k => { k with codeCe := f k }).holds d e = s.holds d e := by
  unfold State.holds
  rw [State.updCluster_cluster]
  split
  next he => rw [he]; rfl
  next => rfl

theorem carries_holds {s : State} {c : CoreId} {i : Instr} {x : Cur} {s1 : State} (h : s.carries c i = some (x, s1)) (d e : Nat) :
    s1.holds d e = s.holds d e :=
  carries_keeps h (fun s => s.holds d e) (fun _ _ => rfl) (fun s _ => State.updCodeCe_holds s _ _ d e)
    fun s _ _ _ _ => State.correctedIn_holds s _ _ _ _ _ d e

end Sys2Proof.Machine
end
section
/-! PROOF of O19: the end of an instruction (R142, R154, R156, R159, R196, R213, R215). -/

namespace Sys2Proof.Machine

/-- What the end of an instruction leaves alone in its core. -/
def Core.unended (k : Core) : Core :=
  { k with
    pc := 0, fetchQ := [], loopBuf := [], bufStale := false, cur := none, micro := Micro.reset
    r := { k.r with sp := { k.r.sp with lcount := 0 }, ctl := { k.r.ctl with lact := false }, cnt := Counters.reset, shadow := none } }

/-- The core at the end of an instruction of cc cycles, before the loop test: counted, and its shadow one instruction on. -/
def State.counted (s0 s : State) (c : CoreId) (cc : Nat) : Core :=
  let k := { (s.core c).count (·.addCycles cc) with cur := none }
  match (s0.core c).r.shadow with
  | none => k
  | some h => k.updR fun r => { r with shadow := if h.left ≤ 1 then none else some { h with left := h.left - 1 } }

section
variable (s0 s : State) (c : CoreId) (cc : Nat)

theorem State.counted_unended : (s0.counted s c cc).unended = (s.core c).unended := by
  unfold State.counted
  split <;> rfl

theorem State.counted_pc : (s0.counted s c cc).pc = (s.core c).pc := by
  unfold State.counted
  split <;> rfl

theorem State.counted_cur : (s0.counted s c cc).cur = none := by
  unfold State.counted
  split <;> rfl

theorem State.counted_loopBuf : (s0.counted s c cc).loopBuf = (s.core c).loopBuf := by
  unfold State.counted
  split <;> rfl

theorem State.counted_lcount : (s0.counted s c cc).r.sp.lcount = (s.regs c).sp.lcount := by
  unfold State.counted
  split <;> rfl

theorem State.counted_lact : (s0.counted s c cc).r.ctl.lact = (s.regs c).ctl.lact := by
  unfold State.counted
  split <;> rfl

theorem State.counted_cycles : (s0.counted s c cc).r.cnt.cycles = (s.regs c).cnt.cycles + BitVec.ofNat 36 cc := by
  unfold State.counted
  split <;> rfl

theorem counted_cycles_succ : (s0.counted s c cc).r.cnt.cycles + BitVec.ofNat 36 1 =
    (s.regs c).cnt.cycles + BitVec.ofNat 36 (cc + 1) := by
  rw [State.counted_cycles, BitVec.add_assoc, ← BitVec.ofNat_add]

theorem State.counted_shadow : (s0.counted s c cc).r.shadow = match (s0.regs c).shadow with
    | none => (s.regs c).shadow
    | some h => if h.left ≤ 1 then none else some { h with left := h.left - 1 } := by
  unfold State.counted State.regs
  split <;> rfl

/-- The core after an instruction that branches to t. -/
theorem finish_some_core (i : Instr) (t : Nat) : (s0.finish s c i (some t) cc).core c =
    s.refill c (if decide ((s0.counted s c cc).r.sp.lstart.toNat ≤ t) && decide (t ≤ (s0.counted s c cc).r.sp.lend.toNat) &&
      (s0.counted s c cc).r.ctl.lact then s0.counted s c cc else (s0.counted s c cc).dropBuf) t := by
  unfold State.finish
  rw [State.setCore_core, if_pos rfl]
  rfl

/-- The core after an instruction that does not branch. -/
theorem finish_none_core (i : Instr) : (s0.finish s c i none cc).core c = s0.loopEnd s c (s0.counted s c cc) i (encode i).length := by
  unfold State.finish
  rw [State.setCore_core, if_pos rfl]
  rfl

end

/-! ### The loop test (R156, R213, R215) -/

section
variable {s0 : State} (s : State) {c : Nat} {k : Core} (i : Instr) (n : Nat)

/-- LCOUNT after the loop test, which an instruction that writes LCOUNT comes after. -/
def lcountAfter (i : Instr) (k : Core) (v : Word) : Word := if writesLcount i then k.r.sp.lcount else v

theorem loopEnd_of_not (h : ¬ ((s0.core c).atLoopEnd = true ∧ k.r.ctl.lact = true)) : s0.loopEnd s c k i n = s0.advance c k n := by
  unfold State.loopEnd
  rw [← Bool.and_eq_true, Bool.not_eq_true] at h
  simp only [h, Bool.not_false, if_true]

/-- The core after the last instruction of a loop with more iterations to run. -/
def State.looped (s0 s : State) (c : Nat) (k : Core) (i : Instr) (n : Nat) : Core :=
  let start := (s0.regs c).sp.lstart.toNat % 2 ^ 18
  let k1 := (k.count (·.addCycles 1)).updSp fun p => { p with lcount := lcountAfter i k ((s0.regs c).sp.lcount - 1) }
  s.refill c { k1 with loopBuf := s.loopFill c k start (k.pc + n - start), bufStale := false } start

/-- The core after the last iteration of a loop. -/
def State.leftLoop (s0 : State) (c : Nat) (k : Core) (i : Instr) (n : Nat) : Core :=
  s0.advance c ((((k.count (·.addCycles 1)).updSp fun p => { p with lcount := lcountAfter i k 0 }).updCtl fun t =>
    { t with lact := false }).dropBuf) n

theorem loopEnd_more (h : (s0.core c).atLoopEnd = true) (ha : k.r.ctl.lact = true) (hc : 1 < (s0.regs c).sp.lcount.toNat) :
    s0.loopEnd s c k i n = s0.looped s c k i n := by
  have hc' : (s0.core c).r.sp.lcount.toNat > 1 := hc
  unfold State.loopEnd State.looped lcountAfter
  simp only [h, ha, Bool.and_self, Bool.not_true, Bool.false_eq_true, if_false, hc', if_true]
  split <;> rfl

theorem loopEnd_last (h : (s0.core c).atLoopEnd = true) (ha : k.r.ctl.lact = true) (hc : ¬ 1 < (s0.regs c).sp.lcount.toNat) :
    s0.loopEnd s c k i n = s0.leftLoop c k i n := by
  have hc' : ¬ (s0.core c).r.sp.lcount.toNat > 1 := hc
  unfold State.loopEnd State.leftLoop lcountAfter
  simp only [h, ha, Bool.and_self, Bool.not_true, Bool.false_eq_true, if_false, hc']
  split <;> rfl

/-- The loop test by its three outcomes. -/
theorem loopEnd_cases (p : Core → Prop) (hadv : p (s0.advance c k n)) (hmore : p (s0.looped s c k i n)) (hlast : p (s0.leftLoop c k i n)) :
    p (s0.loopEnd s c k i n) := by
  by_cases h : (s0.core c).atLoopEnd = true ∧ k.r.ctl.lact = true
  · by_cases hc : 1 < (s0.regs c).sp.lcount.toNat
    · rwa [loopEnd_more s i n h.1 h.2 hc]
    · rwa [loopEnd_last s i n h.1 h.2 hc]
  · rwa [loopEnd_of_not s i n h]

end

section
variable (s0 s : State) (c : CoreId) (i : Instr) (next : Option Nat) (cc : Nat)

/-- What the refilling of the fetch queue and the loop buffer keep is after a branch as the counting of the instruction leaves it. -/
theorem finish_some_keeps (t : Nat) {α : Type} (g : Core → α) (hq : ∀ k pc q, g { k with pc := pc, fetchQ := q } = g k)
    (hb : ∀ k l b, g { k with loopBuf := l, bufStale := b } = g k) :
    g ((s0.finish s c i (some t) cc).core c) = g (s0.counted s c cc) := by
  rw [finish_some_core, State.refill, hq]
  split
  · rfl
  · exact hb _ _ _

/-- A property that the counting of the instruction gives, and that the fetch queue, the loop buffer and the loop test keep, holds of
the core after the instruction. -/
theorem finish_core_keeps {α : Type} (g : Core → α) (hq : ∀ k pc q, g { k with pc := pc, fetchQ := q } = g k)
    (hb : ∀ k l b, g { k with loopBuf := l, bufStale := b } = g k)
    (hl : ∀ (k : Core) v, g ((k.count (·.addCycles 1)).updSp fun p => { p with lcount := v }) = g k)
    (ha : ∀ k : Core, g (k.updCtl fun t => { t with lact := false }) = g k) :
    g ((s0.finish s c i next cc).core c) = g (s0.counted s c cc) := by
  cases next with
  | some t => exact finish_some_keeps s0 s c i cc t g hq hb
  | none =>
    rw [finish_none_core]
    refine loopEnd_cases s i _ (fun k => g k = g (s0.counted s c cc)) (hq _ _ _) ?_ ?_
    · rw [State.looped, State.refill, hq, hb, hl]
    · rw [State.leftLoop, State.advance, hq, Core.dropBuf, hb, ha, hl]

theorem finish_unended : ((s0.finish s c i next cc).core c).unended = (s.core c).unended :=
  (finish_core_keeps s0 s c i next cc Core.unended (fun _ _ _ => rfl) (fun _ _ _ => rfl) (fun _ _ => rfl) fun _ => rfl).trans
    (State.counted_unended s0 s c cc)

theorem finish_shadow : ((s0.finish s c i next cc).regs c).shadow = (s0.counted s c cc).r.shadow :=
  finish_core_keeps s0 s c i next cc (·.r.shadow) (fun _ _ _ => rfl) (fun _ _ _ => rfl) (fun _ _ => rfl) fun _ => rfl

theorem finish_cur : ((s0.finish s c i next cc).core c).cur = none :=
  (finish_core_keeps s0 s c i next cc Core.cur (fun _ _ _ => rfl) (fun _ _ _ => rfl) (fun _ _ => rfl) fun _ => rfl).trans
    (State.counted_cur s0 s c cc)

end

section
variable {s0 s : State} {c : CoreId} {k m : Core}

/-- Special registers that agree but for LCOUNT. -/
theorem sp_of_unended (h : m.unended = k.unended) : m.r.sp = { k.r.sp with lcount := m.r.sp.lcount } :=
  congrArg (fun x : Core => { x.r.sp with lcount := m.r.sp.lcount }) h

theorem ctl_of_unended (h : m.unended = k.unended) : m.r.ctl = { k.r.ctl with lact := m.r.ctl.lact } :=
  congrArg (fun x : Core => { x.r.ctl with lact := m.r.ctl.lact }) h

/-- Whether the instruction ends its loop's body, as the statement puts it. -/
theorem atLoopEnd_iff : ((s0.core c).atLoopEnd = true ∧ (s.regs c).ctl.lact = true) ↔
    (s0.regs c).ctl.lact = true ∧ (s0.regs c).sp.lend.toNat % 2 ^ 18 = (s0.core c).pc ∧ (s.regs c).ctl.lact = true := by
  unfold Core.atLoopEnd State.regs
  rw [Bool.and_eq_true, decide_eq_true_eq, and_assoc]

end

/-- Settles O19: the branches of `State.finish` and of its loop test each give address, LCOUNT, LACT and cycles; what none of them
changes is `Core.unended`. -/
theorem instructionEndFrame : Obligations.InstructionEndFrame := by
  intro s0 s c i next cc t k0 k m kept atEnd
  have hu : m.unended = k.unended := finish_unended s0 s c i next cc
  have hatEnd : atEnd ↔ next = none ∧ k0.atLoopEnd = true ∧ (s0.counted s c cc).r.ctl.lact = true := by
    rw [State.counted_lact, atLoopEnd_iff]
    rfl
  refine ⟨⟨rfl, rfl, rfl, rfl, rfl, rfl, rfl, rfl, rfl, rfl, rfl, fun n hn => ?others⟩, ?kept, ?branch, ?sequence, ?more, ?last,
    fun h hh => ?shadow, fun hh => ?noShadow⟩
  case others => exact (State.setCore_core _ _ _ _).trans (if_neg hn)
  case kept =>
    exact ⟨congrArg (·.r.w) hu, congrArg (·.r.d) hu, congrArg (·.r.k) hu, congrArg (·.r.frames) hu, congrArg (·.u) hu,
      congrArg (·.txn) hu, congrArg (·.alarm) hu, congrArg (·.tlb) hu, congrArg (·.tvPend) hu, congrArg (·.running) hu,
      congrArg (·.halted) hu, congrArg (·.haltRec) hu, finish_cur s0 s c i next cc, sp_of_unended hu, ctl_of_unended hu⟩
  case branch =>
    rintro a rfl
    have hkeeps {α : Type} (g : Core → α) := finish_some_keeps s0 s c i cc a g
    refine ⟨congrArg Core.pc (finish_some_core s0 s c cc i a), ?_, ?_, ?_⟩
    · exact (hkeeps (·.r.sp.lcount) (fun _ _ _ => rfl) fun _ _ _ => rfl).trans (State.counted_lcount s0 s c cc)
    · exact (hkeeps (·.r.ctl.lact) (fun _ _ _ => rfl) fun _ _ _ => rfl).trans (State.counted_lact s0 s c cc)
    · exact (hkeeps (·.r.cnt.cycles) (fun _ _ _ => rfl) fun _ _ _ => rfl).trans (State.counted_cycles s0 s c cc)
  case sequence =>
    rintro rfl hnot
    have hm : m = s0.advance c (s0.counted s c cc) (encode i).length :=
      (finish_none_core s0 s c cc i).trans (loopEnd_of_not s i _ fun h => hnot (hatEnd.2 ⟨rfl, h⟩))
    rw [hm]
    exact ⟨congrArg (· + _) (State.counted_pc s0 s c cc), State.counted_lcount s0 s c cc, State.counted_lact s0 s c cc,
      State.counted_cycles s0 s c cc⟩
  case more =>
    intro hend hcount
    obtain ⟨rfl, hloop, hlact⟩ := hatEnd.1 hend
    have hm : m = s0.looped s c (s0.counted s c cc) i (encode i).length :=
      (finish_none_core s0 s c cc i).trans (loopEnd_more s i _ hloop hlact hcount)
    rw [hm]
    refine ⟨rfl, fun hw => ?_, fun hw => if_neg hw, hlact, ?_⟩
    · exact (if_pos hw).trans (State.counted_lcount s0 s c cc)
    · exact counted_cycles_succ s0 s c cc
  case last =>
    intro hend hcount
    obtain ⟨rfl, hloop, hlact⟩ := hatEnd.1 hend
    have hm : m = s0.leftLoop c (s0.counted s c cc) i (encode i).length :=
      (finish_none_core s0 s c cc i).trans (loopEnd_last s i _ hloop hlact hcount)
    rw [hm]
    refine ⟨congrArg (· + _) (State.counted_pc s0 s c cc), fun hw => ?_, fun hw => if_neg hw, rfl, ?_⟩
    · exact (if_pos hw).trans (State.counted_lcount s0 s c cc)
    · exact counted_cycles_succ s0 s c cc
  case shadow =>
    rw [show m.r.shadow = _ from finish_shadow s0 s c i next cc, State.counted_shadow, State.regs, hh]
  case noShadow =>
    rw [show m.r.shadow = _ from finish_shadow s0 s c i next cc, State.counted_shadow, State.regs, hh]
    rfl

end Sys2Proof.Machine
end
section
/-! PROOF of O17, O18 and O20: the binary multiply and divide units (R162, R198, R199), the results of every unit (R234, R274), and the
frame of the instructions that write one word register (R147, R289). -/

namespace Sys2Proof.Machine

/-! ### A unit whose result is due (R162) -/

section
variable {s : State} {c : CoreId}

theorem exec_multiplyResult_due {o : IntOp} {l : List IntOp} (h : (s.core c).u.mul = o :: l) (hd : o.due ≤ (s.core c).r.cnt.clk) :
    exec (.multiplyResult c) s = .next (s.updCore c fun k =>
      { k with r := { k.r with w := Sparse.set 0 k.r.w o.dest o.val }, u := { k.u with mul := l } }) := by
  have he : exec (.multiplyResult c) s = execMultiplyResult c s := rfl
  rw [he, execMultiplyResult]
  dsimp only
  rw [h]
  dsimp only
  rw [if_neg (Nat.not_lt.2 hd)]
  rfl

theorem exec_divideResult_due {o : IntOp} (h : (s.core c).u.div = some o) (hd : o.due ≤ (s.core c).r.cnt.clk) :
    exec (.divideResult c) s = .next (s.updCore c fun k =>
      { k with r := { k.r with w := Sparse.set 0 k.r.w o.dest o.val }, u := { k.u with div := none } }) := by
  have he : exec (.divideResult c) s = execDivideResult c s := rfl
  rw [he, execDivideResult]
  dsimp only
  rw [h]
  dsimp only
  rw [if_neg (Nat.not_lt.2 hd)]
  rfl

theorem exec_decimalUnitResult_due {o : DecOp} (h : (s.core c).u.dec = some o) (hd : o.due ≤ (s.core c).r.cnt.clk) :
    exec (.decimalUnitResult c) s = .next (s.updCore c fun k => { k with
      r := { k.r with
        d := o.writes.foldl (fun m w => Sparse.set 0 m w.1 w.2) k.r.d,
        sp := if o.movf then { k.r.sp with dmode := k.r.sp.dmode ||| 8 } else k.r.sp },
      u := { k.u with dec := none } }) := by
  have he : exec (.decimalUnitResult c) s = execDecimalUnitResult c s := rfl
  rw [he, execDecimalUnitResult]
  dsimp only
  rw [h]
  dsimp only
  rw [if_neg (Nat.not_lt.2 hd)]
  rfl

/-- The core once operation o of the floating-point unit has written its result, its flags and its trap (R265, R275). -/
def Core.floatDone (k : Core) (o : FpOp) : Core :=
  { k with
    r := { k.r with
      w := o.writes.foldl (fun m e => Sparse.set 0 m e.1 e.2) k.r.w,
      sp := { k.r.sp with fmode := fmodeFlags k.r.sp.fmode o.flags } },
    u := fpTrap { k.u with fp := k.u.fp.erase o } o }

theorem Core.floatDone_u (k : Core) (o : FpOp) : (k.floatDone o).u = fpTrap { k.u with fp := k.u.fp.erase o } o := rfl

theorem exec_floatResult_due {o : FpOp} (h : nextFp (s.core c).u.fp = some o) (hd : o.due ≤ (s.core c).r.cnt.clk) :
    exec (.floatResult c) s = .next (s.updCore c fun k => k.floatDone o) := by
  have he : exec (.floatResult c) s = execFloatResult c s := rfl
  rw [he, execFloatResult]
  dsimp only
  rw [h]
  dsimp only
  rw [if_neg (Nat.not_lt.2 hd)]
  rfl

end

/-! ### The trap record (R275) -/

section
variable (u : Beside) (o : FpOp)

theorem at'_zero (w : Word) : BitVec'.at' w 0 = w.msb := (BitVec.msb_eq_getLsbD_last w).symm

theorem fpTrap_fp : (fpTrap u o).fp = u.fp := by
  unfold fpTrap
  dsimp only
  split
  · rfl
  · split <;> rfl

theorem fpTrap_of_quiet (h : o.traps = false) : fpTrap u o = u := by
  unfold fpTrap
  rw [h]
  rfl

theorem fpTrap_of_empty (h : o.traps = true) (he : (Sparse.get 0 u.trap 0).msb = false) :
    (fpTrap u o).trap = Sparse.setList 0 [] 0 o.record ∧ (fpTrap u o).ftPend = true := by
  unfold fpTrap
  rw [← at'_zero] at he
  simp only [h, he, Bool.not_true, Bool.false_eq_true, if_false, and_self]

theorem fpTrap_of_full (h : o.traps = true) (he : (Sparse.get 0 u.trap 0).msb = true) :
    Sparse.get 0 (fpTrap u o).trap 0 = Sparse.get 0 u.trap 0 ||| 2 ^ 34 ∧ (fpTrap u o).ftPend = u.ftPend := by
  unfold fpTrap
  rw [← at'_zero] at he
  simp only [h, he, Bool.not_true, Bool.false_eq_true, if_false, if_true]
  exact ⟨Sparse.get_set_self _ _ _ _, trivial⟩

end

/-- Settles O18: each unit's command writes its core, and its result is the clause's. -/
theorem unitResults : Obligations.UnitResults := by
  intro s c k
  have hother (f : Core → Core) (n : Nat) (hn : n ≠ c.val) : (s.updCore c f).core n = s.core n :=
    (State.updCore_core s c n f).trans (if_neg hn)
  have hself (f : Core → Core) : (s.updCore c f).core c = f k := (State.updCore_core s c c f).trans (if_pos rfl)
  refine ⟨fun o l ho hd => ?mul, fun o ho hd => ?div, fun o ho hd => ?dec, fun o ho hd => ?fp⟩
  case mul => exact ⟨_, exec_multiplyResult_due ho hd, congrArg Core.r (hself _), congrArg (·.u.mul) (hself _), hother _, rfl⟩
  case div => exact ⟨_, exec_divideResult_due ho hd, congrArg Core.r (hself _), congrArg (·.u.div) (hself _), hother _, rfl⟩
  case dec =>
    refine ⟨_, exec_decimalUnitResult_due ho hd, fun x v hw => ?_, ?_, congrArg (·.u.dec) (hself _), congrArg (·.r.w) (hself _), hother _⟩
    · rw [State.regs, hself, hw]
      rfl
    · rw [State.regs, hself]
      split <;> rfl
  case fp =>
    refine ⟨_, exec_floatResult_due ho hd, fun x v hw => ?_, congrArg (·.r.sp.fmode) (hself _), ?_, fun ht => ?_, fun ht he => ?_,
      fun ht he => ?_, congrArg (·.r.d) (hself _), hother _⟩
    · rw [State.regs, hself, Core.floatDone, hw]
      rfl
    · rw [hself, Core.floatDone_u, fpTrap_fp]
    · rw [hself, Core.floatDone_u, fpTrap_of_quiet _ o ht]
      exact ⟨rfl, rfl⟩
    · rw [hself]
      exact fpTrap_of_empty _ o ht he
    · rw [hself]
      exact fpTrap_of_full _ o ht he

/-! ### Multiply and divide (R162, R198, R199) -/

/-- The multiply unit takes up a result v of word register key w, due 6 cc after the instruction's begin, or 7 at the end of a loop. -/
def Core.multiplies (w : Nat) (v : Word) (k : Core) : Core :=
  { k with u := { k.u with mul := k.u.mul ++ [{ dest := w, val := v, due := k.r.cnt.clk + 6 + bit k.atLoopEnd }] } }

theorem Core.multiplies_of_idle {k : Core} (h : k.u.mul = []) (w : Nat) (v : Word) :
    ∃ due, (k.multiplies w v).u.mul = [{ dest := w, val := v, due := due }] :=
  ⟨_, congrArg (· ++ _) h⟩

/-- The divide unit does. -/
def Core.divides (w : Nat) (v : Word) (k : Core) : Core :=
  { k with u := { k.u with div := some { dest := w, val := v, due := k.r.cnt.clk + 41 + bit k.atLoopEnd } } }

section
variable {s : State} {c : CoreId} {i : Instr} {d : Reg} {v : Word}

theorem starts_multiply {f : CoreRegs → Word} (he : exec i s = s.startMul c i d f) (hv : f (s.regs c) = v) :
    Starts s c i 3 (Core.multiplies ((s.regs c).wKey d) v) := by
  refine starts_of he fun x s1 h => congrArg (Act.done · none 3) (updCore_congr s1 c ?_)
  have hdue : (s1.core c).r.cnt.clk + (s1.core c).withTest 3 + 3 = (s1.core c).r.cnt.clk + 6 + bit (s1.core c).atLoopEnd := by
    unfold Core.withTest
    omega
  rw [← hv, ← carries_regs h, hdue]
  rfl

theorem starts_divide {b : Reg} {f : CoreRegs → Word} (he : exec i s = s.startDiv c i d b f) (hb : (s.regs c).wr b ≠ 0)
    (hv : f (s.regs c) = v) : Starts s c i 3 (Core.divides ((s.regs c).wKey d) v) := by
  refine starts_of he fun x s1 h => ?_
  have hdue : (s1.core c).r.cnt.clk + (s1.core c).withTest 3 + 38 = (s1.core c).r.cnt.clk + 41 + bit (s1.core c).atLoopEnd := by
    unfold Core.withTest
    omega
  rw [carries_regs h, if_neg hb]
  refine congrArg (Act.done · none 3) (updCore_congr s1 c ?_)
  rw [← hv, ← carries_regs h, hdue]
  rfl

theorem raises_divideZero {b : Reg} {f : CoreRegs → Word} (he : exec i s = s.startDiv c i d b f) (hb : (s.regs c).wr b = 0) :
    Raises s c i .divideZero 0 := by
  refine raises_of he fun x s1 h => ?_
  rw [carries_regs h, if_pos hb]

/-- The core's units once an instruction that changes them has ended, whatever its clock then shows. -/
theorem starts_units {cc : Nat} {f : Core → Core} (h : Starts s c i cc f) {x : Cur} {s1 : State} (hc : s.carries c i = some (x, s1)) :
    ∃ t, exec i s = .next t ∧ ∀ n,
      ((t.updCore c fun k => { k with r := { k.r with cnt := { k.r.cnt with clk := n } } }).core c).u = (f (s1.core c)).u := by
  refine ⟨_, h x s1 hc, fun n => ?_⟩
  rw [State.updCore_core, if_pos rfl]
  refine (congrArg Core.u (finish_unended s1 _ c i none cc)).trans ?_
  rw [State.updCore_core, if_pos rfl]
  rfl

theorem completes_multiply {cc : Nat} (h : Starts s c i cc (Core.multiplies ((s.regs c).wKey d) v)) (hmul : (s.core c).u.mul = []) :
    Completes s c i (.multiplyResult c) (fun k => ∀ o ∈ k.u.mul, o.due ≤ k.r.cnt.clk) [((s.regs c).wKey d, v)] := by
  intro x s1 hc
  obtain ⟨t, ht, hu⟩ := starts_units h hc
  refine ⟨t, ht, ?_⟩
  intro n t1 hdue
  obtain ⟨due, hone⟩ := Core.multiplies_of_idle ((congrArg Beside.mul (carries_units hc)).trans hmul) ((s.regs c).wKey d) v
  have hunit : (t1.core c).u.mul = _ := (congrArg Beside.mul (hu n)).trans hone
  refine ⟨_, exec_multiplyResult_due hunit (hdue _ (hunit ▸ List.mem_singleton_self _)), fun w hw => ?_⟩
  rw [List.mem_singleton.1 hw, State.regs, State.updCore_core, if_pos rfl]
  exact Sparse.get_set_self _ _ _ _

theorem completes_divide {cc : Nat} (h : Starts s c i cc (Core.divides ((s.regs c).wKey d) v)) :
    Completes s c i (.divideResult c) (fun k => ∀ o ∈ k.u.div, o.due ≤ k.r.cnt.clk) [((s.regs c).wKey d, v)] := by
  intro x s1 hc
  obtain ⟨t, ht, hu⟩ := starts_units h hc
  refine ⟨t, ht, ?_⟩
  intro n t1 hdue
  have hunit : (t1.core c).u.div = _ := congrArg Beside.div (hu n)
  refine ⟨_, exec_divideResult_due hunit (hdue _ hunit), fun w hw => ?_⟩
  rw [List.mem_singleton.1 hw, State.regs, State.updCore_core, if_pos rfl]
  exact Sparse.get_set_self _ _ _ _

end

/-- The low word of a product. -/
theorem mul_eq_ofInt_toInt_mul (a b : Word) : a * b = BitVec.ofInt 36 (a.toInt * b.toInt) :=
  BitVec.eq_of_toInt_eq (by rw [BitVec.toInt_mul, BitVec.toInt_ofInt])

/-- The high word of a signed product. -/
theorem hi_ofInt (n : Int) : Pair.hi (BitVec.ofInt 72 n) = BitVec.ofInt 36 (n / 2 ^ 36) := by
  apply BitVec.eq_of_toNat_eq
  simp only [Pair.hi, BitVec'.pos, BitVec.extractLsb'_toNat, BitVec.toNat_ofInt, Nat.shiftRight_eq_div_pow]
  omega

theorem hi_ofNat (n : Nat) : Pair.hi (BitVec.ofNat 72 n) = BitVec.ofNat 36 (n / 2 ^ 36) := by
  apply BitVec.eq_of_toNat_eq
  simp only [Pair.hi, BitVec'.pos, BitVec.extractLsb'_toNat, BitVec.toNat_ofNat, Nat.shiftRight_eq_div_pow]
  omega

section
variable (s : State) (c : CoreId) (d a b : Reg)

theorem exec_mul : exec (.mul c d a b) s = s.startMul c (.mul c d a b) d fun r => r.wr a * r.wr b := rfl
theorem exec_mulh : exec (.mulh c d a b) s = s.startMul c (.mulh c d a b) d fun r =>
    Pair.hi (BitVec.ofInt 72 ((r.wr a).toInt * (r.wr b).toInt)) := rfl
theorem exec_mulhu : exec (.mulhu c d a b) s = s.startMul c (.mulhu c d a b) d fun r =>
    Pair.hi (BitVec.ofNat 72 ((r.wr a).toNat * (r.wr b).toNat)) := rfl
theorem exec_div : exec (.div c d a b) s = s.startDiv c (.div c d a b) d b fun r =>
    BitVec.ofInt 36 ((r.wr a).toInt.tdiv (r.wr b).toInt) := rfl
theorem exec_divu : exec (.divu c d a b) s = s.startDiv c (.divu c d a b) d b fun r =>
    BitVec.ofNat 36 ((r.wr a).toNat / (r.wr b).toNat) := rfl
theorem exec_rem : exec (.rem c d a b) s = s.startDiv c (.rem c d a b) d b fun r =>
    BitVec.ofInt 36 ((r.wr a).toInt.tmod (r.wr b).toInt) := rfl
theorem exec_remu : exec (.remu c d a b) s = s.startDiv c (.remu c d a b) d b fun r =>
    BitVec.ofNat 36 ((r.wr a).toNat % (r.wr b).toNat) := rfl

end

/-- Settles O17: each instruction starts its unit with its result (`exec_mul` … `exec_remu`), and the unit's command writes what the unit
holds (`completes_multiply`, `completes_divide`). -/
theorem multiplyAndDivideStart : Obligations.MultiplyAndDivideStart := by
  intro s c d a b r x y mul div writes writesDiv
  have hmul : Starts s c (.mul c d a b) 3 (mul (BitVec.ofInt 36 (x.toInt * y.toInt))) :=
    starts_multiply (exec_mul s c d a b) (mul_eq_ofInt_toInt_mul x y)
  have hmulh : Starts s c (.mulh c d a b) 3 (mul (BitVec.ofInt 36 (x.toInt * y.toInt / 2 ^ 36))) :=
    starts_multiply (exec_mulh s c d a b) (hi_ofInt (x.toInt * y.toInt))
  have hmulhu : Starts s c (.mulhu c d a b) 3 (mul (BitVec.ofNat 36 (x.toNat * y.toNat / 2 ^ 36))) :=
    starts_multiply (exec_mulhu s c d a b) (hi_ofNat (x.toNat * y.toNat))
  have hdiv (hy : y ≠ 0) : Starts s c (.div c d a b) 3 (div (BitVec.ofInt 36 (x.toInt.tdiv y.toInt))) :=
    starts_divide (exec_div s c d a b) hy rfl
  have hdivu (hy : y ≠ 0) : Starts s c (.divu c d a b) 3 (div (BitVec.ofNat 36 (x.toNat / y.toNat))) :=
    starts_divide (exec_divu s c d a b) hy rfl
  have hrem (hy : y ≠ 0) : Starts s c (.rem c d a b) 3 (div (BitVec.ofInt 36 (x.toInt.tmod y.toInt))) :=
    starts_divide (exec_rem s c d a b) hy rfl
  have hremu (hy : y ≠ 0) : Starts s c (.remu c d a b) 3 (div (BitVec.ofNat 36 (x.toNat % y.toNat))) :=
    starts_divide (exec_remu s c d a b) hy rfl
  refine ⟨⟨completes_multiply hmul, completes_multiply hmulh, completes_multiply hmulhu, fun hy => ⟨completes_divide (hdiv hy),
    completes_divide (hdivu hy), completes_divide (hrem hy), completes_divide (hremu hy)⟩⟩, hmul, hmulh, hmulhu,
    fun hy => ⟨hdiv hy, hdivu hy, hrem hy, hremu hy⟩, fun hy => ?_, by decide, by decide⟩
  exact ⟨raises_divideZero (exec_div s c d a b) hy, raises_divideZero (exec_divu s c d a b) hy,
    raises_divideZero (exec_rem s c d a b) hy, raises_divideZero (exec_remu s c d a b) hy⟩

/-! ### Instructions that write one word register -/

/-- An instruction that writes one word register does nothing else: its value is computed from the state. -/
theorem exec_of_wordResult {i : Instr} {c : CoreId} {d : Reg} (h : wordResult i = some (c, d)) :
    ∃ (cc : Nat) (v : State → CoreRegs → Word), ∀ s, exec i s =
      .next (s.instr c i fun _ t => .done (t.updR c fun r => r.setW d (v t r)) none cc) := by
  unfold wordResult at h
  split at h
  all_goals cases h
  all_goals exact ⟨_, _, fun _ => rfl⟩

/-- The core once an instruction has ended that writes v to Wd. -/
theorem finish_setW_unended (s1 : State) (c : CoreId) (i : Instr) (next : Option Nat) (cc : Nat) (f : CoreRegs → CoreRegs) :
    ((s1.finish (s1.updR c f) c i next cc).core c).unended = ((s1.core c).updR f).unended := by
  rw [finish_unended, State.updR, State.updCore_core, if_pos rfl]

theorem finish_core_of_ne (s1 : State) (c : CoreId) (i : Instr) (next : Option Nat) (cc : Nat) {f : CoreRegs → CoreRegs} {n : Nat}
    (hn : n ≠ c.val) : (s1.finish (s1.updR c f) c i next cc).core n = s1.core n := by
  rw [finish_eq, State.setCore_core, if_neg hn, State.updR, State.updCore_core, if_neg hn]

/-- Settles O20: the instruction writes its register (`exec_of_wordResult`), its end changes its core only, in nothing that the clauses
name (`finish_unended`), and what its fetch corrects changes no memory (`carries_holds`). -/
theorem registerInstructionFrame : Obligations.RegisterInstructionFrame := by
  intro s c i d hi x s1 hc
  obtain ⟨cc, v, hexec⟩ := exec_of_wordResult hi
  have hregs : (s1.core c).r = s.regs c := carries_regs hc
  let t := s1.finish (s1.updR c fun r => r.setW d (v s1 r)) c i none cc
  have hu : (t.core c).unended = ((s1.core c).updR fun r => r.setW d (v s1 r)).unended := finish_setW_unended s1 c i none cc _
  have hholds (e k : Nat) : t.holds e k = s.holds e k := carries_holds hc e k
  refine ⟨t, (t.regs c).wr d, (hexec s).trans (congrArg Host.Outcome.next (instr_carries hc _)), rfl, fun n hn => ?_, ?_, ?_, ?_, ?_, ?_,
    fun n hn => ?_, fun e a => ?_, fun e a => ?_, fun e a => ?_, fun e a => ?_⟩
  · refine (congrArg (fun k : Core => k.r.wr n) hu).trans ((CoreRegs.setW_wr (s1.core c).r d n _).trans ?_)
    rw [if_neg hn, hregs]
  · exact (congrArg (·.r.d) hu).trans (congrArg CoreRegs.d hregs)
  · exact (congrArg (·.r.k) hu).trans (congrArg CoreRegs.k hregs)
  · exact (congrArg (·.r.frames) hu).trans (congrArg CoreRegs.frames hregs)
  · rw [← hregs]
    exact (sp_of_unended hu :)
  · rw [← hregs]
    exact (ctl_of_unended hu :)
  · exact (finish_core_of_ne s1 c i none cc hn).trans (carries_core_of_ne hc hn)
  · exact congrArg (fun x => Sparse.get 0 x.1.mem a) (hholds e e)
  · exact congrArg (fun x => Sparse.get 0 x.2.1 a) (hholds e e)
  · exact congrArg (fun x => Sparse.get 0 x.2.2.2 a) (hholds e e)
  · exact congrArg (fun x => Sparse.get 0 x.2.2.1 a) (hholds e e)

end Sys2Proof.Machine
end
section
/-! PROOF of O21, O23 and O28: branches, calls and the frame stack, and returns from entries. -/

namespace Sys2Proof.Machine

/-! ### From an instruction's own part that traps to what a statement says of it -/

theorem traps_of {s : State} {c : CoreId} {i : Instr} {x : Cur} {s1 : State} {body} {cause : Cause} {need : Nat}
    (he : exec i s = .next (s.instr c i body)) (h : s.carries c i = some (x, s1)) (hb : body x s1 = .trap cause need) :
    exec i s = .next (s1.trap c cause need) := by
  rw [he, instr_carries h, hb]
  rfl

/-! ### Branches (R154, R205, R206) -/

section
variable {s : State} {c : CoreId} {i : Instr}

theorem ends_jump {cc : Nat} {target : Core → Nat} (he : exec i s = s.jump c i cc target)
    (ht : ∀ k : Core, k.r = s.regs c → k.pc = (s.core c).pc → target k = target (s.core c)) :
    Ends s c i cc (some (target (s.core c))) fun x => x :=
  ends_of he fun _ s1 h => by rw [ht (s1.core c) (carries_regs h) (carries_pc h)]

theorem ends_cmpb (cond : Cond) (a : Reg) (b : CmpArg) (disp : BitVec 14) : Ends s c (.cmpb c cond a b disp) 5
    (if condHolds cond ((s.regs c).wr a) (CmpArg.value (s.regs c) b) then some ((s.core c).displaced disp) else none) fun x => x :=
  ends_of rfl fun _ s1 h => by
    have hr : (s1.core c).r = s.regs c := carries_regs h
    simp only [hr, Core.displaced, carries_pc h]

end

/-- Settles O21: each is the form `ends_jump` or `ends_cmpb`, its target computed from what the fetch leaves alone, registers and address. -/
theorem branchTargets : Obligations.BranchTargets := by
  intro s c cc a b v disp t r at_
  refine ⟨ends_cmpb cc a (.reg b) disp, ends_cmpb cc a (.imm v) disp, ends_jump (target := fun k => k.displaced disp) rfl ?_,
    ends_jump (target := fun _ => t.toNat) rfl fun _ _ _ => rfl,
    ends_jump (target := fun k => (k.r.wr a).toNat % 2 ^ 18) rfl fun k hr _ => by rw [hr, State.regs]⟩
  intro k _ hpc
  rw [Core.displaced, hpc, Core.displaced]

/-! ### Calls (R164, R165, R211) -/

section
variable {s : State} {c : CoreId} {i : Instr}

/-- The registers once a call of length len pushes the registers of a mask (R211). -/
def CoreRegs.pushed (mask : BitVec 32) (ra : Nat) (r : CoreRegs) : CoreRegs :=
  { r with frames := r.frames ++ [{ set := r.ctl.exl, ra := BitVec.ofNat 18 ra, mask := mask, regs := (maskRegs mask).map r.wr }] }

theorem ends_call {len : Nat} {mask : BitVec 32} {target : Core → Nat} (he : exec i s = s.call c i len mask target)
    (ht : ∀ k : Core, k.r = s.regs c → target k = target (s.core c)) (hfit : (s.regs c).fsp + ((maskRegs mask).length + 2) ≤ 64) :
    Ends s c i (6 + ((maskRegs mask).length + 2)) (some (target (s.core c))) fun x =>
      x.updR c (CoreRegs.pushed mask ((s.core c).pc + len)) := by
  refine ends_of he fun _ s1 h => ?_
  have hr : (s1.core c).r = s.regs c := carries_regs h
  dsimp only
  rw [List.length_map, hr, if_neg (Nat.not_lt.2 hfit), ht _ hr, carries_pc h, updR_const _ _ _ (carries_regs h),
    updR_const _ _ (CoreRegs.pushed _ _) (carries_regs h)]
  rfl

theorem call_traps {len : Nat} {mask : BitVec 32} {target : Core → Nat} (he : exec i s = s.call c i len mask target)
    (hfull : 64 < (s.regs c).fsp + ((maskRegs mask).length + 2)) {x : Cur} {s1 : State} (h : s.carries c i = some (x, s1)) :
    exec i s = .next (s1.trap c .frameOverflow ((maskRegs mask).length + 2)) := by
  refine traps_of he h ?_
  have hr : (s1.core c).r = s.regs c := carries_regs h
  dsimp only
  rw [List.length_map, hr, if_pos hfull]

/-! ### RET (R165, R212) -/

/-- The registers once RET has taken up frame g, the newest (R212). -/
def CoreRegs.popped (g : Frame) (r : CoreRegs) : CoreRegs :=
  { ((maskRegs g.mask).zip g.regs).foldl (fun y e => y.setW e.1 e.2) r with frames := r.frames.dropLast }

theorem zip_append_of_length_eq {α β : Type} {ns : List α} {vs : List β} (h : vs.length = ns.length) (ws : List β) :
    ns.zip (vs ++ ws) = ns.zip vs := by
  simpa only [List.append_nil, List.zip_nil_left] using List.zip_append (r₁ := []) (r₂ := ws) h.symm

theorem restore_of_complete (r : CoreRegs) {g : Frame} (hg : g.regs.length = (maskRegs g.mask).length) (free : Nat) :
    r.restore g free = ((maskRegs g.mask).zip g.regs).foldl (fun y e => y.setW e.1 e.2) r := by
  unfold CoreRegs.restore
  dsimp only
  rw [zip_append_of_length_eq hg]

theorem ends_ret {g : Frame} (hlast : (s.regs c).frames.getLast? = some g) (hset : g.set = (s.regs c).ctl.exl)
    (hg : g.regs.length = (maskRegs g.mask).length) :
    Ends s c (.ret c) (8 + g.regs.length) (some g.ra.toNat) fun x => x.updR c (CoreRegs.popped g) := by
  refine ends_of rfl fun _ s1 h => ?_
  have hany : ((s.regs c).frames.any fun f => decide (f.set = (s.regs c).ctl.exl)) = true :=
    List.any_eq_true.2 ⟨g, List.mem_of_getLast? hlast, decide_eq_true hset⟩
  have hmissing : g.missing = 0 := Nat.sub_eq_zero_of_le (Nat.le_of_eq hg.symm)
  dsimp only
  rw [carries_regs h, hlast]
  dsimp only
  rw [if_pos hany, hmissing, Nat.add_zero]
  simp only [restore_of_complete _ hg]
  rfl

theorem ret_of_empty {x : Cur} {s1 : State} (h : s.carries c (.ret c) = some (x, s1)) (hnone : (s.regs c).frames = []) :
    exec (.ret c) s = .next (s1.settle c (.ret c)
      (if (s.regs c).fsdepth (s.regs c).ctl.exl ≠ 0 then .trap .frameUnderflow 0 else .fault .frameEmpty 0)) := by
  have he : exec (.ret c) s = .next (s.instr c (.ret c) _) := rfl
  rw [he, instr_carries h]
  dsimp only
  rw [carries_regs h, hnone]
  rfl

end

/-- Settles O23: the three calls are one operation that differs in its target (`ends_call`, `call_traps`); RET looks at the newest frame
only where that is of the active set (`ends_ret`, `ret_of_empty`). -/
theorem callAndReturn : Obligations.CallAndReturn := by
  intro s c a f l t m r k size pushed
  refine ⟨fun hfit => ?call, fun hfit => ⟨?callS, ?callr⟩, fun hfull x s1 h =>
    call_traps (target := fun _ => t.toNat) (len := 5) rfl hfull h, fun g hlast hset hg =>
    ends_ret hlast hset hg, fun hnone hdepth x s1 h => ?empty, fun hnone hdepth x s1 h => ?underflow⟩
  case call => exact ends_call (target := fun _ => t.toNat) rfl (fun _ _ => rfl) hfit
  case callS => exact ends_call (target := fun _ => t.toNat) rfl (fun _ _ => rfl) hfit
  case callr => exact ends_call (target := fun k => (k.r.wr a).toNat % 2 ^ 18) rfl (fun k hr => by rw [hr, State.regs]) hfit
  case empty =>
    rw [ret_of_empty h hnone, if_neg (not_not_intro hdepth)]
    rfl
  case underflow =>
    rw [ret_of_empty h hnone, if_pos hdepth]
    rfl

/-! ### ERET and PRET (R167, R171) -/

/-- The first n registers of the active set exchanged with those of the inactive set. -/
theorem iter_swap_cap (r : CoreRegs) {n : Nat} (hn : n ≤ 16) (m : Nat) :
    (iter n (fun i x => (x.setCap i (r.cap (16 + i))).setCap (16 + i) (r.cap i)) r).cap m =
      if m < n then r.cap (16 + m) else if 16 ≤ m ∧ m < 16 + n then r.cap (m - 16) else r.cap m := by
  induction n with
  | zero => rw [if_neg (Nat.not_lt_zero m), if_neg (by omega)]; rfl
  | succ n ih =>
    rw [iter_succ, CoreRegs.setCap_cap, CoreRegs.setCap_cap, ih (by omega)]
    by_cases h1 : m = 16 + n
    · rw [if_pos h1, if_neg (by omega), if_pos (by omega), h1, Nat.add_sub_cancel_left]
    · by_cases h2 : m = n
      · rw [if_neg h1, if_pos h2, if_pos (by omega), h2]
      · rw [if_neg h1, if_neg h2]
        have hlow : m < n + 1 ↔ m < n := by omega
        have hhigh : 16 ≤ m ∧ m < 16 + (n + 1) ↔ 16 ≤ m ∧ m < 16 + n := by omega
        simp only [hlow, hhigh]

/-- The two sets of capabilities are exchanged (R149). -/
theorem swapSets_cap (r : CoreRegs) (m : Nat) : r.swapSets.cap m =
    if m < 10 then r.cap (16 + m) else if 16 ≤ m ∧ m < 26 then r.cap (m - 16) else r.cap m := iter_swap_cap r (by decide) m

theorem swapSets_cap_lt (r : CoreRegs) {n : Nat} (hn : n < 10) :
    r.swapSets.cap n = r.cap (16 + n) ∧ r.swapSets.cap (16 + n) = r.cap n := by
  rw [swapSets_cap, swapSets_cap, if_pos hn, if_neg (by omega), if_pos (by omega), Nat.add_sub_cancel_left]
  exact ⟨rfl, rfl⟩

/-- Settles O28: each return tests its own guard on the registers that the fetch leaves alone; the exchange of the capability sets is
`swapSets_cap`. -/
theorem returnsFromEntries : Obligations.ReturnsFromEntries := by
  intro s c r
  refine ⟨fun hexl hbk1 hframes hdepth => ?eret, fun h => ?eretIllegal, fun hbk1 => ?pret, fun hbk1 => ?pretIllegal,
    fun n hn => swapSets_cap_lt r hn, swapSets_cap r 10, swapSets_cap r 11⟩
  case eret =>
    have hok : r.eretOk = true := by
      simp only [CoreRegs.eretOk, hexl, hbk1, hdepth, List.any_eq_false.2 fun f hf => Bool.not_eq_true _ ▸ hframes f hf]
      rfl
    refine ends_of rfl fun _ s1 h => ?_
    dsimp only
    rw [carries_regs h, if_pos hok, updR_const _ _ _ (carries_regs h)]
    rfl
  case eretIllegal =>
    have hok : ¬ r.eretOk = true := by
      rcases h with h | h <;> simp [CoreRegs.eretOk, h]
    refine raises_of rfl fun _ s1 h => ?_
    dsimp only
    rw [carries_regs h, if_neg hok]
  case pret =>
    refine ends_of rfl fun _ s1 h => ?_
    dsimp only
    rw [carries_regs h, if_pos hbk1, updR_const _ _ _ (carries_regs h)]
    rfl
  case pretIllegal =>
    refine raises_of rfl fun _ s1 h => ?_
    dsimp only
    rw [carries_regs h, hbk1]
    rfl

end Sys2Proof.Machine
end
section
/-! PROOF of O24, O26 and O27: the frame stack in memory, barriers and control, BREAK and undefined encodings. -/

namespace Sys2Proof.Machine

/-! ### The frame stack in memory (R166) -/

section
variable {s : State} {c : CoreId} {x : Cur} {s1 : State}

/-- FSPILL of the oldest frame, its area aligned: the frame's words are stored, then it is dropped. -/
theorem exec_fspill (h : s.carries c (.fspill c) = some (x, s1)) {g : Frame} {rest : List Frame} (hg : (s.regs c).frames = g :: rest)
    (ha : ((s.regs c).fsmem g.set).toNat % 4 = 0) {x1 : Cur} {t : State}
    (ht : s1.tryStore c x 0 (wordOperands ((s.regs c).cap (if g.set = (s.regs c).ctl.exl then 7 else 23))
      (((s.regs c).cap (if g.set = (s.regs c).ctl.exl then 7 else 23)).base + ((s.regs c).fsmem g.set).toNat) (g.regs.length + 2) .store)
      .write false (g.words.flatMap Word.chars) = .ok (x1, t)) :
    exec (.fspill c) s = .next (s1.finish (t.updR c fun q =>
      { q.setSpill g.set ((s.regs c).fsmem g.set + BitVec.ofNat 36 (4 * (g.regs.length + 2))) ((s.regs c).fsdepth g.set + 1) with
        frames := q.frames.drop 1 }) c (.fspill c) none (4 + (g.regs.length + 2))) := by
  have he : exec (.fspill c) s = .next (s.instr c (.fspill c) _) := rfl
  rw [he, instr_carries h]
  dsimp only
  rw [carries_regs h, hg]
  dsimp only
  rw [if_neg (not_not_intro ha), State.storing, ht]
  rfl

theorem raises_fspill (h : (s.regs c).frames = []) : Raises s c (.fspill c) .illegal 0 := by
  refine raises_of rfl fun _ s1 hc => ?_
  dsimp only
  rw [carries_regs hc, h]

theorem raises_ffill (h : (s.regs c).fsdepth (s.regs c).ctl.exl = 0) : Raises s c (.ffill c) .illegal 0 := by
  refine raises_of rfl fun _ s1 hc => ?_
  dsimp only
  rw [carries_regs hc, if_pos h]

/-- A read of n words below address e that answers goes on with what it has read. -/
theorem fillRead_ok {s : State} {cur cur' : Cur} {round : Nat} {k : Cap} {e n : Nat} {l : List Chr} {next : Cur → List Chr → Act}
    (hn : 4 * n ≤ e) (h : s.tryRead c cur round (wordOperands k (e - 4 * n) n .load) = .ok (cur', l)) :
    s.fillRead c cur round k e n next = next cur' l := by
  rw [State.fillRead, if_neg (Nat.not_lt.2 hn), State.reading, h]

/-- FFILL: header A, then the frame's words. -/
theorem exec_ffill (hc : s.carries c (.ffill c) = some (x, s1)) (hd : (s.regs c).fsdepth (s.regs c).ctl.exl ≠ 0)
    (ha : ((s.regs c).fsmem (s.regs c).ctl.exl).toNat % 4 = 0) {e : Nat}
    (he : e = ((s.regs c).cap 7).base + ((s.regs c).fsmem (s.regs c).ctl.exl).toNat) (h4 : 4 ≤ e) {x1 x2 : Cur} {h l : List Chr}
    (hh : s1.tryRead c x 0 (wordOperands ((s.regs c).cap 7) (e - 4 * 1) 1 .load) = .ok (x1, h)) {size : Nat}
    (hsize : size = (BitVec'.pos (Word.ofChars h) 0 6).toNat + 2) (hfit : (s.regs c).fsp + size ≤ 64) (hbelow : 4 * size ≤ e)
    (hl : s1.tryRead c x1 1 (wordOperands ((s.regs c).cap 7) (e - 4 * size) size .load) = .ok (x2, l)) :
    exec (.ffill c) s = .next (s1.finish (s1.updR c fun q =>
      { q.setSpill (s.regs c).ctl.exl ((s.regs c).fsmem (s.regs c).ctl.exl - BitVec.ofNat 36 (4 * size))
          ((s.regs c).fsdepth (s.regs c).ctl.exl - 1) with
        frames := placeFrame (s.regs c).ctl.exl (frameOfWords (wordsOfChars l)) q.frames }) c (.ffill c) none (6 + size)) := by
  have hx : exec (.ffill c) s = .next (s.instr c (.ffill c) _) := rfl
  rw [hx, instr_carries hc]
  dsimp only
  rw [carries_regs hc, if_neg hd, if_neg (not_not_intro ha), ← he, fillRead_ok h4 hh, ← hsize, if_neg (Nat.not_lt.2 hfit),
    fillRead_ok hbelow hl]
  rfl

end

/-- Settles O24: FSPILL has one access and FFILL two, the header and the whole frame; each is followed to its end once its accesses
answer (`exec_fspill`, `exec_ffill`). -/
theorem spillAndFill : Obligations.SpillAndFill := by
  intro s c r
  refine ⟨fun g rest x s1 x1 t hc hg ha ht => exec_fspill hc hg ha ht, raises_fspill, raises_ffill, ?_⟩
  intro m e area x s1 x1 x2 h l hc hd ha h4 hh size hfit hbelow hl
  exact exec_ffill hc hd ha rfl h4 hh rfl hfit hbelow hl

/-! ### Barriers and control (R146, R155, R216 to R220, R278, R279) -/

section
variable {s : State} {c : CoreId}

theorem ends_msync (h : ∀ e ∈ s.accesses, e.core = c → e.posted = false) : Ends s c (.msync c) 2 none fun t => t := by
  have hout : s.storesOut c = false := by
    refine List.any_eq_false.2 fun a ha => ?_
    rw [Bool.and_eq_true, decide_eq_true_eq]
    exact fun ⟨hcore, hposted⟩ => Bool.false_ne_true ((h a ha hcore).symm.trans hposted)
  refine ends_of rfl fun _ s1 hc => ?_
  rw [carries_storesOut hc, hout]
  rfl

/-- An instruction that waits for the floating-point unit ends where the unit holds nothing. -/
theorem starts_afterUnit (h : (s.core c).u.fp = []) {i : Instr} {cc : Nat} {f : Core → Core} (he : exec i s = s.afterUnit c i cc f) :
    Starts s c i cc f :=
  starts_of he fun _ _ hc => if_neg (not_not_intro ((congrArg Beside.fp (carries_units hc)).trans h))

theorem starts_alarm (a : Reg) : Starts s c (.alarm c a) 3 fun k =>
    { k with alarm := some ((s.regs c).wr a), alarmTick := some (s.die (coreDie c)).o.tick } := by
  refine starts_of rfl fun _ s1 hc => congrArg (Act.done · none 3) (updCore_congr s1 c ?_)
  rw [order_of_txnView (carries_txnView hc (coreDie c)), ← carries_regs hc, State.regs]

end

/-- The mask names core j of the cluster in its position 6 + j (R219). -/
theorem getMsbD_eq_getLsbD_of_lt (mask : BitVec 8) {j : Nat} (hj : j < 8) : mask.getMsbD j = mask.getLsbD (7 - j) := by
  rw [BitVec.getMsbD, decide_eq_true hj, Bool.true_and]

theorem iter_congr {α : Type} {n : Nat} {f g : Nat → α → α} (h : ∀ j < n, ∀ a, f j a = g j a) (a : α) : iter n f a = iter n g a := by
  induction n with
  | zero => rfl
  | succ n ih => rw [iter_succ, iter_succ, ih fun j hj => h j (by omega), h n (by omega)]

/-- A core named in the mask is rung; the core itself no earlier than in the cycle after (R219). -/
theorem ringCore_eq (x : State) (c : CoreId) (j : Nat) : x.ringCore c j =
    (if j = coreIndex c ∧ BitVec'.at' (x.regs (8 * coreCluster c + j)).sp.ipend 35 = false then
      x.updCore (8 * coreCluster c + j) fun k => { k with bell := true } else x).interrupt (8 * coreCluster c + j) .doorbell := by
  unfold State.ringCore
  simp only [Bool.and_eq_true, decide_eq_true_eq, Bool.not_eq_true']
  rfl

theorem ends_doorbell (s : State) (c : CoreId) (mask : BitVec 8) : Ends s c (.doorbell c mask) 3 none fun t =>
    iter 8 (fun j x => if mask.getLsbD (7 - j) then
      (if j = coreIndex c ∧ BitVec'.at' (x.regs (8 * coreCluster c + j)).sp.ipend 35 = false then
        x.updCore (8 * coreCluster c + j) fun k => { k with bell := true } else x).interrupt (8 * coreCluster c + j) .doorbell
      else x) t := by
  refine ends_of rfl fun _ s1 _ => congrArg (Act.done · none 3) (iter_congr (fun j hj x => ?_) s1)
  rw [getMsbD_eq_getLsbD_of_lt mask hj, ringCore_eq]

/-! ### CODE.WR (R155, R220) -/

section
variable {s : State} {c : CoreId} {a b : Reg}

/-- What CODE.WR does is decided by KC and its address, as the core's registers give them. -/
theorem codeWr_act {x : Cur} {s1 : State} (h : s.carries c (.codeWr c a b) = some (x, s1)) :
    exec (.codeWr c a b) s = .next (s1.settle c (.codeWr c a b)
      (let r := s.regs c
       let at_ := r.govKc.base + (r.wr a).toNat
       if r.govKc.write = false then .fault .capRights at_
       else if r.govKc.covers at_ 1 = false then .fault .capBounds at_
       else if 262144 ≤ at_ then .fault .codeRange at_
       else .done (s1.writeCode (coreCluster c) at_ ((r.wr b).truncate 14)) none 4)) := by
  have he : exec (.codeWr c a b) s = .next (s.instr c (.codeWr c a b) _) := rfl
  rw [he, instr_carries h]
  dsimp only
  rw [carries_regs h]
  simp only [Bool.not_eq_true']

end

/-- Settles O26: the barriers and controls end at once where what they wait for is done; CODE.WR is the one with checks, in the order
of `codeWr_act`. -/
theorem barriersAndControl : Obligations.BarriersAndControl := by
  intro s c a b d mask n r
  refine ⟨yields_of rfl rfl, ends_of rfl fun _ _ _ => rfl, ends_msync, fun hfp => ⟨starts_afterUnit hfp rfl, starts_afterUnit hfp rfl,
    starts_afterUnit hfp rfl⟩, starts_alarm a, starts_of rfl fun _ _ _ => rfl, ends_doorbell s c mask, ?_⟩
  intro at_
  refine ⟨fun hw hb hr x s1 h => ?_, fun hw x s1 h => ?_, fun hw hb x s1 h => ?_, fun hw hb hr x s1 h => ?_⟩
  · rw [codeWr_act h]
    dsimp only
    rw [if_neg (ne_false_of_eq_true hw), if_neg (ne_false_of_eq_true hb), if_neg (Nat.not_le.2 hr)]
    rfl
  · rw [codeWr_act h]
    dsimp only
    rw [if_pos hw]
    rfl
  · rw [codeWr_act h]
    dsimp only
    rw [if_neg (ne_false_of_eq_true hw), if_pos hb]
    rfl
  · rw [codeWr_act h]
    dsimp only
    rw [if_neg (ne_false_of_eq_true hw), if_neg (ne_false_of_eq_true hb), if_pos hr]
    rfl

/-! ### BREAK and undefined encodings (R170, R188, R191, R219) -/

/-- Settles O27: BREAK counts its 2 cc and stops; syllables without a meaning are reported once they have been fetched. -/
theorem breakAndUndefinedEncodings : Obligations.BreakAndUndefinedEncodings := by
  intro s c code
  refine ⟨fun x s1 h => ?break_, ?undefined⟩
  case break_ =>
    have he : exec (.break_ c code) s = .next (s.instr c (.break_ c code) _) := rfl
    rw [he, instr_carries h]
    rfl
  case undefined =>
    intro k held hlive hbad hcur htake hnone hlen hready
    have he : exec (.undefinedEncoding c) s = execUndefinedEncoding c s := rfl
    rw [he]
    unfold execUndefinedEncoding
    dsimp only
    rw [State.rung_fetchIs]
    simp only [k, held] at hlive hbad hcur htake hnone hlen hready
    simp only [hlive, hbad, hcur, htake, hnone, hready, Nat.not_lt.2 hlen, State.fetchStop, Option.isSome_none, Bool.not_true, Bool.or_self,
      Bool.false_eq_true, if_false]

end Sys2Proof.Machine
end
section
/-! PROOF of O5 and O29: the state at reset (R149, R153, R309, R461), exception entries and CATACLYSM (R168 to R173, R185). -/

namespace Sys2Proof.Machine

/-- Settles O5: the state at reset is a fixed value, and so is each part of it that the statement names. -/
theorem resetState : Obligations.ResetState := by
  refine ⟨rfl, rfl, rfl, rfl, fun c => ?core, fun d => ?die, fun g => ⟨rfl, rfl, rfl⟩, fun i => ?domain, rfl, rfl, rfl, rfl, rfl, rfl,
    rfl, rfl, rfl, rfl, rfl⟩
  case core => exact ⟨rfl, rfl, rfl, rfl, fun _ => rfl, rfl, rfl, rfl⟩
  case die => exact ⟨rfl, rfl, rfl, fun _ => rfl⟩
  case domain => exact BitVec.getLsbD_zero

/-! ### Entries (R168 to R173, R185) -/

/-- The exchange of the two sets of capabilities changes those registers only. -/
theorem swapSets_eq (r : CoreRegs) : r.swapSets = { r with k := r.swapSets.k } := by
  have hiter (n : Nat) : iter n (fun i x => (x.setCap i (r.cap (16 + i))).setCap (16 + i) (r.cap i)) r =
      { r with k := (iter n (fun i x => (x.setCap i (r.cap (16 + i))).setCap (16 + i) (r.cap i)) r).k } := by
    induction n with
    | zero => rfl
    | succ n ih =>
      rw [iter_succ, ih]
      rfl
  exact hiter 10

/-- The registers with the KC that governs, where a shadow of KC holds it, saved in capability register n (R161). -/
def CoreRegs.savedKc (r : CoreRegs) (n : Nat) : CoreRegs :=
  match r.shadow with
  | some h => if h.which = 3 then r.setCap n h.oldKc else r
  | none => r

section
variable {r : CoreRegs} {n : Nat}

theorem savedKc_cap_of_ne {m : Nat} (hm : m ≠ n) : (r.savedKc n).cap m = r.cap m := by
  unfold CoreRegs.savedKc
  split
  · split
    · rw [CoreRegs.setCap_cap, if_neg hm]
    · rfl
  · rfl

theorem savedKc_cap_of_kc {h : Shadow} (hs : r.shadow = some h) (hw : h.which = 3) : (r.savedKc n).cap n = h.oldKc := by
  unfold CoreRegs.savedKc
  rw [hs]
  dsimp only
  rw [if_pos hw, CoreRegs.setCap_cap, if_pos rfl]

theorem savedKc_of_none (hs : r.shadow = none) : r.savedKc n = r := by
  unfold CoreRegs.savedKc
  rw [hs]

end

/-- SAVEMODE of an entry: what the shadow records, or as it was (R161). -/
def CoreRegs.savemodeOr (r : CoreRegs) (old : Word) : Word :=
  match r.shadow with
  | some h => h.record
  | none => old

theorem savemodeOr_of_some {r : CoreRegs} {h : Shadow} (hs : r.shadow = some h) (old : Word) : r.savemodeOr old = h.record := by
  rw [CoreRegs.savemodeOr, hs]

theorem savemodeOr_of_none {r : CoreRegs} (hs : r.shadow = none) (old : Word) : r.savemodeOr old = old := by
  rw [CoreRegs.savemodeOr, hs]

/-- What an entry does to a core with its registers set up: the loop buffer is emptied, 12 cc are counted, and the core goes on at pc. -/
theorem entered_r (s : State) (c : Nat) (k : Core) (pc : Nat) :
    (s.refill c (k.dropBuf.count (·.addCycles 12)) pc).r = { k.r with cnt := k.r.cnt.addCycles 12 } := rfl

/-- The registers of a level-0 entry before the exchange of the capability sets (R170). -/
def CoreRegs.enteringZero (r : CoreRegs) (cause epc faddr : Word) : CoreRegs :=
  { r with
    k := (r.savedKc 10).k
    sp := { r.sp with cause := cause, epc := epc, faddr := faddr, savemode := r.savemodeOr r.sp.savemode }
    ctl := { r.ctl with lact := false, sres := false, exl := true }, shadow := none }

/-- The registers of a level-1 entry (R169). -/
def CoreRegs.enteringOne (r : CoreRegs) (cause epc : Word) : CoreRegs :=
  { r with
    k := (r.savedKc 11).k
    sp := { r.sp with cause1 := cause, epc1 := epc, savemode1 := r.savemodeOr r.sp.savemode1 }
    ctl := { r.ctl with lact := false, sres := false, bk1 := true }, shadow := none }

section
variable (s : State) (c : CoreId) (cause : Cause) (epc faddr need : Nat) (async : Bool)

/-- The registers of a core after a level-0 entry (R170). -/
theorem levelZero_regs : (s.levelZero c cause epc faddr async).regs c =
    (let q := (s.regs c).enteringZero ((s.regs c).causeWord cause async 0) (BitVec.ofNat 36 (epc % 2 ^ 18)) (BitVec.ofNat 36 faddr)
     { q with k := q.swapSets.k, cnt := q.cnt.addCycles 12 }) := by
  unfold State.levelZero State.regs
  rw [State.setCore_core, if_pos rfl, entered_r]
  generalize (s.core c).r = r
  rw [swapSets_eq]
  unfold CoreRegs.enteringZero CoreRegs.savedKc CoreRegs.savemodeOr
  rcases Option.eq_none_or_eq_some r.shadow with hs | ⟨h, hs⟩
  · simp only [hs]
  · by_cases hw : h.which = 3
    · simp only [hs, hw, if_true, CoreRegs.setCap]
    · simp only [hs, hw, if_false]

/-- The registers of a core after a level-1 entry (R169). -/
theorem levelOne_regs : (s.levelOne c cause epc async need).regs c =
    (let q := (s.regs c).enteringOne ((s.regs c).causeWord cause async need) (BitVec.ofNat 36 (epc % 2 ^ 18))
     { q with cnt := q.cnt.addCycles 12 }) := by
  unfold State.levelOne State.regs
  rw [State.setCore_core, if_pos rfl, entered_r]
  generalize (s.core c).r = r
  unfold CoreRegs.enteringOne CoreRegs.savedKc CoreRegs.savemodeOr
  rcases Option.eq_none_or_eq_some r.shadow with hs | ⟨h, hs⟩
  · simp only [hs]
  · by_cases hw : h.which = 3
    · simp only [hs, hw, if_true, CoreRegs.setCap]
    · simp only [hs, hw, if_false]

/-- An entry of level 0 exchanges the sets of capabilities once the governing KC is saved. -/
theorem levelZero_cap (m : Nat) : ((s.levelZero c cause epc faddr async).regs c).cap m =
    if m < 10 then ((s.regs c).savedKc 10).cap (16 + m)
    else if 16 ≤ m ∧ m < 26 then ((s.regs c).savedKc 10).cap (m - 16) else ((s.regs c).savedKc 10).cap m := by
  have hswap (q : CoreRegs) : CoreRegs.cap { q with k := q.swapSets.k, cnt := q.cnt.addCycles 12 } m = q.swapSets.cap m := by
    unfold CoreRegs.cap
    dsimp only
  have hsaved (w a f : Word) (n : Nat) : ((s.regs c).enteringZero w a f).cap n = ((s.regs c).savedKc 10).cap n := by
    unfold CoreRegs.cap CoreRegs.enteringZero
    dsimp only
  rw [levelZero_regs]
  dsimp only
  rw [hswap, swapSets_cap, hsaved, hsaved, hsaved]

theorem levelOne_cap (m : Nat) : ((s.levelOne c cause epc async need).regs c).cap m = ((s.regs c).savedKc 11).cap m := by
  have hsaved (w a : Word) : CoreRegs.cap { (s.regs c).enteringOne w a with cnt := ((s.regs c).enteringOne w a).cnt.addCycles 12 } m =
      ((s.regs c).savedKc 11).cap m := by
    unfold CoreRegs.cap CoreRegs.enteringOne
    dsimp only
  rw [levelOne_regs]
  exact hsaved _ _

theorem levelZero_pc : ((s.levelZero c cause epc faddr async).core c).pc = (s.regs c).sp.excEntry.toNat % 2 ^ 18 := by
  unfold State.levelZero
  rw [State.setCore_core, if_pos rfl]
  rfl

theorem levelOne_pc : ((s.levelOne c cause epc async need).core c).pc = (s.regs c).sp.excEntry.toNat % 2 ^ 18 := by
  unfold State.levelOne
  rw [State.setCore_core, if_pos rfl]
  rfl

theorem levelZero_core_of_ne {n : Nat} (hn : n ≠ c.val) : (s.levelZero c cause epc faddr async).core n = s.core n :=
  (State.setCore_core _ _ _ _).trans (if_neg hn)

theorem levelOne_core_of_ne {n : Nat} (hn : n ≠ c.val) : (s.levelOne c cause epc async need).core n = s.core n :=
  (State.setCore_core _ _ _ _).trans (if_neg hn)

end

/-! ### CATACLYSM (R173, R185) -/

section
variable (s : State) (c : CoreId)

theorem State.dropTxn_core : (s.dropTxn c).core c = { s.core c with txn := none } := by
  unfold State.dropTxn
  split
  next h => rw [← h]
  next => rw [State.updCore_core, if_pos rfl]; rfl

theorem State.dropTxn_h : (s.dropTxn c).h = s.h := by
  unfold State.dropTxn
  split <;> rfl

theorem State.logErr_elCount_of_sev_zero (code die : Nat) (hub : Bool) (part unit : Nat) (w2 w3 : Word) :
    (s.logErr code 0 die hub part unit w2 w3).h.elCount = s.h.elCount + 1 := rfl

theorem State.logErr_core (code sev die : Nat) (hub : Bool) (part unit : Nat) (w2 w3 : Word) (n : Nat) :
    (s.logErr code sev die hub part unit w2 w3).core n = s.core n := by
  unfold State.core
  rw [State.logErr_u]

/-- CATACLYSM without an uncorrectable error halts the core and logs its halt record; the cluster is not retired. -/
theorem cataclysm_of_lt {reason : Nat} (h : reason < 4) (code : Nat) :
    (s.cataclysm c reason code).core c = { s.core c with
      txn := none, halted := true, cur := none
      haltRec := BitVec.ofNat 36 (((8 + reason) * 64 + code) * 2 ^ 26 + (s.core c).pc % 2 ^ 18) } ∧
    (s.cataclysm c reason code).h.elCount = s.h.elCount + 1 := by
  have hr : ¬ (reason = 4 ∨ reason = 5) := by omega
  unfold State.cataclysm
  dsimp only
  rw [if_neg hr, if_neg hr]
  constructor
  · rw [State.logErr_core, State.updCore_core, if_pos rfl, State.dropTxn_core]
  · rw [State.logErr_elCount_of_sev_zero, State.updCore_h, State.dropTxn_h]

end

theorem raise_eq (s : State) (c : Nat) (cause : Cause) (faddr : Nat) : s.raise c cause faddr =
    if (s.regs c).ctl.bk1 then s.cataclysm c 2 cause.code
    else if (s.regs c).ctl.exl then s.cataclysm c 3 cause.code
    else s.levelZero c cause (s.core c).pc faddr false := rfl

theorem trap_eq (s : State) (c : Nat) (cause : Cause) (need : Nat) : s.trap c cause need =
    if (s.regs c).ctl.bk1 then s.cataclysm c 1 cause.code else s.levelOne c cause (s.core c).pc false need := rfl

/-- Settles O29: the registers of an entry are written out once for each level (`levelZero_regs`, `levelOne_regs`) and read off field by
field; its words are named first, since they need not be evaluated. -/
theorem exceptionEntries : Obligations.ExceptionEntries := by
  intro s c cause epc faddr need async r
  refine ⟨?levelZero, ?levelOne, fun h1 h0 => ?zero, fun h1 h0 => ?cataclysm3, fun h1 => ⟨?cataclysm2, ?cataclysm1⟩, fun h1 => ?one,
    fun reason hr => ?cataclysm⟩
  case levelZero =>
    intro t q
    have hq : q = _ := levelZero_regs s c cause epc faddr async
    obtain ⟨w, hw⟩ : ∃ w, (s.regs c).causeWord cause async 0 = w := ⟨_, rfl⟩
    obtain ⟨a, ha⟩ : ∃ a, BitVec.ofNat 36 (epc % 2 ^ 18) = a := ⟨_, rfl⟩
    obtain ⟨f, hf⟩ : ∃ f, BitVec.ofNat 36 faddr = f := ⟨_, rfl⟩
    rw [hw, ha, hf] at hq
    have hcap (m : Nat) := levelZero_cap s c cause epc faddr async m
    have hskc : q.cap 10 = (r.savedKc 10).cap 10 := hcap 10
    refine ⟨(congrArg (·.sp.cause) hq).trans hw.symm, (congrArg (·.sp.epc) hq).trans ha.symm, (congrArg (·.sp.faddr) hq).trans hf.symm,
      congrArg (·.ctl) hq, congrArg (·.shadow) hq, fun n hn => ?_, fun h hs => ⟨?_, fun hw => ?_⟩, fun hs => ⟨?_, ?_⟩,
      levelZero_pc s c cause epc faddr async, congrArg (·.cnt.cycles) hq, congrArg (·.w) hq, congrArg (·.d) hq,
      congrArg (·.frames) hq, congrArg (·.sp.cause1) hq, congrArg (·.sp.epc1) hq,
      fun n hn => levelZero_core_of_ne s c cause epc faddr async hn, rfl, rfl, rfl⟩
    · constructor
      · rw [hcap, if_pos hn, savedKc_cap_of_ne (by omega)]
      · rw [hcap, if_neg (by omega), if_pos (by omega), Nat.add_sub_cancel_left, savedKc_cap_of_ne (by omega)]
    · exact (congrArg (·.sp.savemode) hq).trans (savemodeOr_of_some hs _)
    · exact hskc.trans (savedKc_cap_of_kc hs hw)
    · exact (congrArg (·.sp.savemode) hq).trans (savemodeOr_of_none hs _)
    · rw [hskc, savedKc_of_none hs]
  case levelOne =>
    intro t q
    have hq : q = _ := levelOne_regs s c cause epc need async
    obtain ⟨w, hw⟩ : ∃ w, (s.regs c).causeWord cause async need = w := ⟨_, rfl⟩
    obtain ⟨a, ha⟩ : ∃ a, BitVec.ofNat 36 (epc % 2 ^ 18) = a := ⟨_, rfl⟩
    rw [hw, ha] at hq
    have hcap (m : Nat) : q.cap m = (r.savedKc 11).cap m := levelOne_cap s c cause epc need async m
    refine ⟨(congrArg (·.sp.cause1) hq).trans hw.symm, (congrArg (·.sp.epc1) hq).trans ha.symm, congrArg (·.ctl) hq,
      congrArg (·.shadow) hq, fun n hn => ?_, fun h hs => ⟨?_, fun hw => ?_⟩, levelOne_pc s c cause epc need async,
      congrArg (·.cnt.cycles) hq, congrArg (·.w) hq, congrArg (·.d) hq, congrArg (·.frames) hq, congrArg (·.sp.cause) hq,
      congrArg (·.sp.epc) hq, congrArg (·.sp.faddr) hq, fun n hn => levelOne_core_of_ne s c cause epc need async hn, rfl, rfl, rfl⟩
    · rw [hcap, savedKc_cap_of_ne hn]
    · exact (congrArg (·.sp.savemode1) hq).trans (savemodeOr_of_some hs _)
    · rw [hcap, savedKc_cap_of_kc hs hw]
  case zero => rw [raise_eq, if_neg (ne_true_of_eq_false h1), if_neg (ne_true_of_eq_false h0)]
  case cataclysm3 => rw [raise_eq, if_neg (ne_true_of_eq_false h1), if_pos h0]
  case cataclysm2 => rw [raise_eq, if_pos h1]
  case cataclysm1 => rw [trap_eq, if_pos h1]
  case one => rw [trap_eq, if_neg (ne_true_of_eq_false h1)]
  case cataclysm =>
    intro t
    obtain ⟨hcore, hcount⟩ := cataclysm_of_lt s c hr cause.code
    have hword (p : Nat) : ((8 + reason) * 64 + cause.code) * 2 ^ 26 + p = (2 ^ 3 + reason) * 2 ^ 32 + cause.code * 2 ^ 26 + p := by
      omega
    rw [hword] at hcore
    exact ⟨congrArg Core.halted hcore, congrArg Core.txn hcore, congrArg (·.r.sp) hcore, congrArg Core.haltRec hcore, hcount⟩

end Sys2Proof.Machine
end
section
/-! PROOF of O30: interrupts at a boundary and out of a wait (R168, R172, R174, R175, R219). -/

namespace Sys2Proof.Machine

section
variable (r : CoreRegs) (cause epc faddr : Word) (k : Sparse Cap) (cnt : Counters)

theorem enteringZero_ctl : CoreRegs.ctl { r.enteringZero cause epc faddr with k := k, cnt := cnt } =
    { r.ctl with lact := false, sres := false, exl := true } := rfl

theorem enteringZero_ipend : Special.ipend (CoreRegs.sp { r.enteringZero cause epc faddr with k := k, cnt := cnt }) = r.sp.ipend := rfl

theorem enteringOne_ctl : CoreRegs.ctl { r.enteringOne cause epc with cnt := cnt } =
    { r.ctl with lact := false, sres := false, bk1 := true } := rfl

theorem enteringOne_ipend : Special.ipend (CoreRegs.sp { r.enteringOne cause epc with cnt := cnt }) = r.sp.ipend := rfl

end

section
variable (s : State) (c : CoreId)

/-- The state with the IPEND bit of an item cleared, from which the core enters for it (R174). -/
def State.cleared (i : Item) : State :=
  s.setCore c ((s.core c).updSp fun p => { p with ipend := BitVec'.setAt p.ipend i.position false })

theorem takeItem_of_prompt {i : Item} (h : i = .alarm ∨ i = .aborted) :
    s.takeItem c i = (s.cleared c i).levelOne c i.cause (s.core c).pc true 0 := by
  rcases h with rfl | rfl <;> rfl

theorem takeItem_of_late {i : Item} (h : i = .hub ∨ i = .doorbell) :
    s.takeItem c i = (s.cleared c i).levelZero c i.cause (s.core c).pc 0 true := by
  rcases h with rfl | rfl <;> rfl

theorem cleared_ipend (i : Item) : ((s.cleared c i).regs c).sp.ipend = BitVec'.setAt (s.regs c).sp.ipend i.position false := by
  unfold State.cleared State.regs
  rw [State.setCore_core, if_pos rfl]
  rfl

theorem levelOne_entered (cause : Cause) (epc need : Nat) (async : Bool) :
    ((s.levelOne c cause epc async need).regs c).ctl.bk1 = true ∧
      ((s.levelOne c cause epc async need).regs c).sp.ipend = (s.regs c).sp.ipend := by
  have h := levelOne_regs s c cause epc need async
  exact ⟨(congrArg (·.ctl.bk1) h).trans (congrArg Ctl.bk1 (enteringOne_ctl _ _ _ _)),
    (congrArg (·.sp.ipend) h).trans (enteringOne_ipend _ _ _ _)⟩

theorem levelZero_entered (cause : Cause) (epc faddr : Nat) (async : Bool) :
    ((s.levelZero c cause epc faddr async).regs c).ctl.exl = true ∧
      ((s.levelZero c cause epc faddr async).regs c).sp.ipend = (s.regs c).sp.ipend := by
  have h := levelZero_regs s c cause epc faddr async
  exact ⟨(congrArg (·.ctl.exl) h).trans (congrArg Ctl.exl (enteringZero_ctl _ _ _ _ _ _)),
    (congrArg (·.sp.ipend) h).trans (enteringZero_ipend _ _ _ _ _ _)⟩

/-- An entry leaves what is pending in the units. -/
theorem levelZero_pend (cause : Cause) (epc faddr : Nat) (async : Bool) :
    ((s.levelZero c cause epc faddr async).core c).tvPend = (s.core c).tvPend ∧
      ((s.levelZero c cause epc faddr async).core c).u.ftPend = (s.core c).u.ftPend := by
  unfold State.levelZero
  rw [State.setCore_core, if_pos rfl]
  exact ⟨rfl, rfl⟩

theorem takeItem_target : ((s.takeItem c .target).core c).tvPend = none := by
  refine (levelZero_pend (s.setCore c { s.core c with tvPend := none }) c _ _ _ _).1.trans ?_
  rw [State.setCore_core, if_pos rfl]

theorem takeItem_float : ((s.takeItem c .float).core c).u.ftPend = false := by
  refine (levelZero_pend (s.setCore c { s.core c with u := { (s.core c).u with ftPend := false } }) c _ _ _ _).2.trans ?_
  rw [State.setCore_core, if_pos rfl]

end

/-- The item that a core takes is the first of R175's order that it can take. -/
theorem takeable_first {k : Core} {i : Item} (h : k.takeable = some i) :
    ∃ l r, [Item.aborted, .alarm, .target, .float, .hub, .queue, .doorbell] = l ++ i :: r ∧ k.canTake i = true ∧
      ∀ j ∈ l, k.canTake j = false := by
  obtain ⟨hcan, l, r, heq, hl⟩ := List.find?_eq_some_iff_append.1 h
  exact ⟨l, r, heq, hcan, fun j hj => Bool.not_eq_true' _ ▸ hl j hj⟩

theorem canTake_doorbell_of_bell {k : Core} (h : k.bell = true) : k.canTake .doorbell = false := by
  simp [Core.canTake, h]

/-- Settles O30: the items are found in R175's order; an entry clears the item's IPEND bit or pending trap and goes in at its level. -/
theorem interruptTaken : Obligations.InterruptTaken := by
  intro s c i k hlive htake
  refine ⟨fun hcur => ?_, fun x hcur hretry hsoft hbegun => ?_, takeable_first htake, fun hbell hi => ?_, fun hi => ?_, fun hi => ?_,
    fun hi => hi ▸ takeItem_target s c, fun hi => hi ▸ takeItem_float s c⟩
  · exact congrArg Host.Outcome.next (by rw [hlive, htake, hcur])
  · have he : exec (.interruptTake c) s = execInterruptTake c s := rfl
    rw [he, execInterruptTake, hlive, htake, hcur]
    simp only [hretry, hsoft, hbegun, Bool.and_self, if_true, Bool.false_eq_true, if_false]
  · obtain ⟨_, _, _, hcan, _⟩ := takeable_first htake
    rw [hi, canTake_doorbell_of_bell hbell] at hcan
    exact Bool.false_ne_true hcan
  · rw [takeItem_of_prompt s c hi]
    obtain ⟨hctl, hpend⟩ := levelOne_entered (s.cleared c i) c i.cause (s.core c).pc 0 true
    exact ⟨hctl, hpend.trans (cleared_ipend s c i)⟩
  · rw [takeItem_of_late s c hi]
    obtain ⟨hctl, hpend⟩ := levelZero_entered (s.cleared c i) c i.cause (s.core c).pc 0 true
    exact ⟨hctl, hpend.trans (cleared_ipend s c i)⟩

end Sys2Proof.Machine
end
section
/-! PROOF of O33: loads and stores in scratch (R143, R144, R281 to R283). -/

namespace Sys2Proof.Machine

/-! ### The parts of an operand (R54, R238, R282) -/

/-- Parts that lie one behind the other from va on, of len characters together, none of them empty. -/
def Tiles : Nat → Nat → List (Nat × Nat) → Prop
  | _, len, [] => len = 0
  | va, len, p :: ps => p.1 = va ∧ 0 < p.2 ∧ p.2 ≤ len ∧ Tiles (va + p.2) (len - p.2) ps

theorem Tiles.within {va len : Nat} {ps : List (Nat × Nat)} (h : Tiles va len ps) {p : Nat × Nat} (hp : p ∈ ps) :
    va ≤ p.1 ∧ 0 < p.2 ∧ p.1 + p.2 ≤ va + len := by
  induction ps generalizing va len with
  | nil => cases hp
  | cons q qs ih =>
    obtain ⟨hva, hpos, hle, hrest⟩ := h
    rcases List.mem_cons.1 hp with rfl | hp
    · omega
    · obtain ⟨h1, h2, h3⟩ := ih hrest hp
      omega

theorem tiles_cutParts {fuel va len : Nat} (h : len = 0 ∨ va % 64 + len ≤ 64 * fuel) : Tiles va len (cutParts fuel va len) := by
  induction fuel generalizing va len with
  | zero => exact (by omega : len = 0)
  | succ fuel ih =>
    rw [cutParts]
    split
    next h0 => exact h0
    next h0 => exact ⟨rfl, by omega, Nat.min_le_left _ _, ih (by omega)⟩

theorem Operand.tiles_parts (o : Operand) : Tiles o.va o.len o.parts := by
  unfold Operand.parts
  split
  next h =>
    simp only [Operand.split, Bool.and_eq_true, decide_eq_true_eq] at h
    obtain ⟨⟨hlen, _⟩, hva⟩ := h
    exact ⟨rfl, by omega, by omega, rfl, by omega, by omega, show o.len - _ - _ = 0 by omega⟩
  next => exact tiles_cutParts (by omega)

/-! ### Stages 1 to 6 (R281) -/

/-- The part of an operand in scratch, of len characters from va. -/
def Operand.scratchPart (o : Operand) (p : Nat × Nat) : AccPart :=
  { va := p.1, pa := p.1 - scratchBase, len := p.2, scratch := true, whole := decide (p.1 = o.va) && decide (p.2 = o.len),
    claimed := false, void := false, key := 0, sys := false, data := [], bank := false, slot := 127, cleared := false, refused := none,
    resp := none }

/-- An operand of a load or store that lies in scratch and meets its checks (R281, R283). -/
structure Operand.InScratch (o : Operand) : Prop where
  base : scratchBase ≤ o.va
  fits : o.va - scratchBase + o.len ≤ 262144
  aligned : o.align ≤ 1 ∨ o.va % o.align = 0
  covered : o.cap.covers o.va o.len = true
  plain : o.need = .load ∨ o.need = .store
  rights : o.rights = true

section
variable {o : Operand} (ho : o.InScratch)
include ho

theorem checkPart_scratch (s : State) (c : Nat) (xlat : List TlbEntry) {p : Nat × Nat} (hp : p ∈ o.parts) :
    s.checkPart c xlat o p.1 p.2 = .ok (o.scratchPart p) none := by
  obtain ⟨hlow, _, hhigh⟩ := o.tiles_parts.within hp
  have hbase := ho.base
  have hfits := ho.fits
  have hcovers : o.cap.covers p.1 p.2 = true := by
    have h := ho.covered
    simp only [Cap.covers, Bool.and_eq_true, decide_eq_true_eq] at h ⊢
    omega
  have hin : inScratch p.1 = true := decide_eq_true (Nat.le_trans hbase hlow)
  have hrange : ¬ 262144 < p.1 - scratchBase + p.2 := by omega
  unfold State.checkPart
  dsimp only
  rw [hcovers, hin, if_neg (by decide), if_pos rfl, if_neg hrange]
  rcases ho.plain with hn | hn
  · rw [hn]
    rfl
  · rw [hn]
    rfl

theorem checkParts_scratch (s : State) (c : Nat) (xlat : List TlbEntry) {ps : List (Nat × Nat)} (hps : ∀ p ∈ ps, p ∈ o.parts) :
    s.checkParts c xlat o ps = .ok (ps.map fun p => (o.scratchPart p, none)) := by
  induction ps with
  | nil => rfl
  | cons p ps ih =>
    rw [State.checkParts, checkPart_scratch ho s c xlat (hps p List.mem_cons_self)]
    dsimp only
    rw [ih fun q hq => hps q (List.mem_cons_of_mem _ hq)]
    rfl

theorem checkOperands_scratch (s : State) (c : Nat) (xlat : List TlbEntry) :
    s.checkOperands c xlat [o] = .ok (o.parts.map fun p => (o.scratchPart p, none)) := by
  have haligned : ¬ (1 < o.align ∧ o.va % o.align ≠ 0) := by
    have := ho.aligned
    omega
  rw [State.checkOperands, State.checkOperand, if_neg haligned, ho.rights, ho.covered, checkParts_scratch ho s c xlat fun _ => id]
  simp [State.checkOperands]

end

/-! ### Stage 8 in scratch (R143) -/

/-- A line of scratch that holds no error and no capability. -/
def State.cleanLine (s : State) (cl line : Nat) : Prop :=
  (s.scratchInfo cl line).poison = false ∧ (s.scratchInfo cl line).capline = false ∧ line ∉ (s.cluster cl).scratchBad ∧
    ∀ e ∈ (s.cluster cl).scratchCe, e.1 ≠ line

theorem scratchCheck_clean {s : State} {c : Nat} {need : Need} {q : AccPart} (h : s.cleanLine (coreCluster c) (q.pa / 64))
    (hn : need = .load ∨ need = .store) : s.scratchCheck c need q = (s, none) := by
  obtain ⟨hpoison, hcap, hbad, hce⟩ := h
  have hnone : ((s.cluster (coreCluster c)).scratchCe.find? fun x => decide (x.1 = q.pa / 64)) = none :=
    List.find?_eq_none.2 fun e he => by simpa using hce e he
  unfold State.scratchCheck State.scratchCorrected
  dsimp only
  rw [hpoison, hcap, if_neg hbad, hnone]
  rcases hn with rfl | rfl <;> rfl

theorem scratchChecks_clean {s : State} {c : Nat} {need : Need} {l : List AccPart}
    (h : ∀ q ∈ l, s.cleanLine (coreCluster c) (q.pa / 64)) (hn : need = .load ∨ need = .store) :
    s.scratchChecks c need l = (s, none) := by
  induction l with
  | nil => rfl
  | cons q l ih =>
    have hrest := ih fun r hr => h r (List.mem_cons_of_mem _ hr)
    rw [State.scratchChecks, scratchCheck_clean (h q List.mem_cons_self) hn]
    dsimp only
    rw [hrest, ite_self]

/-- Parts in scratch make no claim, so they wait for none (R121). -/
theorem ungranted_scratch (s : State) (c : Nat) {l : List AccPart} (h : ∀ q ∈ l, q.claimed = false) : s.ungranted c l = false :=
  List.any_eq_false.2 fun q hq => by simp [h q hq]

/-! ### What is read (R207) -/

theorem getList_add {α : Type} (d : α) (m : Sparse α) (k a b : Nat) :
    Sparse.getList d m k (a + b) = Sparse.getList d m k a ++ Sparse.getList d m (k + a) b := by
  induction a generalizing k with
  | zero => simp [Sparse.getList]
  | succ a ih =>
    rw [Nat.add_right_comm, Sparse.getList, ih, Sparse.getList, List.cons_append, Nat.add_assoc k 1, Nat.add_comm 1 a]

/-- The parts read one behind the other are the run. -/
theorem flatMap_getList {α : Type} (d : α) (m : Sparse α) {va len b : Nat} {ps : List (Nat × Nat)} (h : Tiles va len ps)
    (hb : b ≤ va) : (ps.flatMap fun p => Sparse.getList d m (p.1 - b) p.2) = Sparse.getList d m (va - b) len := by
  induction ps generalizing va len with
  | nil => rw [show len = 0 from h]; rfl
  | cons p ps ih =>
    obtain ⟨hva, _, hle, hrest⟩ := h
    rw [List.flatMap_cons, ih hrest (by omega), hva, Nat.sub_add_comm hb, ← getList_add, Nat.add_sub_cancel' hle]

/-- Every line that an operand in scratch touches is clean. -/
def State.cleanRun (s : State) (cl : Nat) (o : Operand) : Prop :=
  ∀ line, (o.va - scratchBase) / 64 ≤ line → line ≤ (o.va - scratchBase + o.len - 1) / 64 → s.cleanLine cl line

theorem State.cleanRun.cleanLine {s : State} {cl : Nat} {o : Operand} (h : s.cleanRun cl o) {p : Nat × Nat} (hp : p ∈ o.parts) :
    s.cleanLine cl ((p.1 - scratchBase) / 64) := by
  obtain ⟨hlow, hpos, hhigh⟩ := o.tiles_parts.within hp
  exact h _ (Nat.div_le_div_right (by omega)) (Nat.div_le_div_right (by omega))

section
variable {s : State} {c : CoreId} {x : Cur} {o : Operand}

theorem tryRead_scratch (hx : x.rounds = []) (ho : o.InScratch) (hn : o.need = .load) (hclean : s.cleanRun (coreCluster c) o) :
    ∃ x1, s.tryRead c x 0 [o] = .ok (x1, Sparse.getList 0 (s.cluster (coreCluster c)).scratch (o.va - scratchBase) o.len) := by
  have hungranted : s.ungranted c (o.parts.map o.scratchPart) = false :=
    ungranted_scratch s c (List.forall_mem_map.2 fun _ _ => rfl)
  have hchecks : s.scratchChecks c .load (o.parts.map o.scratchPart) = (s, none) :=
    scratchChecks_clean (List.forall_mem_map.2 fun p hp => hclean.cleanLine hp) (.inl rfl)
  have hread := flatMap_getList 0 (s.cluster (coreCluster c)).scratch o.tiles_parts ho.base
  refine ⟨{ x with rounds := [Sparse.getList 0 (s.cluster (coreCluster c)).scratch (o.va - scratchBase) o.len] }, ?_⟩
  unfold State.tryRead
  simp only [hx, checkOperands_scratch ho, hn, List.map_map, Function.comp_def, hungranted, hchecks]
  simpa [Operand.scratchPart, State.scratchRead, List.flatMap_map] using hread

end

/-! ### What is stored (R209) -/

theorem mem_dealData {l : List AccPart} {data : List Chr} {q : AccPart} (h : q ∈ dealData l data) :
    ∃ p ∈ l, ∃ d, q = { p with data := d } := by
  induction l generalizing data with
  | nil => cases h
  | cons p l ih =>
    rcases List.mem_cons.1 h with rfl | h
    · exact ⟨p, List.mem_cons_self, _, rfl⟩
    · obtain ⟨p', hp', d, hd⟩ := ih h
      exact ⟨p', List.mem_cons_of_mem _ hp', d, hd⟩

/-- The stores of the parts that an access has in scratch, from the first. -/
def State.storeParts (s : State) (cl : Nat) (l : List AccPart) : State := l.foldl (fun x q => x.scratchWrite cl q.pa q.data) s

theorem storeParts_keeps {β : Type} (view : State → β) (h : ∀ s cl off l, view (State.scratchWrite s cl off l) = view s) (s : State)
    (cl : Nat) (l : List AccPart) : view (s.storeParts cl l) = view s :=
  foldl_keeps view (f := fun (x : State) (q : AccPart) => x.scratchWrite cl q.pa q.data) (fun x q => h x cl q.pa q.data) l s

/-- Parts one behind the other store their data as one run. -/
theorem storeParts_char {va len : Nat} {ps : List (Nat × Nat)} (h : Tiles va len ps) (hb : scratchBase ≤ va) {data : List Chr}
    (hd : data.length = len) (o : Operand) (s : State) (cl e a : Nat) :
    Sparse.get 0 ((s.storeParts cl (dealData (ps.map o.scratchPart) data)).cluster e).scratch a =
      if e = cl ∧ va - scratchBase ≤ a ∧ a < va - scratchBase + len then data.getD (a - (va - scratchBase)) 0
      else Sparse.get 0 (s.cluster e).scratch a := by
  induction ps generalizing va len data s with
  | nil =>
    have hlen : len = 0 := h
    rw [if_neg (by omega)]
    rfl
  | cons p ps ih =>
    obtain ⟨hva, _, hle, hrest⟩ := h
    have htail := ih hrest (Nat.le_add_right_of_le hb) (by rw [List.length_drop, hd])
      (s.scratchWrite cl (p.1 - scratchBase) (data.take p.2))
    have hlen : (data.take p.2).length = p.2 := List.length_take_of_le (hd ▸ hle)
    refine htail.trans ?_
    rw [scratchWrite_char, hlen, hva, Nat.sub_add_comm hb]
    generalize va - scratchBase = k
    by_cases hin : e = cl ∧ k ≤ a ∧ a < k + len
    · rw [if_pos hin]
      obtain ⟨he, hk, _⟩ := hin
      by_cases hfirst : a < k + p.2
      · rw [if_neg (by omega), if_pos ⟨he, hk, hfirst⟩, List.getD_eq_getElem?_getD, List.getElem?_take_of_lt (by omega),
          ← List.getD_eq_getElem?_getD]
      · rw [if_pos (by omega), List.getD_eq_getElem?_getD, List.getElem?_drop, ← List.getD_eq_getElem?_getD,
          show p.2 + (a - (k + p.2)) = a - k by omega]
    · rw [if_neg hin, if_neg (by omega), if_neg (by omega)]

section
variable {s : State} {c : CoreId} {x : Cur} {o : Operand} {data : List Chr}

theorem tryStore_scratch (hx : x.rounds = []) (ho : o.InScratch) (hn : o.need = .store) (hclean : s.cleanRun (coreCluster c) o)
    (precise : Bool) : ∃ x1, s.tryStore c x 0 [o] .write precise data =
      .ok (x1, s.storeParts (coreCluster c) (dealData (o.parts.map o.scratchPart) data)) := by
  have hpart {q : AccPart} (hq : q ∈ dealData (o.parts.map o.scratchPart) data) :
      ∃ p ∈ o.parts, ∃ d, q = { o.scratchPart p with data := d } := by
    obtain ⟨_, hmem, d, hd⟩ := mem_dealData hq
    obtain ⟨p, hp, rfl⟩ := List.mem_map.1 hmem
    exact ⟨p, hp, d, hd⟩
  have hungranted : s.ungranted c (dealData (o.parts.map o.scratchPart) data) = false := ungranted_scratch s c fun q hq => by
    obtain ⟨_, _, _, rfl⟩ := hpart hq
    rfl
  have hchecks : s.scratchChecks c .store (dealData (o.parts.map o.scratchPart) data) = (s, none) :=
    scratchChecks_clean (fun q hq => by
      obtain ⟨p, hp, _, rfl⟩ := hpart hq
      exact hclean.cleanLine hp) (.inr rfl)
  have hall : (dealData (o.parts.map o.scratchPart) data).all AccPart.scratch = true := List.all_eq_true.2 fun q hq => by
    obtain ⟨_, _, _, rfl⟩ := hpart hq
    rfl
  refine ⟨{ x with rounds := [[]] }, ?_⟩
  unfold State.tryStore
  simp only [hx, checkOperands_scratch ho, hn, List.map_map, Function.comp_def, hungranted, hchecks, hall]
  rfl

end

/-- Settles O33: the parts of the operand lie one behind the other (`Operand.tiles_parts`), each passes every check, so they are read or
stored at once and together are the operand's characters. -/
theorem scratchAccess : Obligations.ScratchAccess := by
  intro s c x o data cl at_ hx hbase hpos hfits halign hcovers hclean
  refine ⟨fun hn hr => ?_, fun hn hw hlen precise => ?_⟩
  · exact tryRead_scratch hx ⟨hbase, hfits, halign, hcovers, .inl hn, by rw [Operand.rights, hn]; exact hr⟩ hn hclean
  · obtain ⟨x1, hx1⟩ := tryStore_scratch (data := data) hx
      ⟨hbase, hfits, halign, hcovers, .inr hn, by rw [Operand.rights, hn]; exact hw⟩ hn hclean precise
    have hchar := storeParts_char o.tiles_parts hbase hlen o s cl
    refine ⟨x1, _, hx1, fun j hj => ?_, fun e a hout => ?_, fun n => ?_, ?_, ?_, ?_⟩
    · rw [hchar, if_pos ⟨rfl, Nat.le_add_right _ _, Nat.add_lt_add_left hj _⟩, Nat.add_sub_cancel_left]
    · rw [hchar, if_neg (by omega)]
    · exact storeParts_keeps (·.core n) (fun _ _ _ _ => rfl) s _ _
    · exact storeParts_keeps (·.u.dies) (fun _ _ _ _ => rfl) s _ _
    · exact storeParts_keeps State.accesses (fun _ _ _ _ => rfl) s _ _
    · exact storeParts_keeps State.h (fun _ _ _ _ => rfl) s _ _

end Sys2Proof.Machine
end
section
/-! Refutation of O43: a fetch that corrects a symbol counts it on its die (R382), so an instruction need not leave the dies alone. -/

namespace Sys2Proof.Machine

/-- Core 0 stands before FILLC of one character to the first of its scratch, with every right, its registers but W4 and W5 empty and
one of them with a correctable symbol. -/
def correctableFill : State :=
  State.reset.setCore 0 { Core.reset with
    running := true, regCe := some 0, fetchQ := encode (.fillc 0 0 4 5 6),
    r := { (CoreRegs.reset.setW 5 1).setW 4 (BitVec.ofNat 36 scratchBase) with
      k := Sparse.setList Cap.empty [] 0 (List.replicate 10 { w0 := 0, w1 := BitVec.allOnes 36 }) } }

theorem correctableFill_lines (line : Nat) : (correctableFill.scratchInfo 0 line).poison = false ∧
    (correctableFill.scratchInfo 0 line).capline = false ∧ line ∉ (correctableFill.cluster 0).scratchBad ∧
    ∀ e ∈ (correctableFill.cluster 0).scratchCe, e.1 ≠ line := ⟨rfl, rfl, nofun, nofun⟩

theorem correctableFill_carries :
    ∃ x s1, correctableFill.carries 0 (.fillc 0 0 4 5 6) = some (x, s1) ∧ (s1.core 0).takeable = none := by
  have hc : ((correctableFill.carries 0 (.fillc 0 0 4 5 6)).any fun e => (e.2.core 0).takeable.isNone) = true := by
    decide +kernel
  obtain ⟨⟨x, s1⟩, hx, hn⟩ := (Option.any_eq_true _ _).1 hc
  exact ⟨x, s1, hx, Option.isNone_iff_eq_none.1 hn⟩

/-- The corrected symbol is counted in CE_COUNT of die 0. -/
theorem correctableFill_dies :
    (stateOr correctableFill (exec (.fillc 0 0 4 5 6) correctableFill)).u.dies ≠ correctableFill.u.dies := by
  decide +kernel

/-- Refutes O43: the statement has the dies unchanged, but a core that begins the FILLC with a correctable symbol in a register first
corrects it, which CE_COUNT of its die counts. -/
theorem not_fillcInScratch : ¬ Obligations.FillcInScratch := by
  unfold Obligations.FillcInScratch
  intro h
  obtain ⟨x, s1, hc, ht⟩ := correctableFill_carries
  have hrun := h correctableFill 0 0 4 5 6 (by decide +kernel) (by decide +kernel) (by decide +kernel) (by decide +kernel)
    (by decide +kernel) (by decide +kernel) (by decide +kernel) (fun line _ _ => correctableFill_lines line) x s1 hc ht
  obtain ⟨t, hnext, _, _, _, _, _, _, hdies, _⟩ := hrun
  exact correctableFill_dies (hnext ▸ hdies)

end Sys2Proof.Machine
end
section
/-! Refutation of O25: LOOP empties the loop buffer of a core in no loop (R213, R214). -/

namespace Sys2Proof.Machine

/-- Core 0 stands before a LOOP of one syllable, in no loop, with a syllable left in its loop buffer; its registers as at reset but
for KC. -/
def staleBufferLoop : State :=
  State.reset.setCore 0 { Core.reset with
    running := true, loopBuf := [(7, 0)], fetchQ := encode (.loop 0 1 1 1),
    r := CoreRegs.reset.setCap 8 { w0 := 0, w1 := BitVec.allOnes 36 } }

/-- A core in no loop keeps its loop buffer at the end of an instruction that does not branch. -/
theorem finish_loopBuf {s0 : State} {c : CoreId} (h : (s0.core c).atLoopEnd = false) (s : State) (i : Instr) (cc : Nat) :
    ((s0.finish s c i none cc).core c).loopBuf = (s.core c).loopBuf := by
  rw [finish_none_core, loopEnd_of_not _ _ _ fun e => by simp [h] at e]
  exact State.counted_loopBuf s0 s c cc

/-- Refutes O25: LOOP empties the loop buffer besides writing its registers, and the statement has it write registers only. They
differ where a core in no loop holds a buffer. -/
theorem not_hardwareLoopStart : ¬ Obligations.HardwareLoopStart := by
  unfold Obligations.HardwareLoopStart
  intro h
  have hc : (staleBufferLoop.carries 0 (.loop 0 1 1 1)).isSome = true := by decide +kernel
  obtain ⟨⟨x, s1⟩, hx⟩ := Option.isSome_iff_exists.1 hc
  obtain ⟨_, hruns, _⟩ := h staleBufferLoop 0 0 1 1 1
  obtain ⟨_, hyields, _⟩ := hruns (by decide +kernel) (by decide) (by decide) (by decide)
  have hloop := hyields (by decide) x s1 hx
  have hempty : ((stateOr staleBufferLoop (exec (.loop 0 1 1 1) staleBufferLoop)).core 0).loopBuf = [] := by decide +kernel
  obtain ⟨_, _, hcore⟩ := carries_core hx
  have hout : (s1.core (0 : CoreId)).atLoopEnd = false := by
    rw [hcore]
    rfl
  have hbuf : (s1.core (0 : CoreId)).loopBuf = [(7, 0)] := by
    rw [hcore]
    rfl
  have hend : ((stateOr staleBufferLoop (exec (.loop 0 1 1 1) staleBufferLoop)).core 0).loopBuf = [(7, 0)] := by
    rw [hloop]
    refine (finish_loopBuf (c := 0) hout (s1.updR 0 _) _ _).trans (Eq.trans ?_ hbuf)
    rw [State.updR, State.updCore_core, if_pos (show ((0 : CoreId) : Nat) = 0 from rfl)]
    rfl
  exact absurd (hempty.symm.trans hend) (by decide)

end Sys2Proof.Machine
end
section
/-! SUPPORT for O9, O10 and O16: fields of values and syllables, joined and taken apart (R4, R186), and the operands that they hold. -/

namespace Sys2Proof

/-! ### Fields of values (R4, R186) -/

section
variable {n m : Nat}

/-- A field that lies in the first of two parts. -/
@[simp] theorem BitVec'.pos_append_left (x : BitVec n) (y : BitVec m) (a k : Nat) (h : a + k ≤ n) :
    BitVec'.pos (n := no_index (n + m)) (no_index (x ++ y)) a k = BitVec'.pos x a k := by
  unfold BitVec'.pos
  rw [show n + m - a - k = n - a - k + m by omega]
  ext i hi
  rw [BitVec.getElem_extractLsb', BitVec.getElem_extractLsb', BitVec.getLsbD_append, if_neg (by omega)]
  congr 1
  omega

/-- A field that lies in the second of two parts. -/
@[simp] theorem BitVec'.pos_append_right (x : BitVec n) (y : BitVec m) (a k : Nat) (h : n ≤ a) (hk : a + k ≤ n + m) :
    BitVec'.pos (n := no_index (n + m)) (no_index (x ++ y)) a k = BitVec'.pos y (a - n) k := by
  unfold BitVec'.pos
  rw [show n + m - a - k = m - (a - n) - k by omega]
  ext i hi
  rw [BitVec.getElem_extractLsb', BitVec.getElem_extractLsb', BitVec.getLsbD_append, if_pos (by omega)]

@[simp] theorem BitVec'.pos_all (x : BitVec n) : BitVec'.pos x 0 n = x := by
  unfold BitVec'.pos
  rw [Nat.sub_zero, Nat.sub_self]
  exact BitVec.extractLsb'_eq_self

/-- Two fields side by side are one field. -/
@[simp] theorem BitVec'.pos_append_pos (x : BitVec n) (a k b j : Nat) (h : a + k + j ≤ n) (hb : b = a + k) :
    HAppend.hAppend (γ := no_index (BitVec (k + j))) (BitVec'.pos x a k) (BitVec'.pos x b j) = BitVec'.pos x a (k + j) := by
  subst hb
  unfold BitVec'.pos
  rw [BitVec.extractLsb'_append_extractLsb'_eq_extractLsb' (by omega)]
  congr 1
  omega

/-- A field of a number. -/
theorem BitVec'.pos_ofNat (n v a k : Nat) : BitVec'.pos (BitVec.ofNat n v) a k = BitVec.ofNat k (v % 2 ^ n / 2 ^ (n - a - k)) := by
  apply BitVec.eq_of_toNat_eq
  simp [BitVec'.pos, Nat.shiftRight_eq_div_pow]

/-- A field is 0 where both its parts are. -/
theorem BitVec'.pos_eq_zero_iff (x : BitVec n) (a k j : Nat) (h : a + k + j ≤ n) :
    BitVec'.pos x a (k + j) = 0#(k + j) ↔ BitVec'.pos x a k = 0#k ∧ BitVec'.pos x (a + k) j = 0#j := by
  rw [← BitVec'.pos_append_pos x a k (a + k) j h rfl]
  refine ⟨fun h0 => ⟨?_, ?_⟩, fun ⟨hk, hj⟩ => ?_⟩
  · rw [← BitVec.extractLsb'_append_eq_left (a := pos x a k) (b := pos x (a + k) j), h0, BitVec.extractLsb'_zero]
  · rw [← BitVec.extractLsb'_append_eq_right (a := pos x a k) (b := pos x (a + k) j), h0, BitVec.extractLsb'_zero]
  · rw [hk, hj, BitVec.zero_append_zero]

/-- A field that lies across two parts is 0 where it is 0 in both. -/
@[simp] theorem BitVec'.pos_append_eq_zero_iff (x : BitVec n) (y : BitVec m) (a k : Nat) (ha : a ≤ n) (hn : n ≤ a + k)
    (hk : a + k ≤ n + m) : BitVec'.pos (n := no_index (n + m)) (no_index (x ++ y)) a k = 0#k ↔
      BitVec'.pos x a (n - a) = 0#(n - a) ∧ BitVec'.pos y 0 (a + k - n) = 0#(a + k - n) := by
  have h := BitVec'.pos_eq_zero_iff (x ++ y) a (n - a) (a + k - n) (by omega)
  rw [show n - a + (a + k - n) = k by omega] at h
  rw [h, BitVec'.pos_append_left _ _ _ _ (by omega), BitVec'.pos_append_right _ _ _ _ (by omega) (by omega),
    show a + (n - a) - n = 0 by omega]

theorem eq_ofNat_of_toNat_eq {v : Nat} {b : BitVec n} (h : b.toNat = v) : b = BitVec.ofNat n v := by
  rw [← h, BitVec.ofNat_toNat, BitVec.setWidth_eq]

end

/-! ### Fields of a syllable -/

@[simp] theorem fld_all (w : Syll) : fld w 0 14 = w := BitVec'.pos_all w

@[simp] theorem fld_append_fld (w : Syll) (a k b j : Nat) (h : a + k + j ≤ 14) (hb : b = a + k) :
    HAppend.hAppend (γ := no_index (BitVec (k + j))) (fld w a k) (fld w b j) = fld w a (k + j) :=
  BitVec'.pos_append_pos w a k b j h hb

theorem fld_eq_zero {w : Syll} (a k j : Nat) (hk : a + k + j ≤ 14) (h : fld w a (k + j) = 0#(k + j)) :
    fld w a k = 0#k ∧ fld w (a + k) j = 0#j :=
  (BitVec'.pos_eq_zero_iff w a k j hk).1 h

/-! ### Operands and the bits that name them (R195, R203) -/

@[simp] theorem regBits_zero : regBits 0 = 0#5 := rfl
@[simp] theorem kBits_zero : kBits 0 = 0#3 := rfl
@[simp] theorem dBits_zero : dBits 0 = 0#2 := rfl
@[simp] theorem b1_false : b1 false = 0#1 := rfl
@[simp] theorem regOf_zero : regOf 0#5 = 0 := rfl
@[simp] theorem kOf_zero : kOf 0#3 = 0 := rfl
@[simp] theorem dOf_zero : dOf 0#2 = 0 := rfl
@[simp] theorem regOf_regBits (r : Reg) : regOf (regBits r) = r := Fin.ext (Nat.mod_eq_of_lt r.isLt)
@[simp] theorem kOf_kBits (k : KReg) : kOf (kBits k) = k := Fin.ext (Nat.mod_eq_of_lt k.isLt)
@[simp] theorem dOf_dBits (x : DReg) : dOf (dBits x) = x := Fin.ext (Nat.mod_eq_of_lt x.isLt)
@[simp] theorem regBits_regOf (b : BitVec 5) : regBits (regOf b) = b := BitVec.ofNat_toNat 5 b
@[simp] theorem kBits_kOf (b : BitVec 3) : kBits (kOf b) = b := BitVec.ofNat_toNat 3 b
@[simp] theorem dBits_dOf (b : BitVec 2) : dBits (dOf b) = b := BitVec.ofNat_toNat 2 b
@[simp] theorem b1_eq_one_iff (b : Bool) : b1 b = 1#1 ↔ b = true := by cases b <;> decide
@[simp] theorem b1_decide_eq_one (x : BitVec 1) [Decidable (x = 1#1)] : b1 (decide (x = 1#1)) = x := by
  rcases BitVec.eq_zero_or_eq_one x with rfl | rfl <;> simp [b1]

@[simp] theorem Cond.code_mod (cc : Cond) : cc.code % 16 = cc.code := by cases cc <;> rfl
@[simp] theorem condOf_code (cc : Cond) : condOf cc.code = some cc := by cases cc <;> rfl

theorem ofNat_code_of_condOf {b : BitVec 4} {cc : Cond} (h : condOf b.toNat = some cc) : BitVec.ofNat 4 cc.code = b := by
  have hcode : cc.code = b.toNat := by
    unfold condOf at h
    split at h <;> cases h <;> exact Eq.symm ‹_›
  rw [hcode, BitVec.ofNat_toNat, BitVec.setWidth_eq]

/-- The codes that R203 leaves out name no condition. -/
theorem condOf_eq_none {n : Nat} (h : 12 ≤ n) : condOf n = none := by
  obtain ⟨k, rfl⟩ := Nat.exists_eq_add_of_le' h
  rfl

/-! ### Format X, the first syllable (R190) -/

@[simp] theorem fld_synX_first (a : Reg) (m : Nat) : fld (synX a m) 0 1 = 0#1 := by simp [fld, synX, BitVec'.pos_ofNat]
@[simp] theorem fld_synX_format (a : Reg) (m : Nat) : fld (synX a m) 0 4 = 6#4 := by simp [fld, synX]
@[simp] theorem fld_synX_reg (a : Reg) (m : Nat) : fld (synX a m) 4 5 = regBits a := by simp [fld, synX]
@[simp] theorem fld_synX_minor (a : Reg) (m : Nat) : fld (synX a m) 9 5 = BitVec.ofNat 5 m := by simp [fld, synX]

theorem decodeRaw_synX (c : CoreId) (a : Reg) {m : Nat} (h : m < 32) (r : List Syll) :
    decodeRaw c (synX a m :: r) = decodeX c a m r := by
  simp [decodeRaw, Nat.mod_eq_of_lt h]

/-- The register of a first syllable in format X says nothing of the length. -/
theorem baseLength_synX (a : Reg) (m : Nat) : baseLength (synX a m) = baseLength (synX 0 m) := by
  simp [baseLength]

theorem decode_eq_some_iff {c : CoreId} {l : List Syll} {i : Instr} :
    decode c l = some i ↔ decodeRaw c l = some i ∧ i.wellFormed = true := Option.filter_eq_some_iff

end Sys2Proof
end
section
/-! PROOF of O9: the syllables of a core instruction are read back by the decoder (R186 to R194, R226, R227, R267, R288). -/

namespace Sys2Proof

/-- The decoder reads the instruction's own syllables as the instruction, whatever follows them, and finds their number. -/
def RoundTrips (i : Instr) : Prop :=
  ∀ rest, (∃ c, decodeRaw c (encode i ++ rest) = some i) ∧ lengthOf (encode i ++ rest) = (encode i).length

/-! ### Tails (R194) -/

theorem tailOf_sylls (t : Tail) (r : List Syll) : tailOf (t.sylls ++ r) = some t := by
  cases t <;> simp [Tail.sylls, tailOf, fld]

theorem map_tailOf_sylls {α : Type} (f : Tail → α) (t : Tail) (r : List Syll) : (tailOf (t.sylls ++ r)).map f = some (f t) := by
  rw [tailOf_sylls, Option.map_some]

/-- Position 4 of a tail's first syllable is 1 where the tail has a second. -/
theorem Tail.sylls_eq_cons (t : Tail) : ∃ a l, t.sylls = a :: l ∧ l.length = if fld a 4 1 = 1#1 then 1 else 0 := by
  cases t <;> refine ⟨_, _, rfl, ?_⟩ <;> simp [fld]

/-! ### From a layout to the round trip -/

section
variable {i : Instr} {c : CoreId} {a : Reg} {m : Nat} {w : Syll} {body : List Syll} {t : Tail}

/-- An instruction whose first syllable alone gives its length. -/
theorem roundTrips_of (he : encode i = w :: body) (hl : baseLength w = (body.length + 1, none))
    (hd : ∀ r, decodeRaw c (w :: (body ++ r)) = some i) : RoundTrips i := by
  intro r
  rw [he, List.cons_append]
  refine ⟨⟨c, hd r⟩, ?_⟩
  unfold lengthOf
  dsimp only
  rw [hl]
  rfl

/-- An instruction that ends with a tail, whose LONG bit adds a syllable. -/
theorem roundTrips_of_tail (he : encode i = w :: (body ++ t.sylls)) (hl : baseLength w = (body.length + 2, some (body.length + 1)))
    (hd : ∀ r, decodeRaw c (w :: (body ++ (t.sylls ++ r))) = some i) : RoundTrips i := by
  intro r
  rw [he, List.cons_append, List.append_assoc]
  refine ⟨⟨c, hd r⟩, ?_⟩
  obtain ⟨a, l, ht, hlong⟩ := t.sylls_eq_cons
  have hget : (w :: (body ++ (t.sylls ++ r)))[body.length + 1]? = some a := by simp [ht]
  have hlen : (w :: (body ++ t.sylls)).length = body.length + 2 + l.length := by simp [ht]; omega
  unfold lengthOf
  dsimp only
  rw [hl, hlen, hlong]
  dsimp only
  rw [hget]
  dsimp only
  split <;> rfl

theorem roundTrips_X (he : encode i = synX a m :: body) (hm : m < 32) (hl : baseLength (synX 0 m) = (body.length + 1, none))
    (hd : ∀ r, decodeX c a m (body ++ r) = some i) : RoundTrips i :=
  roundTrips_of he ((baseLength_synX a m).trans hl) fun r => (decodeRaw_synX c a hm _).trans (hd r)

theorem roundTrips_X_tail (he : encode i = synX a m :: t.sylls) (hm : m < 32) (hl : baseLength (synX 0 m) = (2, some 1))
    (hd : ∀ r, decodeX c a m (t.sylls ++ r) = some i) : RoundTrips i :=
  roundTrips_of_tail (body := []) he ((baseLength_synX a m).trans hl) fun r => (decodeRaw_synX c a hm _).trans (hd r)

/-- Format Y: `dec` is the decoder for the range of the minor. -/
theorem roundTrips_Y (dec : CoreId → Nat → List Syll → Option Instr) (he : encode i = synY m :: body)
    (hl : baseLength (synY m) = (body.length + 1, none)) (hdec : ∀ r, decodeRaw c (synY m :: r) = dec c m r)
    (hd : ∀ r, dec c m (body ++ r) = some i) : RoundTrips i :=
  roundTrips_of he hl fun r => (hdec _).trans (hd r)

theorem roundTrips_Y_tail (dec : CoreId → Nat → List Syll → Option Instr) (he : encode i = synY m :: w :: t.sylls)
    (hl : baseLength (synY m) = (3, some 2)) (hdec : ∀ r, decodeRaw c (synY m :: r) = dec c m r)
    (hd : ∀ r, dec c m (w :: (t.sylls ++ r)) = some i) : RoundTrips i :=
  roundTrips_of_tail (body := [w]) he hl fun r => (hdec _).trans (hd r)

end

/-! ### Values that lie across syllables (R191) -/

theorem decodeY_callS (c : CoreId) (v : BitVec 28) (r : List Syll) :
    decodeY c 15 (BitVec'.pos v 0 14 :: BitVec'.pos v 14 14 :: r) =
      some (.callS c (BitVec'.pos v 0 18) (regOf (BitVec'.pos v 18 5)) (regOf (BitVec'.pos v 23 5))) := by
  simp [decodeY]

theorem decodeY_call (c : CoreId) (v : BitVec 56) (r : List Syll) :
    decodeY c 14 (BitVec'.pos v 0 14 :: BitVec'.pos v 14 14 :: BitVec'.pos v 28 14 :: BitVec'.pos v 42 14 :: r) =
      guardOpt (BitVec'.pos v 0 6 = 0#6) (.call c (BitVec'.pos v 6 18) (BitVec'.pos v 24 32)) := by
  simp [decodeY]

/-! ### The instructions, by format and layout -/

/-- Every instruction of a core is read back. DCAS alone needs its well-formedness, for its tail carries no LONG bit (R221). -/
theorem roundTrips (i : Instr) (hwf : i.wellFormed = true) (hcore : encode i ≠ []) : RoundTrips i := by
  cases i
  -- format R
  case add c d s | sub c d s | and c d s | or c d s | mov c d s | home c d s =>
    exact roundTrips_of (c := c) rfl (by simp [baseLength, synR, fld, BitVec'.pos_ofNat]) fun _ => by
      simp [decodeRaw, synR, fld, BitVec'.pos_ofNat]
  -- format X
  case ldi c d v | addi c d v | andi c d v | ori c d v | xori c d v | txnNext c d | txnCommit c d | txnAbort c d
      | alarm c d | jr c d =>
    exact roundTrips_X (c := c) rfl (by decide) rfl fun _ => rfl
  case add3 c d s t | sub3 c d s t | and3 c d s t | or3 c d s t | xor3 c d s t | andn c d s t | min c d s t | max c d s t
      | mul c d s t | mulh c d s t | mulhu c d s t | div c d s t | divu c d s t | rem c d s t | remu c d s t
      | neg c d s | not c d s | popc c d s | clz c d s | ext c d s p l | ins c d s p l | cset c cc d s t | cseti c cc d s v
      | ldiL c d v | mfs c d n | mts c d n | mac c a kb i kc j s t | loopr c s lam b | callr c s f l =>
    exact roundTrips_X (c := c) rfl (by decide) rfl fun _ => by simp [decodeX, fld, guardOpt, synW1, synW2]
  case shl c d s t | shrl c d s t | shra c d s t | rotl c d s t =>
    exact roundTrips_X (c := c) rfl (by decide) rfl fun _ => by cases t <;> simp [decodeX, fld, guardOpt, BitVec'.pos_ofNat]
  case cmpb c cc s b v =>
    exact roundTrips_X (c := c) rfl (by decide) rfl fun _ => by cases b <;> simp [decodeX, fld, guardOpt]
  case ldc c d t | ldw c d t | ldp c d t | stc c d t | stw c d t | stp c d t | txnRespond c d t =>
    exact roundTrips_X_tail (c := c) rfl (by decide) rfl fun _ => map_tailOf_sylls _ _ _
  -- format Y
  case nop c | isync c | msync c | fsync c | eret c | pret c | fspill c | ffill c | ret c | loopOff c | alarmOff c | txnWait c
      | fclrt c | tlbInva c =>
    exact roundTrips_of (c := c) rfl rfl fun _ => rfl
  case break_ c v | br c v => exact roundTrips_of (c := c) rfl rfl fun _ => rfl
  case brL c v | loop c n lam b | doorbell c n | codeWr c a s =>
    exact roundTrips_Y (c := c) decodeY rfl rfl (fun _ => rfl) fun _ => by simp [decodeY, fld, guardOpt, synW2]
  case call c t m =>
    exact roundTrips_Y (c := c) decodeY rfl rfl (fun _ => rfl) fun r =>
      (decodeY_call c (0#6 ++ t ++ m) r).trans (by simp [guardOpt])
  case callS c t f l =>
    exact roundTrips_Y (c := c) decodeY rfl rfl (fun _ => rfl) fun r =>
      (decodeY_callS c (t ++ regBits f ++ regBits l) r).trans (by simp)
  case txnClaim c t | txnClaimx c t | capln c t | dataln c t =>
    exact roundTrips_of_tail (c := c) (body := []) rfl rfl fun _ => map_tailOf_sylls _ _ _
  case dcas c x y w t =>
    cases t with
    | offLong k o => cases hwf
    | idxLong k x d => cases hwf
    | off k o => exact roundTrips_Y (c := c) decodeY rfl rfl (fun _ => rfl) fun _ => by simp [decodeY, fld, tailOf_sylls]
    | idx k x => exact roundTrips_Y (c := c) decodeY rfl rfl (fun _ => rfl) fun _ => by simp [decodeY, fld, tailOf_sylls]
  -- format P
  case dpost c x w k o | dacc c x w k o =>
    cases o <;> exact roundTrips_of (c := c) rfl (by simp [baseLength, fld, BitVec'.pos_ofNat]) fun _ => by
      simp [decodeRaw, decodeP, fld, BitVec'.pos_ofNat]
  -- decimal, layouts D and M
  case dadd c x y | dsub c x y | dmov c x y | dmul c x y | dmulw c x y | dneg c x | dabs c x | dclr c x | cvbd c x d | cvbdL c x d
      | cvdb c d x | cvdbL c d x | dcmp c d x y | ddiv c x y z rm | dshl c x n | drnd c x n rm | cvcd c x w k l | cvdc c x w k l =>
    exact roundTrips_Y (c := c) decodeD rfl rfl (fun _ => rfl) fun _ => by simp [decodeD, fld, guardOpt, synD, synW1]
  case dldw c x n t | dstw c x n t | daddm c x n t | dsubm c x n t | dcmpm c d x n t | dmulm c x n t =>
    exact roundTrips_Y_tail (c := c) decodeD rfl rfl (fun _ => rfl) fun _ => by simp [decodeD, fld, synM, tailOf_sylls]
  -- strings, layout S
  case movc c kd d ks s l | fillc c kd d l f | movem c kd d ks s l sk st pd | tr c kd d ks s l kt tm | cmpc c ka a kb b l
      | edit c x kd d kp p l =>
    exact roundTrips_Y (c := c) decodeS rfl rfl (fun _ => rfl) fun _ => by simp [decodeS, fld, guardOpt, synS]
  case scan c d ks s l m =>
    exact roundTrips_Y (c := c) decodeS rfl rfl (fun _ => rfl) fun _ => by
      cases m <;> simp [decodeS, fld, guardOpt, synS, ScanMode.code, ScanMode.ka]
  -- floating point, layout FA
  case fadd c d b l rm | fsub c d b l rm | fmul c d b l rm | fdiv c d b l rm | fsqrt c d b l rm | fcvtsl c d b | fcvtls c d b rm
      | fcvtfi c d b l rm | fcvtif c d b l rm | fneg c d b l | fabs c d b l | fcmp c d a b l | frec c d n =>
    exact roundTrips_Y (c := c) decodeF rfl rfl (fun _ => rfl) fun _ => by simp [decodeF, fld, guardOpt, synFA, synW1]
  -- capabilities, keys and TLB, layouts CR, CW, CM, KM and TW
  case cmov c kd ks | cclr c kd | csetb c kd ks b l | candr c kd ks m | csetk c kd ks k | cget c d ks | tlbInv c s | tlbLock c s
      | tlbUnlk c s | tlbRd c d s =>
    exact roundTrips_Y (c := c) decodeC rfl rfl (fun _ => rfl) fun _ => by simp [decodeC, fld, guardOpt, synCR, synW2, noCap]
  case cld c kd t | cst c ks t | setkey c s t | getkey c d t =>
    exact roundTrips_Y_tail (c := c) decodeC rfl rfl (fun _ => rfl) fun _ => by simp [decodeC, fld, synCM, synW1, tailOf_sylls]
  -- the other commands of the package have no syllables
  all_goals exact absurd rfl hcore

/-- Settles O9: each instruction of a core is read back (`roundTrips`), and its well-formedness is the decoder's last check. -/
theorem Machine.encodingRoundTrip : Obligations.EncodingRoundTrip := by
  intro i rest hwf hcore
  obtain ⟨⟨c, hraw⟩, hlen⟩ := roundTrips i hwf hcore rest
  exact ⟨⟨c, decode_eq_some_iff.2 ⟨hraw, hwf⟩⟩, hlen⟩

end Sys2Proof
end
section
/-! PROOF of O10: what the decoder reads is the encoding of what it reads it as (R186 to R188, R194). -/

namespace Sys2Proof

/-- The instruction is one of a core's, and the list starts with its syllables. -/
def Spells (l : List Syll) (i : Instr) : Prop := encode i ≠ [] ∧ encode i <+: l

/-! ### Operand syllables put together from their fields -/

section
variable {w : Syll}

theorem synR_of_fields (h : fld w 0 1 = 0#1) : synR (fld w 1 3).toNat (regOf (fld w 4 5)) (regOf (fld w 9 5)) = w := by
  simp [synR, ← h]

theorem synX_of_fields (h : fld w 0 4 = 6#4) : synX (regOf (fld w 4 5)) (fld w 9 5).toNat = w := by
  simp [synX, ← h]

theorem synY_of_fields (h : fld w 0 4 = 7#4) : synY (fld w 4 10).toNat = w := by
  simp [synY, ← h]

theorem synW2_of_fields (h : fld w 10 4 = 0#4) : synW2 (regOf (fld w 0 5)) (regOf (fld w 5 5)) = w := by
  simp [synW2, ← h]

theorem synCR_of_fields (h : fld w 10 4 = 0#4) : synCR ⟨fld w 4 1 = 1#1, fld w 0 4⟩ ⟨fld w 9 1 = 1#1, fld w 5 4⟩ = w := by
  simp [synCR, ← h]

theorem synD_of_fields (w : Syll) :
    synD (dOf (fld w 0 2)) (dOf (fld w 2 2)) (dOf (fld w 4 2)) (regOf (fld w 6 5)) (fld w 11 3) = w := by
  simp [synD]

theorem synD_xy_of_fields (h : fld w 4 10 = 0#10) : synD (dOf (fld w 0 2)) (dOf (fld w 2 2)) 0 0 0 = w := by
  obtain ⟨hz, h⟩ := fld_eq_zero 4 2 8 (by decide) h
  obtain ⟨hg, hr⟩ := fld_eq_zero 6 5 3 (by decide) h
  have hw := synD_of_fields w
  rwa [hz, hg, hr] at hw

theorem synD_x_of_fields (h : fld w 2 12 = 0#12) : synD (dOf (fld w 0 2)) 0 0 0 0 = w := by
  obtain ⟨hy, h⟩ := fld_eq_zero 2 2 10 (by decide) h
  have hw := synD_xy_of_fields h
  rwa [hy] at hw

theorem synD_xg_of_fields (h : fld w 2 4 = 0#4 ∧ fld w 11 3 = 0#3) : synD (dOf (fld w 0 2)) 0 0 (regOf (fld w 6 5)) 0 = w := by
  obtain ⟨h, hr⟩ := h
  obtain ⟨hy, hz⟩ := fld_eq_zero 2 2 2 (by decide) h
  have hw := synD_of_fields w
  rwa [hy, hz, hr] at hw

theorem synM_of_fields (h : fld w 5 9 = 0#9) : synM (dOf (fld w 0 2)) (fld w 2 3) 0 = w := by
  obtain ⟨hg, h0⟩ := fld_eq_zero 5 5 4 (by decide) h
  simp [synM, ← hg, ← h0]

theorem synS_of_fields (w v : Syll) : synS (kOf (fld w 0 3)) (regOf (fld w 3 5)) (kOf (fld w 8 3)) (fld w 11 3)
    (regOf (fld v 0 5)) (regOf (fld v 5 5)) (fld v 10 4) = [w, v] := by
  simp [synS]

/-- Two registers of which the second is not used are one register and a reserved field. -/
theorem synW2_zero (a : Reg) : synW2 a 0 = synW1 a := by
  revert a
  decide

theorem synCR_noCap (k : CapNum) : synCR k noCap = synCM k := by
  obtain ⟨x, n⟩ := k
  revert x n
  decide

theorem synCR_of_noCap (k : CapNum) : synCR noCap k = (0#5 ++ k.n ++ b1 k.x ++ 0#4 : BitVec 14) := rfl

theorem tailOffset_of_fields (w : Syll) : (kBits (kOf (fld w 0 3)) ++ fld w 3 1 ++ fld w 4 1 ++ fld w 5 9 : BitVec 14) = w := by
  simp

theorem tailIndex_of_fields (w : Syll) :
    (kBits (kOf (fld w 0 3)) ++ fld w 3 1 ++ fld w 4 1 ++ regBits (regOf (fld w 5 5)) ++ fld w 10 4 : BitVec 14) = w := by
  simp

/-! ### The shift group (R201) -/

/-- The shift amount that a syllable names. -/
def shiftAmount (w : Syll) : Option ShAmt :=
  if fld w 2 1 = 1#1 then some (.imm (fld w 3 6)) else guardOpt (fld w 8 1 = 0#1) (.reg (regOf (fld w 3 5)))

/-- The syllable of an operation, a shift amount and a source. -/
def synShift (op : BitVec 2) (t : ShAmt) (s : Reg) : Syll :=
  match t with
  | .imm n => (op ++ 1#1 ++ n ++ regBits s : BitVec 14)
  | .reg t => (op ++ 0#1 ++ regBits t ++ 0#1 ++ regBits s : BitVec 14)

theorem shiftImm_of_fields (w : Syll) : (fld w 0 2 ++ fld w 2 1 ++ fld w 3 6 ++ regBits (regOf (fld w 9 5)) : BitVec 14) = w := by
  simp

theorem shiftReg_of_fields (w : Syll) :
    (fld w 0 2 ++ fld w 2 1 ++ regBits (regOf (fld w 3 5)) ++ fld w 8 1 ++ regBits (regOf (fld w 9 5)) : BitVec 14) = w := by
  simp

theorem synShift_of_fields {t : ShAmt} (h : shiftAmount w = some t) : synShift (fld w 0 2) t (regOf (fld w 9 5)) = w := by
  have himm := shiftImm_of_fields w
  have hreg := shiftReg_of_fields w
  unfold shiftAmount guardOpt at h
  split at h
  case isTrue h1 =>
    cases h
    rwa [h1] at himm
  case isFalse h1 =>
    split at h
    case isTrue h0 =>
      cases h
      rwa [(BitVec.eq_zero_or_eq_one _).resolve_right h1, of_decide_eq_true h0] at hreg
    case isFalse => cases h

end

/-! ### Values that lie across syllables (R191) -/

theorem callS_of_fields (v : BitVec 28) :
    (BitVec'.pos v 0 18 ++ regBits (regOf (BitVec'.pos v 18 5)) ++ regBits (regOf (BitVec'.pos v 23 5)) : BitVec 28) = v := by
  simp

theorem call_of_fields {v : BitVec 56} (h : BitVec'.pos v 0 6 = 0#6) :
    (0#6 ++ BitVec'.pos v 6 18 ++ BitVec'.pos v 24 32 : BitVec 56) = v := by
  simp [← h]

theorem pos_fld_append {k m : Nat} (w : Syll) (a : Nat) (b : BitVec m) : BitVec'.pos (fld w a k ++ b) 0 k = fld w a k := by
  simp

/-! ### From a layout to what it spells -/

section
variable {i : Instr} {u v w : Syll} {body l r : List Syll}

theorem singleton_isPrefix (h : u = w) : [u] <+: w :: r := ⟨r, by rw [h]; rfl⟩

theorem spells_none (l : List Syll) : ∀ j ∈ (none : Option Instr), Spells l j := fun _ h => nomatch h

theorem spells_some_of_isPrefix (he : encode i = w :: body) (hb : w :: body <+: l) : ∀ j ∈ some i, Spells l j := by
  intro j hj
  cases hj
  exact ⟨he ▸ List.cons_ne_nil w body, he ▸ hb⟩

theorem spells_some (he : encode i = w :: body) (hb : body <+: r) : ∀ j ∈ some i, Spells (w :: r) j :=
  spells_some_of_isPrefix he (List.cons_prefix_cons.2 ⟨rfl, hb⟩)

theorem spells_guard {p : Prop} [Decidable p] (he : encode i = w :: body) (hb : p → body <+: r) :
    ∀ j ∈ guardOpt (decide p) i, Spells (w :: r) j := by
  unfold guardOpt
  split
  case isTrue h => exact spells_some he (hb (of_decide_eq_true h))
  case isFalse => exact spells_none _

theorem spells_condOf {b : BitVec 4} {f : Cond → Instr}
    (h : ∀ cc, BitVec.ofNat 4 cc.code = b → ∀ j ∈ some (f cc), Spells l j) :
    ∀ j ∈ (condOf b.toNat).map f, Spells l j := by
  intro j hj
  obtain ⟨cc, hcc, rfl⟩ := Option.map_eq_some_iff.1 hj
  exact h cc (ofNat_code_of_condOf hcc) _ rfl

/-- The tail that is read is the one whose syllables stand there (R194). -/
theorem sylls_isPrefix_of_tailOf {t : Tail} (h : tailOf l = some t) : t.sylls <+: l := by
  cases l with
  | nil => cases h
  | cons a r =>
    have hoff := tailOffset_of_fields a
    have hidx := tailIndex_of_fields a
    simp only [tailOf] at h
    split at h
    case isTrue h3 =>
      rw [h3] at hoff
      split at h
      case isTrue h4 =>
        cases h
        rw [h4] at hoff
        exact singleton_isPrefix hoff
      case isFalse h4 =>
        rw [(BitVec.eq_zero_or_eq_one _).resolve_left h4] at hoff
        cases r with
        | nil => cases h
        | cons b r =>
          cases h
          exact List.cons_prefix_cons.2 ⟨by rwa [pos_fld_append], singleton_isPrefix (by simp)⟩
    case isFalse h3 =>
      rw [(BitVec.eq_zero_or_eq_one _).resolve_left h3] at hidx
      split at h
      case isTrue => cases h
      case isFalse h0 =>
        rw [not_not.1 h0] at hidx
        split at h
        case isTrue h4 =>
          cases h
          rw [h4] at hidx
          exact singleton_isPrefix hidx
        case isFalse h4 =>
          rw [(BitVec.eq_zero_or_eq_one _).resolve_left h4] at hidx
          cases r with
          | nil => cases h
          | cons b r =>
            cases h
            exact List.cons_prefix_cons.2 ⟨hidx, singleton_isPrefix rfl⟩

/-- An instruction that ends with a tail. -/
theorem spells_tail {f : Tail → Instr} (pre : List Syll) (he : ∀ t, encode (f t) = w :: (pre ++ t.sylls)) :
    ∀ j ∈ (tailOf r).map f, Spells (w :: (pre ++ r)) j := by
  intro j hj
  obtain ⟨t, ht, rfl⟩ := Option.map_eq_some_iff.1 hj
  exact spells_some (he t) ((List.prefix_append_right_inj pre).2 (sylls_isPrefix_of_tailOf ht)) _ rfl

/-- An operand syllable with a reserved field, then a tail. -/
theorem spells_guard_tail {n : Nat} {x y : BitVec n} [Decidable (x ≠ y)] {f : Tail → Instr}
    (he : ∀ t, encode (f t) = w :: u :: t.sylls) (hu : x = y → u = v) :
    ∀ j ∈ (if x ≠ y then none else (tailOf r).map f), Spells (w :: v :: r) j := by
  split
  case isTrue => exact spells_none _
  case isFalse h =>
    cases hu (not_not.1 h)
    exact spells_tail [u] he

end

/-! ### The decoders, format by format

The cases of each proof are the decoder's arms in their order; those of one layout are proved together. -/

theorem decodeX_spells (c : CoreId) (a : Reg) (m : Nat) (r : List Syll) : ∀ i ∈ decodeX c a m r, Spells (synX a m :: r) i := by
  unfold decodeX
  split
  -- 14-bit immediates; LDI.L
  case h_1 | h_2 | h_3 | h_4 | h_5 => exact spells_some rfl ⟨_, rfl⟩
  case h_6 => exact spells_guard rfl fun h => by simp [← h]
  -- the three-register group
  case h_7 =>
    split
    case h_16 => exact spells_none _
    all_goals
      rename_i h
      exact spells_some rfl (by simp [← eq_ofNat_of_toNat_eq h])
  -- the one-operand group
  case h_8 =>
    split
    case isTrue => exact spells_none _
    case isFalse h0 =>
      split
      case h_5 => exact spells_none _
      all_goals
        rename_i h
        exact spells_some rfl (by simp [← eq_ofNat_of_toNat_eq h, ← not_not.1 h0])
  -- shifts
  case h_9 w t =>
    dsimp only
    split
    case h_1 => exact spells_none _
    case h_2 n hn =>
      have hw := synShift_of_fields hn
      split
      case h_1 h | h_2 h | h_3 h =>
        rw [eq_ofNat_of_toNat_eq h] at hw
        exact spells_some rfl (singleton_isPrefix hw)
      case h_4 _ h0 h1 h2 =>
        have hlt : (fld w 0 2).toNat < 4 := (fld w 0 2).isLt
        have hop : (fld w 0 2).toNat = 3 := by grind
        rw [eq_ofNat_of_toNat_eq hop] at hw
        exact spells_some rfl (singleton_isPrefix hw)
  -- EXT and INS
  case h_10 | h_11 => exact spells_guard rfl fun ⟨h1, h2⟩ => by simp [synW1, ← h1, ← h2]
  -- CSET, CSETI, CMPB
  case h_12 => exact spells_condOf fun cc hcc => spells_some rfl (by simp [hcc])
  case h_13 =>
    split
    case isTrue => exact spells_none _
    case isFalse h => exact spells_condOf fun cc hcc => spells_some rfl (by simp [hcc, ← not_not.1 h])
  case h_14 =>
    split
    case h_1 => exact spells_none _
    case h_2 cc hcc =>
      have hcc := ofNat_code_of_condOf hcc
      split
      case isTrue h => exact spells_some rfl (by simp [hcc, ← h])
      case isFalse h => exact spells_guard rfl fun h1 => by simp [hcc, ← (BitVec.eq_zero_or_eq_one _).resolve_right h, ← h1]
  -- MFS and MTS
  case h_15 | h_16 => exact spells_guard rfl fun h => by simp [← h]
  -- loads, stores and TXN.RESPOND, with a tail
  case h_17 | h_18 | h_19 | h_20 | h_21 | h_22 | h_27 => exact spells_tail [] fun _ => rfl
  -- MAC and LOOPR
  case h_23 | h_29 => exact spells_some rfl (by simp)
  -- one syllable; CALLR; no instruction
  case h_24 | h_25 | h_26 | h_28 | h_30 => exact spells_some rfl List.nil_prefix
  case h_31 => exact spells_guard rfl fun h => singleton_isPrefix (synW2_of_fields h)
  case h_32 => exact spells_none _

theorem decodeY_spells (c : CoreId) (m : Nat) (r : List Syll) : ∀ i ∈ decodeY c m r, Spells (synY m :: r) i := by
  unfold decodeY
  split
  -- one syllable; BREAK and BR
  case h_1 | h_2 | h_3 | h_4 | h_5 | h_6 | h_7 | h_8 | h_9 | h_10 | h_11 | h_20 => exact spells_some rfl List.nil_prefix
  case h_12 | h_13 => exact spells_some rfl ⟨_, rfl⟩
  -- BR.L and DOORBELL
  case h_14 | h_18 => exact spells_guard rfl fun h => by simp [← h]
  -- CALL, CALL.S, LOOP, CODE.WR
  case h_15 => exact spells_guard rfl fun h => by rw [call_of_fields h]; simp
  case h_16 => exact spells_some rfl (by rw [callS_of_fields]; simp)
  case h_17 => exact spells_some rfl (by simp)
  case h_19 => exact spells_guard rfl fun h => singleton_isPrefix (synW2_of_fields h)
  -- TXN.CLAIM, TXN.CLAIMX, DCAS
  case h_21 | h_22 => exact spells_tail [] fun _ => rfl
  case h_23 => exact spells_guard_tail (fun _ => rfl) fun h => by simp [← h]
  case h_24 => exact spells_none _

theorem decodeP_spells (c : CoreId) (w : Syll) (r : List Syll) (hw : fld w 0 1 = 1#1) :
    ∀ i ∈ decodeP c w r, Spells (w :: r) i := by
  unfold decodeP
  dsimp only
  split
  case h_5 => exact spells_none _
  all_goals
    rename_i h
    exact spells_some_of_isPrefix rfl (by simp [← hw, ← eq_ofNat_of_toNat_eq h])

theorem decodeD_spells (c : CoreId) (m : Nat) (r : List Syll) : ∀ i ∈ decodeD c m r, Spells (synY m :: r) i := by
  unfold decodeD
  split
  case h_1 => exact spells_none _
  case h_2 w t =>
    dsimp only
    split
    -- layout D with X and Y, with W, with X alone, with X and W
    case h_1 | h_2 | h_4 | h_10 | h_11 => exact spells_guard rfl fun h => singleton_isPrefix (synD_xy_of_fields h)
    case h_3 => exact spells_guard rfl fun ⟨h, hr⟩ => by simp [synD, ← h, ← hr]
    case h_5 | h_6 | h_7 => exact spells_guard rfl fun h => singleton_isPrefix (synD_x_of_fields h)
    case h_13 | h_14 | h_15 | h_16 => exact spells_guard rfl fun h => singleton_isPrefix (synD_xg_of_fields h)
    -- DSHL, DRND, DDIV
    case h_8 | h_9 => exact spells_guard rfl fun h => by simp [← h]
    case h_12 => exact spells_guard rfl fun h => by simp [synD, ← h]
    -- layout M
    case h_17 | h_18 | h_19 | h_20 | h_22 => exact spells_guard_tail (fun _ => rfl) synM_of_fields
    case h_21 => exact spells_guard_tail (fun _ => rfl) fun h => by simp [synM, ← h]
    -- CVCD and CVDC
    case h_23 | h_24 =>
      split
      case h_1 => exact spells_guard rfl fun ⟨h, h1⟩ => by simp [synW1, ← h, ← h1]
      case h_2 => exact spells_none _
    case h_25 => exact spells_none _

theorem decodeS_spells (c : CoreId) (m : Nat) (r : List Syll) : ∀ i ∈ decodeS c m r, Spells (synY m :: r) i := by
  unfold decodeS
  split
  case h_2 => exact spells_none _
  case h_1 w v t =>
    have hs : synS (kOf (fld w 0 3)) (regOf (fld w 3 5)) (kOf (fld w 8 3)) (fld w 11 3) (regOf (fld v 0 5)) (regOf (fld v 5 5))
        (fld v 10 4) <+: w :: v :: t := ⟨t, by rw [synS_of_fields]; rfl⟩
    dsimp only
    split
    -- MOVC and CMPC; FILLC
    case h_1 | h_6 => exact spells_guard rfl fun ⟨hf, hg⟩ => by rwa [hf, hg] at hs
    case h_2 => exact spells_guard rfl fun ⟨hf, hg, hk⟩ => by rwa [hf, hg, hk] at hs
    -- MOVEM, TR, EDIT
    case h_3 => exact spells_guard rfl fun hg => by simp [synS, ← hg]
    case h_4 => exact spells_guard rfl fun ⟨hf, hg⟩ => by simp [synS, ← hf, ← hg]
    case h_7 => exact spells_guard rfl fun ⟨hf, hg⟩ => by simp [synS, ← hf, ← hg]
    -- SCAN, a mode at a time
    case h_5 =>
      split
      case isTrue => exact spells_none _
      case isFalse hg =>
        rw [not_not.1 hg] at hs
        split
        case h_1 h | h_2 h | h_3 h =>
          rw [eq_ofNat_of_toNat_eq h] at hs
          exact spells_guard rfl fun hk => by rwa [hk] at hs
        case h_4 h | h_5 h =>
          rw [eq_ofNat_of_toNat_eq h] at hs
          exact spells_some rfl hs
        case h_6 => exact spells_none _
    case h_8 => exact spells_none _

theorem decodeF_spells (c : CoreId) (m : Nat) (r : List Syll) : ∀ i ∈ decodeF c m r, Spells (synY m :: r) i := by
  unfold decodeF
  split
  case h_1 => exact spells_some rfl List.nil_prefix
  case h_2 => exact spells_none _
  case h_3 w t _ =>
    dsimp only
    split
    -- layout FA, whole, then with fields that are not used
    case h_1 | h_2 | h_3 | h_4 | h_5 | h_8 | h_9 => exact spells_some rfl (by simp [synFA])
    case h_6 =>
      refine spells_guard rfl fun h => ?_
      obtain ⟨hl, hr⟩ := fld_eq_zero 10 1 3 (by decide) h
      simp [synFA, ← hl, ← hr]
    case h_7 | h_10 | h_11 => exact spells_guard rfl fun h => by simp [synFA, ← h]
    -- FCMP, FREC
    case h_12 =>
      split
      case h_1 => exact spells_guard rfl fun ⟨h, h1⟩ => by simp [synFA, synW1, ← h, ← h1]
      case h_2 => exact spells_none _
    case h_13 => exact spells_guard rfl fun h => by simp [← h]
    case h_14 => exact spells_none _

theorem decodeC_spells (c : CoreId) (m : Nat) (r : List Syll) : ∀ i ∈ decodeC c m r, Spells (synY m :: r) i := by
  unfold decodeC
  split
  -- TLB.INVA; CAPLN and DATALN
  case h_1 => exact spells_some rfl List.nil_prefix
  case h_2 | h_3 => exact spells_tail [] fun _ => rfl
  case h_4 => exact spells_none _
  case h_5 w t _ _ _ =>
    dsimp only
    split
    -- layouts CR and CW
    case h_1 => exact spells_guard rfl fun h => singleton_isPrefix (synCR_of_fields h)
    case h_2 => exact spells_guard rfl fun h => by simp [synCR_noCap, synCM, ← h]
    case h_3 =>
      split
      case h_1 =>
        exact spells_guard rfl fun ⟨h, h1⟩ =>
          List.cons_prefix_cons.2 ⟨synCR_of_fields h, singleton_isPrefix (synW2_of_fields h1)⟩
      case h_2 => exact spells_none _
    case h_4 | h_5 =>
      split
      case h_1 =>
        exact spells_guard rfl fun ⟨h, h1⟩ =>
          List.cons_prefix_cons.2 ⟨synCR_of_fields h, by simp [synW2_zero, synW1, ← h1]⟩
      case h_2 => exact spells_none _
    case h_6 =>
      split
      case h_1 =>
        exact spells_guard rfl fun ⟨h0, h, h1⟩ =>
          List.cons_prefix_cons.2 ⟨by simp [synCR_of_noCap, ← h0, ← h], by simp [synW2_zero, synW1, ← h1]⟩
      case h_2 => exact spells_none _
    -- layouts CM and KM, with a tail
    case h_7 | h_8 => exact spells_guard_tail (fun _ => rfl) fun h => by simp [synCM, ← h]
    case h_9 | h_10 => exact spells_guard_tail (fun _ => rfl) fun h => by simp [synW1, ← h]
    -- layout TW
    case h_11 | h_12 | h_13 => exact spells_guard rfl fun h => by simp [synW2_zero, synW1, ← h]
    case h_14 => exact spells_guard rfl fun h => singleton_isPrefix (synW2_of_fields h)
    case h_15 => exact spells_none _

/-- Format Y has a decoder for each range of minors (R191). -/
theorem decodersY_spells (c : CoreId) (m : Nat) (r : List Syll) :
    ∀ i ∈ (if m < 64 then decodeY c m r else if m < 128 then decodeD c m r else if m < 384 then decodeS c m r
      else if m < 512 then decodeF c m r else decodeC c m r), Spells (synY m :: r) i := by
  split_ifs
  exacts [decodeY_spells c m r, decodeD_spells c m r, decodeS_spells c m r, decodeF_spells c m r, decodeC_spells c m r]

/-- Format R has six operations, for with position 0 clear two of the eight values of positions 1:3 name formats X and Y (R187). -/
theorem operationR_lt {w : Syll} (h1 : fld w 0 1 = 0#1) (h6 : fld w 0 4 ≠ 6#4) (h7 : fld w 0 4 ≠ 7#4) : (fld w 1 3).toNat < 6 := by
  have h : 0#1 ++ fld w 1 3 = fld w 0 4 := by simp [← h1]
  rw [← h] at h6 h7
  generalize fld w 1 3 = b at h6 h7 ⊢
  revert b
  decide

theorem decodeRaw_spells (c : CoreId) (l : List Syll) : ∀ i ∈ decodeRaw c l, Spells l i := by
  unfold decodeRaw
  split
  case h_1 => exact spells_none _
  case h_2 w r =>
    split
    case isTrue h => exact decodeP_spells c w r h
    case isFalse h1 =>
      have h1 := (BitVec.eq_zero_or_eq_one _).resolve_right h1
      split
      case isTrue h =>
        have hx := decodeX_spells c (regOf (fld w 4 5)) (fld w 9 5).toNat r
        rwa [synX_of_fields h] at hx
      case isFalse h6 =>
        split
        case isTrue h =>
          have hy := decodersY_spells c (fld w 4 10).toNat r
          rwa [synY_of_fields h] at hy
        case isFalse h7 =>
          have hw := synR_of_fields h1
          dsimp only
          split
          case h_1 h | h_2 h | h_3 h | h_4 h | h_5 h =>
            rw [h] at hw
            exact spells_some_of_isPrefix rfl (singleton_isPrefix hw)
          case h_6 _ n0 n1 n2 n3 n4 =>
            have hlt := operationR_lt h1 h6 h7
            have hop : (fld w 1 3).toNat = 5 := by grind
            rw [hop] at hw
            exact spells_some_of_isPrefix rfl (singleton_isPrefix hw)

/-- Settles O10: what the decoder reads starts with the instruction's syllables (`decodeRaw_spells`), and `roundTrips` gives their
number. -/
theorem Machine.decodedInstructionsReencode : Obligations.DecodedInstructionsReencode := by
  intro c l i h
  obtain ⟨hraw, hwf⟩ := decode_eq_some_iff.1 h
  obtain ⟨hcore, rest, rfl⟩ := decodeRaw_spells c l i hraw
  have hlen : lengthOf (encode i ++ rest) = (encode i).length := (roundTrips i hwf hcore rest).2
  exact ⟨hwf, by rw [hlen, List.take_left], hlen.symm⟩

end Sys2Proof
end
section
/-! PROOF of O11, O13, O14, O15 and O16: sample words, and the instructions that compute one word from words (R193, R197 to R204). -/

namespace Sys2Proof.Machine

/-- Settles O11: the decoder is evaluated on each word. -/
theorem decodeSampleWords : Obligations.DecodeSampleWords := by
  refine ⟨?_, ?_, ?_, ?_, ?_, ?_, ?_, ?_⟩ <;> decide

/-- Settles O13: extending the sign of an immediate keeps the integer that it spells, by the definition of `BitVec.signExtend`. -/
theorem immediateResults : Obligations.ImmediateResults := by
  intro s c d imm w
  exact ⟨yields_of rfl rfl, yields_of rfl rfl, yields_of rfl rfl, yields_of rfl rfl, yields_of rfl rfl, yields_of rfl rfl⟩

/-! ### The three-register group (R198) -/

/-- A choice by the signed order of two words is one by the order of the integers that they spell. -/
theorem ite_slt {α : Type} (a b : Word) (x y : α) : (if a.slt b then x else y) = if b.toInt ≤ a.toInt then y else x := by
  simp only [BitVec.slt_iff_toInt_lt, ← not_le, ite_not]

/-- Settles O14: sums and differences are modulo 2^36, and MIN and MAX choose by the signed order. -/
theorem threeRegisterResults : Obligations.ThreeRegisterResults := by
  intro s c d a b
  refine ⟨yields_of rfl ?add, yields_of rfl ?sub, yields_of rfl rfl, yields_of rfl rfl, yields_of rfl rfl, yields_of rfl rfl,
    yields_of rfl ?min, yields_of rfl ?max⟩
  case add => rw [add_eq_ofNat_toNat_add]
  case sub => rw [sub_eq_ofInt_toInt_sub]
  case min => rw [ite_slt]
  case max => rw [ite_slt]

/-! ### The one-operand group (R200) -/

theorem neg_eq_ofInt_neg_toInt (a : Word) : -a = BitVec.ofInt 36 (-a.toInt) :=
  BitVec.eq_of_toInt_eq (by rw [BitVec.toInt_neg, BitVec.toInt_ofInt])

theorem onesOf_eq_countP (w : Word) : onesOf w = (List.finRange 36).countP fun j => w.getLsbD j := by
  rw [onesOf, ← List.countP_eq_length_filter, ← List.map_coe_finRange_eq_range, List.countP_map]
  rfl

/-- A position of a word by its place from the least significant end (R4). -/
theorem at'_eq_getLsbD (w : Word) {i : Nat} (hi : i < 36) : BitVec'.at' w (35 - i) = w.getLsbD i := by
  rw [BitVec'.at', show 36 - 1 - (35 - i) = i by omega]

/-- The first one stands at position k where the number has 36 - k bits. -/
theorem leadingZeros_eq (w : Word) : leadingZeros w = 36 - Nat.size w.toNat := by
  unfold leadingZeros
  cases h : (List.range 36).find? (BitVec'.at' w) with
  | none =>
    have hzero : w = 0 := BitVec.eq_of_getLsbD_eq fun i hi => by
      have hbit := List.find?_range_eq_none.1 h (35 - i) (by omega)
      rw [at'_eq_getLsbD w hi, Bool.not_eq_true'] at hbit
      rw [hbit, BitVec.ofNat_eq_ofNat, BitVec.getLsbD_zero]
    rw [hzero]
    rfl
  | some k =>
    obtain ⟨hone, hrange, hzero⟩ := List.find?_range_eq_some.1 h
    have hk := List.mem_range.1 hrange
    have hle : w.toNat.size ≤ 36 - k := Nat.size_le.2 <| Nat.lt_pow_two_of_testBit _ fun i hi => by
      by_cases hi36 : i < 36
      · have hbit := hzero (35 - i) (by omega)
        rwa [at'_eq_getLsbD w hi36, Bool.not_eq_true'] at hbit
      · exact BitVec.getLsbD_of_ge w i (by omega)
    have hge : 36 - 1 - k < w.toNat.size := Nat.lt_size.2 (Nat.ge_two_pow_of_testBit hone)
    rw [Option.getD_some]
    omega

/-! ### Shifts (R201): an amount of 36 or more leaves nothing, or the sign -/

theorem shiftLeft_min_eq (a : Word) (n : Nat) : a <<< min n 36 = BitVec.ofNat 36 (a.toNat * 2 ^ n) := by
  apply BitVec.eq_of_toNat_eq
  rw [BitVec.toNat_shiftLeft, BitVec.toNat_ofNat, Nat.shiftLeft_eq]
  rcases Nat.le_total n 36 with h | h
  · rw [Nat.min_eq_left h]
  · rw [Nat.min_eq_right h, Nat.mul_mod_left, Nat.mod_eq_zero_of_dvd]
    exact (Nat.pow_dvd_pow 2 h).mul_left a.toNat

theorem ushiftRight_min_eq (a : Word) (n : Nat) : a >>> min n 36 = BitVec.ofNat 36 (a.toNat / 2 ^ n) := by
  have ha := a.isLt
  apply BitVec.eq_of_toNat_eq
  rw [BitVec.toNat_ushiftRight, BitVec.toNat_ofNat, Nat.shiftRight_eq_div_pow,
    Nat.mod_eq_of_lt (lt_of_le_of_lt (Nat.div_le_self _ _) ha)]
  rcases Nat.le_total n 36 with h | h
  · rw [Nat.min_eq_left h]
  · rw [Nat.min_eq_right h, Nat.div_eq_of_lt ha, Nat.div_eq_of_lt (ha.trans_le (Nat.pow_le_pow_right (by decide) h))]

theorem toInt_ediv_two_pow (a : Word) {n : Nat} (h : 36 ≤ n) : a.toInt / 2 ^ n = if a.toInt < 0 then -1 else 0 := by
  have hlo : -2 ^ 35 ≤ a.toInt := BitVec.le_toInt a
  have hhi : a.toInt < 2 ^ 35 := BitVec.toInt_lt
  have hn : (2 : Int) ^ 36 ≤ 2 ^ n := pow_le_pow_right₀ (by decide) h
  split
  next hneg =>
    exact ((Int.ediv_emod_unique (by omega)).2
      ⟨show a.toInt + 2 ^ n + 2 ^ n * (-1) = a.toInt by omega, by omega, by omega⟩).1
  next hneg => exact Int.ediv_eq_zero_of_lt (by omega) (by omega)

theorem sshiftRight_min_eq (a : Word) (n : Nat) : a.sshiftRight (min n 36) = BitVec.ofInt 36 (a.toInt / 2 ^ n) := by
  have hmin : a.toInt / 2 ^ min n 36 = a.toInt / 2 ^ n := by
    rcases Nat.le_total n 36 with h | h
    · rw [Nat.min_eq_left h]
    · rw [Nat.min_eq_right h, toInt_ediv_two_pow a (Nat.le_refl 36), toInt_ediv_two_pow a h]
  calc a.sshiftRight (min n 36)
    _ = BitVec.ofInt 36 (a.sshiftRight (min n 36)).toInt := BitVec.ofInt_toInt.symm
    _ = BitVec.ofInt 36 (a.toInt / 2 ^ min n 36) := by
      rw [BitVec.toInt_sshiftRight, Int.shiftRight_eq_div_pow]
      norm_cast
    _ = BitVec.ofInt 36 (a.toInt / 2 ^ n) := by rw [hmin]

/-! ### Fields (R202) -/

section
variable (w : Word) (p n v : Nat) (h : p + n ≤ 36)
include h

/-- Below the field and above it stand the word's own bits. -/
theorem getLsbD_setPos {i : Nat} (hi : i < 36) : (BitVec'.setPos w p n v).getLsbD i =
    if i < 36 - p - n then w.getLsbD i else if i < 36 - p then v.testBit (i - (36 - p - n)) else w.getLsbD i := by
  simp only [BitVec'.setPos, BitVec.getLsbD_or, BitVec.getLsbD_and, BitVec.getLsbD_not, BitVec.getLsbD_ofNat, Nat.testBit_shiftLeft,
    Nat.testBit_two_pow_sub_one, Nat.testBit_mod_two_pow, hi, decide_true, Bool.true_and]
  by_cases hlow : i < 36 - p - n
  · simp [hlow, show ¬ 36 ≤ i + n + p by omega]
  · by_cases hmid : i < 36 - p
    · simp [hlow, hmid, show i - (36 - p - n) < n by omega, Nat.not_lt.1 hlow]
    · simp [hlow, hmid, show ¬ i - (36 - p - n) < n by omega]

/-- The field and what lies below it fit under what lies above it. -/
theorem field_lt (low : Nat) (hlow : low < 2 ^ (36 - p - n)) : 2 ^ (36 - p - n) * (v % 2 ^ n) + low < 2 ^ (36 - p) := by
  have hv : v % 2 ^ n < 2 ^ n := Nat.mod_lt _ (by positivity)
  calc 2 ^ (36 - p - n) * (v % 2 ^ n) + low
    _ < 2 ^ (36 - p - n) * (v % 2 ^ n + 1) := by rw [Nat.mul_add_one]; omega
    _ ≤ 2 ^ (36 - p - n) * 2 ^ n := Nat.mul_le_mul_left _ hv
    _ = 2 ^ (36 - p) := by rw [← pow_add, show 36 - p - n + n = 36 - p by omega]

/-- A word with a field replaced, as a number: what lies above the field, the field, what lies below it. -/
theorem setPos_eq : BitVec'.setPos w p n v =
    BitVec.ofNat 36 (w.toNat / 2 ^ (36 - p) * 2 ^ (36 - p) + v % 2 ^ n * 2 ^ (36 - p - n) + w.toNat % 2 ^ (36 - p - n)) := by
  apply BitVec.eq_of_getLsbD_eq
  intro i hi
  have hlow : w.toNat % 2 ^ (36 - p - n) < 2 ^ (36 - p - n) := Nat.mod_lt _ (by positivity)
  rw [getLsbD_setPos w p n v h hi, BitVec.getLsbD_ofNat, Nat.add_assoc, Nat.mul_comm _ (2 ^ (36 - p)),
    Nat.mul_comm _ (2 ^ (36 - p - n)), Nat.testBit_two_pow_mul_add _ (field_lt p n v h _ hlow), Nat.testBit_two_pow_mul_add _ hlow,
    Nat.testBit_div_two_pow, Nat.testBit_mod_two_pow, Nat.testBit_mod_two_pow]
  by_cases hbelow : i < 36 - p - n
  · simp [hi, hbelow, show i < 36 - p by omega, BitVec.getLsbD]
  · by_cases hfield : i < 36 - p
    · simp [hi, hbelow, hfield, show i - (36 - p - n) < n by omega]
    · simp [hi, hbelow, hfield, show i - (36 - p) + (36 - p) = i by omega, BitVec.getLsbD]

end

/-- Settles O15: each operation is the arithmetic that its table gives; `setPos_eq` gives that of INS. -/
theorem oneOperandShiftAndFieldResults : Obligations.OneOperandShiftAndFieldResults := by
  intro s c cc d a b n p l1 imm hfield
  have hsh : 36 - p.toNat - (l1.toNat + 1) = 35 - p.toNat - l1.toNat := by omega
  refine ⟨yields_of rfl ?neg, yields_of rfl rfl, yields_of rfl ?popc, yields_of rfl ?clz, yields_of rfl ?shl, yields_of rfl ?shrl,
    yields_of rfl ?shra, yields_of rfl rfl, yields_of rfl ?ext, yields_of rfl ?ins, yields_of rfl rfl, yields_of rfl rfl⟩
  case neg => rw [neg_eq_ofInt_neg_toInt]
  case popc => rw [onesOf_eq_countP]
  case clz => rw [leadingZeros_eq]
  case shl => rw [shiftLeft_min_eq]
  case shrl => rw [ushiftRight_min_eq]
  case shra => rw [sshiftRight_min_eq]
  case ext =>
    dsimp only
    rw [hsh]
  case ins =>
    dsimp only
    rw [setPos_eq _ p.toNat (l1.toNat + 1) _ hfield, hsh]

/-! ### Conditions (R203, R204) -/

/-- The syllable that a number spells by its fields of 4, 5 and 5 bits. -/
theorem ofNat_eq_append {f x m : Nat} (hx : x < 32) (hm : m < 32) :
    BitVec.ofNat 14 (f * 2 ^ 10 + x * 2 ^ 5 + m) = (BitVec.ofNat 4 f ++ BitVec.ofNat 5 x ++ BitVec.ofNat 5 m : BitVec 14) := by
  have h : (BitVec.ofNat 4 f ++ BitVec.ofNat 5 x ++ BitVec.ofNat 5 m).toNat = (f * 2 ^ 10 + x * 2 ^ 5 + m) % 2 ^ 14 := by
    rw [BitVec.toNat_append, ← Nat.shiftLeft_add_eq_or_of_lt (BitVec.isLt _), BitVec.toNat_append,
      ← Nat.shiftLeft_add_eq_or_of_lt (BitVec.isLt _)]
    simp only [BitVec.toNat_ofNat, Nat.shiftLeft_eq]
    omega
  exact BitVec.eq_of_toNat_eq (by rw [BitVec.toNat_ofNat, ← h])

theorem decode_synX_eq_none {c : CoreId} {a : Reg} {m : Nat} {r : List Syll} (hm : m < 32) (h : decodeX c a m r = none) :
    decode c (synX a m :: r) = none := by
  rw [decode, decodeRaw_synX c a hm, h]
  rfl

theorem not_slt_iff (a b : Word) : (!a.slt b) = true ↔ b.toInt ≤ a.toInt := by
  rw [Bool.not_eq_true', ← Bool.not_eq_true, BitVec.slt_iff_toInt_lt, not_lt]

theorem not_ult_iff (a b : Word) : (!a.ult b) = true ↔ b.toNat ≤ a.toNat := by
  rw [Bool.not_eq_true', ← Bool.not_eq_true, BitVec.ult_iff_toNat_lt, not_lt]

/-- Settles O16: the words of the statement are format X and a syllable of three fields; a code from 12 names no condition. -/
theorem conditionCodes : Obligations.ConditionCodes := by
  intro s c cc d x y imm a b rest r word2 word1
  have hword1 (m : Nat) (hm : m < 32) : word1 m = synX d m := ofNat_eq_append d.isLt hm
  have hword2 (code low : Nat) (hl : low < 32) :
      word2 code low = (BitVec.ofNat 4 code ++ regBits x ++ BitVec.ofNat 5 low : BitVec 14) := ofNat_eq_append x.isLt hl
  refine ⟨?cset, ?cseti, ?csetNone, ?csetiNone, yields_of rfl rfl, yields_of rfl rfl, decide_eq_true_iff, decide_eq_true_iff,
    BitVec.slt_iff_toInt_lt, not_slt_iff a b, not_slt_iff b a, BitVec.slt_iff_toInt_lt,
    BitVec.ult_iff_toNat_lt, not_ult_iff a b, not_ult_iff b a, BitVec.ult_iff_toNat_lt, decide_eq_true_iff, decide_eq_true_iff⟩
  case cset =>
    rw [hword1 11 (by decide), hword2 _ _ y.isLt]
    rfl
  case cseti =>
    rw [hword1 12 (by decide), hword2 _ 0 (by decide)]
    rfl
  case csetNone =>
    intro code h12 h16
    rw [hword1 11 (by decide), hword2 _ _ y.isLt]
    exact decode_synX_eq_none (by decide) (by simp [decodeX, fld, Nat.mod_eq_of_lt h16, condOf_eq_none h12])
  case csetiNone =>
    intro code low h16 h32 hbad
    rw [hword1 12 (by decide), hword2 _ _ h32]
    refine decode_synX_eq_none (by decide) ?_
    by_cases hlow : low = 0
    · have h12 : 12 ≤ code := hbad.resolve_right (not_not.2 hlow)
      simp [decodeX, fld, Nat.mod_eq_of_lt h16, condOf_eq_none h12]
    · have h0 : BitVec.ofNat 5 low ≠ 0#5 := fun h => hlow (by simpa [Nat.mod_eq_of_lt h32] using congrArg BitVec.toNat h)
      simp [decodeX, fld, h0]

end Sys2Proof.Machine
end
section
/-! PROOF of O34: decimal arithmetic on registers and the binary conversions (R229 to R232, R241, R242). -/

namespace Sys2Proof.Machine

/-! ### Layout D as a number (R226) -/

theorem toNat_append_eq_add {n m : Nat} (x : BitVec n) (y : BitVec m) : (x ++ y).toNat = x.toNat * 2 ^ m + y.toNat := by
  rw [BitVec.toNat_append, ← Nat.shiftLeft_add_eq_or_of_lt y.isLt, Nat.shiftLeft_eq]

/-- Two numbers that share no position are joined by addition. -/
theorem mul_two_pow_or {k b : Nat} (a : Nat) (h : b < 2 ^ k) : a * 2 ^ k ||| b = a * 2 ^ k + b := by
  rw [mul_comm, Nat.two_pow_add_eq_or_of_lt h]

/-- Layout D with its third decimal register and its rounding mode 0. -/
theorem synD_eq_or (x y : DReg) (w : Reg) : synD x y 0 w 0 =
    BitVec.ofNat 14 (x.val * 2 ^ 12) ||| BitVec.ofNat 14 (y.val * 2 ^ 10) ||| BitVec.ofNat 14 (w.val * 2 ^ 3) := by
  have hlow := mul_two_pow_or (k := 10) (b := w.val * 2 ^ 3) y (by omega)
  have hall := mul_two_pow_or (k := 12) (b := y.val * 2 ^ 10 + w.val * 2 ^ 3) x (by omega)
  rw [← BitVec.ofNat_or, ← BitVec.ofNat_or, Nat.or_assoc, hlow, hall]
  apply BitVec.eq_of_toNat_eq
  simp only [synD, dBits, regBits, toNat_append_eq_add, BitVec.toNat_ofNat, Fin.val_zero, BitVec.ofNat_eq_ofNat]
  omega

/-- The second syllable of DSHL (R231). -/
theorem dshlSyll_eq_or (x : DReg) (n : BitVec 6) : (dBits x ++ n ++ 0#6 : BitVec 14) =
    BitVec.ofNat 14 (x.val * 2 ^ 12) ||| BitVec.ofNat 14 (n.toNat * 2 ^ 6) := by
  rw [← BitVec.ofNat_or, mul_two_pow_or _ (by omega)]
  apply BitVec.eq_of_toNat_eq
  simp only [dBits, toNat_append_eq_add, BitVec.toNat_ofNat]
  omega

/-! ### Results of at most 62 digits (R228) -/

section
variable {s : State} {c : CoreId} {i : Instr} {cc : Nat}

/-- A decimal result v is written where it has at most 62 digits, else it faults. -/
theorem decOpr_writes_or_raises {x : DReg} {f : CoreRegs → Int} {v : Int} (he : exec i s = s.decOpr c i x cc f) (hv : f (s.regs c) = v) :
    (¬ 10 ^ 62 ≤ v.natAbs → Yields s c i cc fun q => q.setD x v) ∧ (10 ^ 62 ≤ v.natAbs → Raises s c i .decimalOverflow 0) := by
  refine ⟨fun h y s1 hc => ?_, fun h y s1 hc => ?_⟩
  · rw [he, State.decOpr, instr_carries hc, State.settle_decResult (carries_regs hc), carries_regs hc, hv, if_pos (Nat.lt_of_not_le h)]
  · rw [he, State.decOpr, instr_carries hc, State.settle_decResult (carries_regs hc), carries_regs hc, hv, if_neg (Nat.not_lt.2 h)]

/-- An instruction whose own part is done with new registers once its guard has been passed. -/
theorem yields_of_done {f : CoreRegs → CoreRegs} {body} (he : exec i s = .next (s.instr c i body))
    (hb : ∀ x s1, s1.regs c = s.regs c → body x s1 = .done (s1.updR c f) none cc) : Yields s c i cc f := by
  intro x s1 hc
  rw [he, instr_carries hc, hb x s1 (carries_regs hc), State.settle_updR (carries_regs hc)]

end

section
variable (s : State) (c : CoreId) (x y : DReg)

theorem exec_dadd : exec (.dadd c x y) s = s.decOpr c (.dadd c x y) x 4 fun r => r.dr x + r.dr y := rfl
theorem exec_dsub : exec (.dsub c x y) s = s.decOpr c (.dsub c x y) x 4 fun r => r.dr x - r.dr y := rfl
theorem exec_dshl (n : BitVec 6) : exec (.dshl c x n) s = s.decOpr c (.dshl c x n) x 3 fun r => r.dr x * 10 ^ n.toNat := rfl

end

/-! ### Conversions (R241, R242) -/

theorem lo_ofInt (n : Int) : Pair.lo (BitVec.ofInt 72 n) = BitVec.ofInt 36 n := by
  apply BitVec.eq_of_toNat_eq
  simp only [Pair.lo, BitVec'.pos, BitVec.extractLsb'_toNat, BitVec.toNat_ofInt, Nat.shiftRight_eq_div_pow]
  omega

/-- A pair of registers takes the two halves of an integer. -/
theorem CoreRegs.setPair_ofInt (r : CoreRegs) (d : Reg) (n : Int) : r.setPair d (BitVec.ofInt 72 n) =
    (r.setW d (BitVec.ofInt 36 (n / 2 ^ 36))).setW (Reg.next d) (BitVec.ofInt 36 n) := by
  rw [CoreRegs.setPair, hi_ofInt, lo_ofInt]

theorem natAbs_eq_ite (v : Int) : (v.natAbs : Int) = if v < 0 then -v else v := by
  split <;> omega

section
variable {s : State} {c : CoreId} {d : Reg} {x : DReg}

theorem yields_cvdb (hlow : -2 ^ 35 ≤ (s.regs c).dr x) (hhigh : (s.regs c).dr x < 2 ^ 35) :
    Yields s c (.cvdb c d x) 20 fun q => q.setW d (BitVec.ofInt 36 ((s.regs c).dr x)) := by
  refine yields_of_done rfl fun y s1 hr => ?_
  rw [hr, if_neg (not_or.2 ⟨not_lt.2 hlow, not_le.2 hhigh⟩)]

theorem raises_cvdb (h : (s.regs c).dr x < -2 ^ 35 ∨ 2 ^ 35 ≤ (s.regs c).dr x) : Raises s c (.cvdb c d x) .decimalOverflow 0 := by
  refine raises_of rfl fun y s1 hc => ?_
  rw [carries_regs hc, if_pos h]

theorem yields_cvdbL (hlow : -2 ^ 71 ≤ (s.regs c).dr x) (hhigh : (s.regs c).dr x < 2 ^ 71) :
    Yields s c (.cvdbL c d x) 36 fun q => (q.setW d (BitVec.ofInt 36 ((s.regs c).dr x / 2 ^ 36))).setW (Reg.next d)
      (BitVec.ofInt 36 ((s.regs c).dr x)) := by
  refine yields_of_done rfl fun y s1 hr => ?_
  rw [hr, if_neg (not_or.2 ⟨not_lt.2 hlow, not_le.2 hhigh⟩)]
  simp only [CoreRegs.setPair_ofInt]

theorem raises_cvdbL (h : (s.regs c).dr x < -2 ^ 71 ∨ 2 ^ 71 ≤ (s.regs c).dr x) : Raises s c (.cvdbL c d x) .decimalOverflow 0 := by
  refine raises_of rfl fun y s1 hc => ?_
  rw [carries_regs hc, if_pos h]

end

/-! ### The obligation -/

/-- Settles O34: the syllables are layout D written as a number, each result is the instruction's own, and what is too large for 62
digits, or for the word or the pair, faults. -/
theorem decimalRegisterArithmetic : Obligations.DecimalRegisterArithmetic := by
  intro s c x y a d n r dx dy w op tooLarge
  obtain ⟨haddFits, haddOver⟩ := decOpr_writes_or_raises (exec_dadd s c x y) rfl
  obtain ⟨hsubFits, hsubOver⟩ := decOpr_writes_or_raises (exec_dsub s c x y) rfl
  obtain ⟨hshlFits, hshlOver⟩ := decOpr_writes_or_raises (exec_dshl s c x n) rfl
  refine ⟨?encoding, haddFits, haddOver, hsubFits, hsubOver, yields_of rfl rfl, yields_of rfl rfl, yields_of rfl rfl, ?dabs,
    yields_of rfl rfl, hshlFits, hshlOver, yields_of rfl rfl, yields_of rfl rfl, yields_cvdb, raises_cvdb, yields_cvdbL, raises_cvdbL⟩
  case encoding =>
    have hxy : synD x y 0 0 0 = dx ||| dy := (synD_eq_or x y 0).trans BitVec.or_zero
    have hxw (a : Reg) : synD x 0 0 a 0 = dx ||| w a := (synD_eq_or x 0 a).trans (congrArg (· ||| w a) BitVec.or_zero)
    have hx : synD x 0 0 0 0 = dx := (hxw 0).trans BitVec.or_zero
    have hsylls {m : Nat} {v u : Syll} (hm : synY m = op m) (h : v = u) : [synY m, v] = [op m, u] := by rw [hm, h]
    exact ⟨hsylls rfl hxy, hsylls rfl hxy, hsylls rfl (synD_eq_or x y d), hsylls rfl hxy, hsylls rfl hx, hsylls rfl hx, hsylls rfl hx,
      hsylls rfl (dshlSyll_eq_or x n), hsylls rfl (hxw a), hsylls rfl (hxw a), hsylls rfl (hxw d), hsylls rfl (hxw d)⟩
  case dabs =>
    refine yields_of rfl ?_
    rw [natAbs_eq_ite]

end Sys2Proof.Machine
end
section
/-! PROOF of O35: decimal rounding, multiplication and division (R224, R233 to R237). -/

namespace Sys2Proof.Machine

/-! ### Rounding (R224) -/

/-- Whether rounding mode m takes the quotient q with rest r of d away from zero. -/
def decRoundsUp (m : Nat) (neg : Bool) (q r d : Nat) : Bool :=
  match m with
  | 0 => decide (d ≤ 2 * r)
  | 1 => decide (d < 2 * r) || (decide (d = 2 * r) && decide (q % 2 = 1))
  | 2 => false
  | 3 => decide (r ≠ 0)
  | 4 => neg && decide (r ≠ 0)
  | 5 => !neg && decide (r ≠ 0)
  | _ => decide (d < 2 * r)

/-- The magnitude of a rounded quotient. -/
def roundedMag (m : Nat) (neg : Bool) (n d : Nat) : Nat := n / d + bit (decRoundsUp m neg (n / d) (n % d) d)

section
variable (m n : Nat) (v : Int) {d : Nat}

theorem roundDec_eq_ite : roundDec m v d = if v < 0 then -(roundedMag m true v.natAbs d : Int) else roundedMag m false v.natAbs d := by
  have hup (neg : Bool) (q r : Nat) : (if decRoundsUp m neg q r d then q + 1 else q) = q + bit (decRoundsUp m neg q r d) := by
    cases decRoundsUp m neg q r d <;> rfl
  unfold roundedMag
  rw [← hup, ← hup]
  by_cases hv : v < 0 <;> simp only [roundDec, hv, decide_true, decide_false, if_true, if_false] <;> rfl

theorem roundDec_natCast : roundDec m n d = roundedMag m false n d := by
  rw [roundDec_eq_ite, if_neg (by omega), Int.natAbs_natCast]

theorem roundDec_neg_natCast (hn : 0 < n) : roundDec m (-n) d = -(roundedMag m true n d : Int) := by
  rw [roundDec_eq_ite, if_pos (by omega), Int.natAbs_neg, Int.natAbs_natCast]

theorem roundedMag_zero (neg : Bool) (hd : 0 < d) : roundedMag m neg 0 d = 0 := by
  have hup : decRoundsUp m neg 0 0 d = false := by
    unfold decRoundsUp
    split <;> simp [hd.ne']
  rw [roundedMag, Nat.zero_div, Nat.zero_mod, hup]
  rfl

/-- A mode that does not look at the sign rounds the magnitude. -/
theorem roundDec_eq_mul_sign (hd : 0 < d) (hm : roundedMag m true v.natAbs d = roundedMag m false v.natAbs d) :
    roundDec m v d = (roundedMag m false v.natAbs d : Int) * v.sign := by
  rw [roundDec_eq_ite, hm]
  rcases lt_trichotomy v 0 with hv | rfl | hv
  · rw [if_pos hv, Int.sign_eq_neg_one_of_neg hv, mul_neg_one]
  · simp [roundedMag_zero m false hd]
  · rw [if_neg hv.not_gt, Int.sign_eq_one_of_pos hv, mul_one]

/-- Division toward minus infinity of a negative number. -/
theorem neg_natCast_ediv (hd : 0 < d) : -(n : Int) / d = -((n / d + bit (decide (n % d ≠ 0)) : Nat) : Int) := by
  have hdiv := Nat.div_add_mod n d
  have hlt := Nat.mod_lt n hd
  generalize n / d = q at *
  generalize n % d = r at *
  subst hdiv
  by_cases hr : r = 0
  · subst hr
    rw [Nat.add_zero, Nat.cast_mul, ← mul_neg, Int.mul_ediv_cancel_left _ (by omega)]
    rfl
  · refine ((Int.ediv_emod_unique (r := d - r) (by omega)).2 ⟨?_, by omega, by omega⟩).1
    simp [bit, hr]
    ring

end

section
variable (v : Int) {d : Nat} (hd : 0 < d)
include hd

/-- Mode 2 rounds toward zero. -/
theorem roundDec_two : roundDec 2 v d = v.tdiv d := by
  obtain ⟨n, rfl | rfl⟩ := v.eq_nat_or_neg
  · rw [roundDec_natCast, ← Int.ofNat_tdiv]; rfl
  · rcases n.eq_zero_or_pos with rfl | hn
    · simp [roundDec_eq_ite, roundedMag_zero 2 false hd]
    · rw [roundDec_neg_natCast 2 n hn, Int.neg_tdiv, ← Int.ofNat_tdiv]; rfl

/-- Mode 4 rounds toward minus infinity. -/
theorem roundDec_four : roundDec 4 v d = v / d := by
  obtain ⟨n, rfl | rfl⟩ := v.eq_nat_or_neg
  · rw [roundDec_natCast, ← Int.natCast_ediv]; rfl
  · rcases n.eq_zero_or_pos with rfl | hn
    · simp [roundDec_eq_ite, roundedMag_zero 4 false hd]
    · rw [roundDec_neg_natCast 4 n hn, neg_natCast_ediv n hd]; rfl

/-- Mode 5 rounds toward plus infinity. -/
theorem roundDec_five : roundDec 5 v d = -(-v / d) := by
  obtain ⟨n, rfl | rfl⟩ := v.eq_nat_or_neg
  · rw [roundDec_natCast, neg_natCast_ediv n hd, neg_neg]; rfl
  · rcases n.eq_zero_or_pos with rfl | hn
    · simp [roundDec_eq_ite, roundedMag_zero 5 false hd]
    · rw [roundDec_neg_natCast 5 n hn, neg_neg, ← Int.natCast_ediv]; rfl

/-- Mode 3 rounds away from zero. -/
theorem roundDec_three : roundDec 3 v d = -(-(v.natAbs : Int) / d) * v.sign := by
  rw [roundDec_eq_mul_sign 3 v hd rfl, neg_natCast_ediv _ hd, neg_neg]
  rfl

/-- Mode 0 rounds to the nearest, a half away from zero. -/
theorem roundDec_zero : roundDec 0 v d = ((2 * v.natAbs + d) / (2 * d) : Nat) * v.sign := by
  have hmag : (2 * v.natAbs + d) / (2 * d) = roundedMag 0 false v.natAbs d := by
    have hlt := Nat.mod_lt v.natAbs hd
    have hsplit : 2 * v.natAbs + d = 2 * d * (v.natAbs / d) + (2 * (v.natAbs % d) + d) := by
      conv_lhs => rw [← Nat.div_add_mod v.natAbs d]
      ring
    have hbit : (2 * (v.natAbs % d) + d) / (2 * d) = bit (decide (d ≤ 2 * (v.natAbs % d))) := by
      by_cases hup : d ≤ 2 * (v.natAbs % d)
      · rw [decide_eq_true hup]
        exact Nat.div_eq_of_lt_le (k := 1) (by omega) (by omega)
      · rw [decide_eq_false hup]
        exact Nat.div_eq_of_lt (by omega)
    rw [hsplit, Nat.mul_add_div (by omega), hbit]
    rfl
  rw [roundDec_eq_mul_sign 0 v hd rfl, hmag]

/-- Mode 6 rounds to the nearest, a half toward zero. -/
theorem roundDec_six : roundDec 6 v d = -(((d : Int) - 2 * v.natAbs) / (2 * d)) * v.sign := by
  have hmag : ((d : Int) - 2 * v.natAbs) / (2 * d) = -(roundedMag 6 false v.natAbs d : Int) := by
    have hlt := Nat.mod_lt v.natAbs hd
    have hdiv : (v.natAbs : Int) = d * (v.natAbs / d : Nat) + (v.natAbs % d : Nat) := by
      exact_mod_cast (Nat.div_add_mod v.natAbs d).symm
    rw [roundedMag]
    by_cases hup : d < 2 * (v.natAbs % d)
    · simp only [decRoundsUp, hup, decide_true, bit]
      refine ((Int.ediv_emod_unique (r := 3 * d - 2 * (v.natAbs % d : Nat)) (by omega)).2 ⟨?_, by omega, by omega⟩).1
      rw [hdiv]
      push_cast
      ring
    · simp only [decRoundsUp, hup, decide_false, bit]
      refine ((Int.ediv_emod_unique (r := d - 2 * (v.natAbs % d : Nat)) (by omega)).2 ⟨?_, by omega, by omega⟩).1
      rw [hdiv]
      push_cast
      ring
  rw [roundDec_eq_mul_sign 6 v hd rfl, hmag, neg_neg]

omit hd in
/-- No quotient is nearer than that of mode 1, and where the rest is a half it is even. -/
theorem nearest_of_mode_one {q r : Nat} (neg : Bool) (hr : r < d) :
    2 * ((d * q + r : Nat) - (q + bit (decRoundsUp 1 neg q r d) : Nat) * d : Int).natAbs ≤ d ∧
    (2 * ((d * q + r : Nat) - (q + bit (decRoundsUp 1 neg q r d) : Nat) * d : Int).natAbs = d →
      (q + bit (decRoundsUp 1 neg q r d)) % 2 = 0) := by
  have hrest (b : Nat) : ((d * q + r : Nat) - (q + b : Nat) * d : Int) = r - b * d := by
    push_cast
    ring
  rw [hrest]
  by_cases hup : d < 2 * r ∨ d = 2 * r ∧ q % 2 = 1
  · have hone : bit (decRoundsUp 1 neg q r d) = 1 := by simp [decRoundsUp, bit, hup]
    rw [hone]
    omega
  · have hzero : bit (decRoundsUp 1 neg q r d) = 0 := by simp [decRoundsUp, bit] at hup ⊢; omega
    rw [hzero]
    omega

theorem roundedMag_one_nearest (n : Nat) (neg : Bool) : 2 * ((n : Int) - roundedMag 1 neg n d * d).natAbs ≤ d ∧
    (2 * ((n : Int) - roundedMag 1 neg n d * d).natAbs = d → roundedMag 1 neg n d % 2 = 0) := by
  have h := nearest_of_mode_one (q := n / d) neg (Nat.mod_lt n hd)
  rwa [Nat.div_add_mod] at h

/-- Mode 1 rounds to the nearest, a half to the even quotient. -/
theorem roundDec_one : 2 * (v - roundDec 1 v d * d).natAbs ≤ d ∧
    (2 * (v - roundDec 1 v d * d).natAbs = d → roundDec 1 v d % 2 = 0) := by
  obtain ⟨n, rfl | rfl⟩ := v.eq_nat_or_neg
  · rw [roundDec_natCast]
    exact_mod_cast roundedMag_one_nearest hd n false
  · rcases n.eq_zero_or_pos with rfl | hn
    · simp [roundDec_eq_ite, roundedMag_zero 1 false hd]
    · have hneg (M : Int) : -(n : Int) - -M * d = -(n - M * d) := by ring
      rw [roundDec_neg_natCast 1 n hn, hneg, Int.natAbs_neg, Int.neg_emod_two]
      exact_mod_cast roundedMag_one_nearest hd n true

end

/-! ### The decimal unit takes up a result (R234 to R237) -/

/-- The integer that DMULW writes above 62 digits of the product (R236). -/
theorem tdiv_decLimit (p : Int) : (if p < 0 then -((p.natAbs / decLimit : Nat) : Int) else (p.natAbs / decLimit : Nat)) =
    p.tdiv (10 ^ 62) := by
  have htdiv (n : Nat) : ((n / decLimit : Nat) : Int) = (n : Int).tdiv (10 ^ 62) := Int.ofNat_tdiv n decLimit
  rw [htdiv]
  split
  next hneg =>
    rw [← Int.neg_tdiv]
    congr 1
    omega
  next hpos =>
    congr 1
    omega

/-- A dividend whose sign follows the divisor's, for a divisor that is not 0. -/
theorem mul_sign_of_ne_zero {a b : Int} (hb : b ≠ 0) : (if b < 0 then -a else a) = a * b.sign := by
  split
  next hneg => rw [Int.sign_eq_neg_one_of_neg hneg, mul_neg_one]
  next hpos => rw [Int.sign_eq_one_of_pos (by omega), mul_one]

section
variable {s : State} {c : CoreId} {i : Instr}

/-- An instruction of 3 cc whose own part starts the decimal unit. -/
theorem starts_of_startDec {lat : Nat} {writes : List (Nat × Int)} {movf : Bool} {body} (he : exec i s = .next (s.instr c i body))
    (hb : ∀ x s1, s1.regs c = s.regs c → body x s1 = s1.startDec c 3 lat writes movf) :
    Starts s c i 3 fun k => { k with u := { k.u with dec := some {
      writes := writes, movf := movf, due := (s.regs c).cnt.clk + 3 + bit k.atLoopEnd + lat } } } := by
  refine starts_of he fun x s1 hc => ?_
  have hregs := carries_regs hc
  rw [hb x s1 hregs, State.startDec]
  refine congrArg (Act.done · none 3) (updCore_congr s1 c ?_)
  rw [← hregs, Core.withTest, ← Nat.add_assoc]
  rfl

end

/-! ### The obligation -/

/-- Settles O35: DMUL and DMULW write the two halves of the product (`wrapDec_eq_tmod`, `tdiv_decLimit`), DDIV the rounded quotient and its
rest, and each rounding mode is the arithmetic of its name. -/
theorem decimalUnitStarts : Obligations.DecimalUnitStarts := by
  intro s c x y z n rm r p start
  refine ⟨yields_of rfl rfl, ?dmul, ?dmulw, ?divideZero, ?ddiv, fun v d hd => ⟨roundDec_two v hd, roundDec_four v hd,
    roundDec_five v hd, roundDec_three v hd, roundDec_zero v hd, roundDec_six v hd, roundDec_one v hd⟩⟩
  case dmul =>
    refine starts_of_startDec rfl fun _ s1 hr => ?_
    rw [State.decProduct, wrapDec_eq_tmod, hr]
    rfl
  case dmulw =>
    refine starts_of_startDec rfl fun _ s1 hr => ?_
    dsimp only
    rw [hr, wrapDec_eq_tmod, tdiv_decLimit]
  case divideZero =>
    intro hy
    refine raises_of rfl fun _ s1 hc => ?_
    rw [carries_regs hc]
    exact if_pos hy
  case ddiv =>
    intro hy
    refine starts_of_startDec rfl fun _ s1 hr => ?_
    dsimp only
    rw [hr, if_neg hy, mul_sign_of_ne_zero hy]

end Sys2Proof.Machine
end
section
/-! PROOF of O37: CVCD and CVDC, numbers in characters (R243 to R245); an instruction that leaves its registers alone. -/

namespace Sys2Proof.Sparse

/-! ### A write over a write -/

section
variable {α : Type} (m : Sparse α) (n : Nat) (v w : α)

theorem insert_insert : insert (insert m n v) n w = insert m n w := by
  induction m with
  | nil => simp [insert]
  | cons e m ih =>
    obtain ⟨j, u⟩ := e
    by_cases hlt : n < j
    · simp [insert, hlt]
    · by_cases heq : n = j
      · simp [insert, heq]
      · simp [insert, hlt, heq, ih]

theorem erase_insert : erase (insert m n v) n = erase m n := by
  induction m with
  | nil => simp [insert, erase]
  | cons e m ih =>
    obtain ⟨j, u⟩ := e
    unfold erase at ih ⊢
    by_cases hlt : n < j
    · simp [insert, hlt]
    · by_cases heq : n = j
      · simp [insert, heq]
      · rw [insert, if_neg hlt, if_neg heq, List.filter_cons, List.filter_cons, ih]

/-- A write over a write that left a value listed. -/
theorem set_set [DecidableEq α] {d : α} (hv : v ≠ d) : set d (set d m n v) n w = set d m n w := by
  unfold set
  rw [if_neg hv, erase_insert, insert_insert]

end

end Sys2Proof.Sparse

namespace Sys2Proof.Machine

/-! ### The parse of digits (R243) -/

/-- The characters of digits. -/
def digitCodes (l : List Nat) : List Nat := l.map fun d => 0o060 + d

theorem digitCodes_cons (x : Nat) (l : List Nat) : digitCodes (x :: l) = (0o060 + x) :: digitCodes l := rfl

theorem digitCodes_length (l : List Nat) : (digitCodes l).length = l.length := List.length_map _

/-- The parse p once it has taken up the digits l, before any point. -/
def Parse.withDigits (p : Parse) (l : List Nat) : Parse :=
  { p with i := p.i + l.length, digits := p.digits + l.length, v := l.foldl (fun a x => 10 * a + x) p.v }

/-- The digit loop takes up digits that stand before any point, one after another. -/
theorem parseDigits_digitCodes {l : List Nat} (hl : ∀ x ∈ l, x < 10) {p : Parse} (hlen : p.digits + l.length ≤ 62)
    (hp : p.point = false) : parseDigits (digitCodes l) p = p.withDigits l := by
  induction l generalizing p with
  | nil => rfl
  | cons x l ih =>
    obtain ⟨hx, hl⟩ := List.forall_mem_cons.1 hl
    rw [List.length_cons] at hlen
    rw [digitCodes_cons, parseDigits, if_pos (by omega), if_neg (by omega)]
    refine (ih hl ?_ ?_).trans ?_
    · show p.digits + 1 + l.length ≤ 62
      omega
    · exact hp
    · simp [Parse.withDigits, hp]
      omega

/-- A number of 1 to 62 digits is read as its value (R243). -/
theorem parseNumber_digitCodes {l : List Nat} (hl : ∀ x ∈ l, x < 10) (hpos : l ≠ []) (hlen : l.length ≤ 62) :
    parseNumber (digitCodes l) =
      Parse.withDigits { i := 0, neg := false, point := false, digits := 0, frac := 0, v := 0, st := 0 } l := by
  cases l with
  | nil => exact absurd rfl hpos
  | cons x l =>
    have hx : x < 10 := hl x List.mem_cons_self
    have hspace : spacesOf (digitCodes (x :: l)) = 0 := by
      rw [digitCodes_cons, spacesOf, List.takeWhile_cons_of_neg (by simp; omega), List.length_nil]
    have hsign : (digitCodes (x :: l)).getD 0 0 = 0o060 + x := rfl
    have hplus : (0o060 + x = 0o053) = False := by simp; omega
    have hminus : (0o060 + x = 0o055) = False := by simp; omega
    have hnone : (digitCodes (x :: l)).drop (l.length + 1) = [] := List.drop_of_length_le (digitCodes_length _).le
    simp only [parseNumber, hspace, hsign, hplus, hminus, decide_false, Bool.or_self, Bool.and_false, Bool.false_eq_true, if_false,
      List.drop_zero, Bool.and_self]
    rw [parseDigits_digitCodes hl (by simpa using hlen) rfl]
    simp [Parse.withDigits, digitCodes_length, spacesOf, hnone]

/-- The n digits of a number below 10^n are read back as the number. -/
theorem parseNumber_digitsOf {m v : Nat} (hm : 0 < m) (hm62 : m ≤ 62) (hv : v < 10 ^ m) : parseNumber (digitCodes (digitsOf m v)) =
    { i := m, neg := false, point := false, digits := m, frac := 0, v := v, st := 0 } := by
  have hlen := digitsOf_length m v
  have hne : digitsOf m v ≠ [] := List.ne_nil_of_length_pos (by omega)
  rw [parseNumber_digitCodes (fun _ => lt_ten_of_mem_digitsOf) hne (by omega), Parse.withDigits, foldl_digitsOf, hlen,
    Nat.mod_eq_of_lt hv]
  simp

/-! ### CVCD (R243, R244) -/

section
variable {s : State} {c : CoreId} {x : DReg} {w wx : Reg} {k : KReg}

/-- The run of characters that CVCD and CVDC name. -/
def numberOperand (r : CoreRegs) (k : KReg) (wx : Reg) (len : Nat) (need : Need) : Operand :=
  { cap := r.cap k.val, va := (r.cap k.val).base + (r.wr wx).toNat, len := len, align := 0, need := need }

theorem yields_cvcd_badLength (h : ((s.regs c).wr w).toNat % 2 ^ 18 = 0 ∨ 64 < ((s.regs c).wr w).toNat % 2 ^ 18) :
    Yields s c (.cvcd c x w k wx) 8 fun q => q.setW w (BitVec.ofNat 36 (4 * 2 ^ 30)) := by
  refine yields_of_done rfl fun y s1 hr => ?_
  dsimp only
  rw [hr, if_pos h]

theorem loads_cvcd {len : Nat} (hlen : ((s.regs c).wr w).toNat % 2 ^ 18 = len) (hpos : 0 < len) (hmax : len ≤ 64) :
    Loads s c (.cvcd c x w k wx) [numberOperand (s.regs c) k wx len .load] (8 + (len + 1) / 2) fun l q =>
      let p := parseNumber (l.map fun a => a.toNat % 256)
      (if p.st = 0 then q.setD x (if p.neg then -(p.v : Int) else p.v) else q).setW w p.word := by
  intro y s1 y1 l hc hr
  have he : exec (.cvcd c x w k wx) s = execCvcd c x w k wx s := rfl
  have hcodes : (l.map fun a => (Chr.code a).toNat) = l.map fun a => a.toNat % 256 :=
    List.map_congr_left fun a _ => BitVec.toNat_setWidth 8 a
  rw [he, execCvcd, instr_carries hc]
  dsimp only
  rw [carries_regs hc, hlen, if_neg (by omega), State.reading]
  unfold numberOperand at hr
  rw [hr]
  dsimp only
  rw [hcodes, State.settle_updR (carries_regs hc)]
  rfl

end

/-! ### An instruction that leaves its registers alone -/

theorem State.setCore_setCore (s : State) (n : Nat) {k : Core} (hk : k ≠ Core.reset) (l : Core) :
    (s.setCore n k).setCore n l = s.setCore n l := by
  unfold State.setCore
  simp only [Sparse.set_set _ _ _ _ hk]

theorem Core.ne_reset_of_running {k : Core} (h : k.running = true) : k ≠ Core.reset := by
  rintro rfl
  exact absurd h (by decide)

/-- The loop test looks at the code store of the state after the instruction only. -/
theorem loopEnd_congr {s t : State} (h : t.u.clusters = s.u.clusters) (s0 : State) (c : Nat) (k : Core) (i : Instr) (n : Nat) :
    s0.loopEnd t c k i n = s0.loopEnd s c k i n := by
  unfold State.loopEnd State.loopFill State.refill
  simp only [State.fetchRun_congr h]

/-- Registers written as they were are not seen once the instruction has ended. -/
theorem finish_updR_regs {s : State} {c : CoreId} (h : (s.core c).running = true) (i : Instr) (cc : Nat) :
    s.finish (s.updR c fun _ => s.regs c) c i none cc = s.finish s c i none cc := by
  have hcore : (s.updR c fun _ => s.regs c).core c = s.core c := (State.updCore_core _ _ _ _).trans (if_pos rfl)
  have hcounted : s.counted (s.updR c fun _ => s.regs c) c cc = s.counted s c cc := by rw [State.counted, hcore, State.counted]
  have hend : (s.finish (s.updR c fun _ => s.regs c) c i none cc).core c = (s.finish s c i none cc).core c := by
    rw [finish_none_core, finish_none_core, hcounted]
    exact loopEnd_congr (State.updCore_u_clusters s c _) s c _ i _
  calc s.finish (s.updR c fun _ => s.regs c) c i none cc
    _ = (s.setCore c (s.core c)).setCore c ((s.finish s c i none cc).core c) := (finish_eq s _ c i none cc).trans (by rw [hend]; rfl)
    _ = s.setCore c ((s.finish s c i none cc).core c) := State.setCore_setCore s c (Core.ne_reset_of_running h) _
    _ = s.finish s c i none cc := (finish_eq s s c i none cc).symm

theorem carries_running {s : State} {c : CoreId} {i : Instr} {x : Cur} {s1 : State} (h : s.carries c i = some (x, s1)) :
    (s1.core c).running = true := by
  have hlive : (s.core c).live = true := by
    unfold State.carries at h
    dsimp only at h
    split at h
    next => cases h
    next hn =>
      rw [Bool.or_eq_true, not_or] at hn
      simpa using hn.1
  obtain ⟨_, _, hk⟩ := carries_core h
  rw [hk]
  exact (Bool.and_eq_true_iff.1 hlive).1

/-- An instruction whose own part changes nothing. -/
theorem yields_id {s : State} {c : CoreId} {i : Instr} {cc : Nat} {body} (he : exec i s = .next (s.instr c i body))
    (hb : ∀ x s1, s1.regs c = s.regs c → body x s1 = .done s1 none cc) : Yields s c i cc fun q => q := by
  intro x s1 hc
  rw [he, instr_carries hc, hb x s1 (carries_regs hc), ← carries_regs hc, finish_updR_regs (carries_running hc)]
  rfl

/-! ### CVDC (R245) -/

section
variable {s : State} {c : CoreId} {x : DReg} {w wx : Reg} {k : KReg} {n : Nat}

/-- A number in a run of no characters. -/
theorem yields_cvdc_empty (hn : min (((s.regs c).wr w).toNat % 2 ^ 18) 62 = 0) : Yields s c (.cvdc c x w k wx) 6 fun q => q := by
  refine yields_id rfl fun y s1 hr => ?_
  dsimp only
  rw [hr, if_pos hn, hn]
  rfl

/-- CVDC, once its run of characters has passed: a number too long for it faults, another is stored as its digits. -/
theorem exec_cvdc {y : Cur} {s1 : State} (hn : min (((s.regs c).wr w).toNat % 2 ^ 18) 62 = n) (hpos : 0 < n)
    (hc : s.carries c (.cvdc c x w k wx) = some (y, s1))
    (hp : ∀ f, s1.precheck c y (numberOperand (s.regs c) k wx n .store) f = f) :
    exec (.cvdc c x w k wx) s = .next (s1.settle c (.cvdc c x w k wx) <|
      if !fitsDigits n ((s.regs c).dr x) then .fault .decimalOverflow 0
      else s1.storing c y 0 [numberOperand (s.regs c) k wx n .store] .write false
        ((digitsOf n ((s.regs c).dr x).natAbs).map fun d => BitVec.ofNat 9 (0o060 + d)) fun _ z => .done z none (6 + (n + 1) / 2)) := by
  have he : exec (.cvdc c x w k wx) s = execCvdc c x w k wx s := rfl
  rw [he, execCvdc, instr_carries hc]
  dsimp only
  rw [carries_regs hc, hn, if_neg hpos.ne']
  unfold numberOperand at hp ⊢
  rw [hp]
  rfl

theorem stores_cvdc (hn : min (((s.regs c).wr w).toNat % 2 ^ 18) 62 = n) (hpos : 0 < n) (hfits : ((s.regs c).dr x).natAbs < 10 ^ n) :
    Stores s c (.cvdc c x w k wx) (numberOperand (s.regs c) k wx n .store) .write false
      ((digitsOf n ((s.regs c).dr x).natAbs).map fun d => BitVec.ofNat 9 (0o060 + d)) (6 + (n + 1) / 2) := by
  intro y s1 y1 t hc ht
  have hfit : fitsDigits n ((s.regs c).dr x) = true := decide_eq_true hfits
  rw [exec_cvdc hn hpos hc (State.precheck_of_tryStore ht), hfit, State.storing, ht]
  rfl

theorem raises_cvdc_tooLong (hn : min (((s.regs c).wr w).toNat % 2 ^ 18) 62 = n) (hpos : 0 < n)
    (hlong : 10 ^ n ≤ ((s.regs c).dr x).natAbs) {y : Cur} {s1 : State} {ps : List (AccPart × Option TlbEntry)}
    (hc : s.carries c (.cvdc c x w k wx) = some (y, s1))
    (hk : s1.checkOperand c y.xlat (numberOperand (s.regs c) k wx n .store) = .ok ps) :
    exec (.cvdc c x w k wx) s = .next (s1.raise c .decimalOverflow 0) := by
  have hfit : fitsDigits n ((s.regs c).dr x) = false := decide_eq_false (Nat.not_lt.2 hlong)
  rw [exec_cvdc hn hpos hc (State.precheck_of_checkOperand hk), hfit]
  rfl

end

/-! ### The obligation -/

/-- Settles O37: CVCD and CVDC each go on as their length and their number allow, and the digits that CVDC writes are read back
(`parseNumber_digitsOf`). -/
theorem numberConversions : Obligations.NumberConversions := by
  intro s c x w wx k r len n o
  refine ⟨yields_cvcd_badLength, loads_cvcd rfl, yields_cvdc_empty, stores_cvdc rfl, ?tooLong,
    fun m v hm hm62 hv => parseNumber_digitsOf hm hm62 hv⟩
  case tooLong =>
    intro hpos hlong y s1 ps hc hk
    exact raises_cvdc_tooLong rfl hpos hlong hc hk

end Sys2Proof.Machine
end
section
/-! PROOF of O42: the run of a string instruction, its interruption and its resumption (R246, R247, R250 to R253). -/

namespace Sys2Proof.Machine

/-! ### The run of units (R247, R250) -/

section
variable {op : StrOp} {c : CoreId} {n : Nat} {x y : Cur} {s t : State}

/-- Units that follow one another to the end complete the instruction. -/
theorem run_of_units (h : op.units c n x s = some (y, t)) :
    op.run c n x s = .done (t.updR c (op.result y.prog)) none (stringSetup op.instr + y.cost) := by
  induction n generalizing x s with
  | zero => cases h
  | succ n ih =>
    rw [StrOp.units] at h
    rw [StrOp.run]
    by_cases hend : op.ended x.prog = true
    · rw [if_pos hend] at h ⊢
      cases h
      rfl
    · rw [if_neg hend] at h ⊢
      cases hunit : op.unit x s with
      | act a => simp [hunit] at h
      | own cause a => simp [hunit] at h
      | next p u cost =>
        simp only [hunit] at h ⊢
        by_cases hstop : ((u.core c).takeable.isSome && !op.ended p) = true
        · simp [hstop] at h
        · rw [if_neg hstop] at h ⊢
          exact ih h

/-- A unit after which the core can take something, and which is not the last, ends the run with its state written (R250). -/
theorem run_pauses {p : StrProg} {cost : Nat} (hend : op.ended x.prog = false) (hunit : op.unit x s = .next p t cost)
    (htake : (t.core c).takeable.isSome = true) (hp : op.ended p = false) :
    op.run c (n + 1) x s = .pause (t.saveString c op.instr p) (stringSetup op.instr + (x.cost + cost)) := by
  rw [StrOp.run, if_neg (Bool.eq_false_iff.1 hend)]
  simp only [hunit, htake, hp, Bool.not_false, Bool.and_self, if_true]

end

/-! ### Interruption (R250) -/

/-- The core that takes an interruption state: W28 to W31 and CTL.SRES. -/
def Core.interrupted (k : Core) (i : Instr) (v : Word × Word × Word) : Core :=
  (k.updR fun r => { r with
    w := Sparse.set 0 (Sparse.set 0 (Sparse.set 0 (Sparse.set 0 r.w 28 v.1) 29 v.2.1) 30 v.2.2) 31 (stateWord i) }).updCtl
      fun t => { t with sres := true }

theorem saveString_eq (s : State) (c : CoreId) (i : Instr) (p : StrProg) :
    s.saveString c i p = s.updCore c (·.interrupted i (progWords i p)) := rfl

section
variable (k : Core) (i : Instr) (v : Word × Word × Word)

theorem Core.interrupted_sres : (k.interrupted i v).r.ctl.sres = true := rfl

theorem Core.interrupted_w : (k.interrupted i v).r.w =
    Sparse.set 0 (Sparse.set 0 (Sparse.set 0 (Sparse.set 0 k.r.w 28 v.1) 29 v.2.1) 30 v.2.2) 31 (stateWord i) := rfl

theorem Core.interrupted_stateWord : Sparse.get 0 (k.interrupted i v).r.w 31 = stateWord i := by
  rw [Core.interrupted_w, Sparse.get_set_self]

theorem Core.interrupted_progWords : (Sparse.get 0 (k.interrupted i v).r.w 28, Sparse.get 0 (k.interrupted i v).r.w 29,
    Sparse.get 0 (k.interrupted i v).r.w 30) = v := by
  simp [Core.interrupted_w, Sparse.get_set]

theorem Core.updR_pc (f : CoreRegs → CoreRegs) : (k.updR f).pc = k.pc := rfl
theorem Core.updCtl_pc (f : Ctl → Ctl) : (k.updCtl f).pc = k.pc := rfl

theorem Core.interrupted_pc : (k.interrupted i v).pc = k.pc := by
  rw [Core.interrupted, Core.updCtl_pc, Core.updR_pc]

end

/-- The core that ends an interrupted instruction after cc cycles. -/
def Core.paused (k : Core) (cc : Nat) : Core := { k.count (·.addCycles cc) with cur := none }

section
variable (k : Core) (cc : Nat)

theorem Core.paused_w : (k.paused cc).r.w = k.r.w := rfl
theorem Core.paused_ctl : (k.paused cc).r.ctl = k.r.ctl := rfl
theorem Core.paused_pc : (k.paused cc).pc = k.pc := rfl
theorem Core.paused_cur : (k.paused cc).cur = none := rfl

end

/-- The core once it has paused with its state written. -/
theorem settle_pause_core (s s1 : State) (c : CoreId) (i j : Instr) (p : StrProg) (cc : Nat) :
    (s1.settle c j (.pause (s.saveString c i p) cc)).core c = ((s.core c).interrupted i (progWords i p)).paused cc := by
  rw [State.settle, saveString_eq, State.updCore_core, if_pos rfl, State.updCore_core, if_pos rfl, Core.paused]

/-- An interrupted instruction leaves the state from which it resumes in W28 to W31 and CTL.SRES, and its core at its own address. -/
theorem settle_pause_registers (s s1 : State) (c : CoreId) (i j : Instr) (p : StrProg) (cc : Nat) {u : State}
    (hu : s1.settle c j (.pause (s.saveString c i p) cc) = u) :
    (u.regs c).ctl.sres = true ∧ Sparse.get 0 (u.regs c).w 31 = stateWord i ∧
    (Sparse.get 0 (u.regs c).w 28, Sparse.get 0 (u.regs c).w 29, Sparse.get 0 (u.regs c).w 30) = progWords i p ∧
    (u.core c).pc = (s.core c).pc ∧ (u.core c).cur = none := by
  subst hu
  rw [State.regs, settle_pause_core, Core.paused_w, Core.paused_ctl, Core.paused_pc, Core.paused_cur]
  exact ⟨Core.interrupted_sres _ _ _, Core.interrupted_stateWord _ _ _, Core.interrupted_progWords _ _ _,
    Core.interrupted_pc _ _ _, rfl⟩

/-! ### The body of a string instruction (R246, R251, R252) -/

section
variable {op : StrOp} {c : CoreId} {bound : Nat} {x : Cur} {s : State}

/-- The state of s once CTL.SRES has been taken up (R251). -/
def State.sresTaken (s : State) (c : CoreId) : State := s.updCore c fun k => k.updCtl fun t => { t with sres := false }

/-- The next unit that the registers of R250 name. -/
def resumedProg (i : Instr) (r : CoreRegs) : StrProg := wordsProg i (Sparse.get 0 r.w 28) (Sparse.get 0 r.w 29) (Sparse.get 0 r.w 30)

/-- W28 to W31 hold a state that op resumes from (R252). -/
def StrOp.Resumable (op : StrOp) (r : CoreRegs) : Prop :=
  Sparse.get 0 r.w 31 = stateWord op.instr ∧
    progWords op.instr (resumedProg op.instr r) = (Sparse.get 0 r.w 28, Sparse.get 0 r.w 29, Sparse.get 0 r.w 30) ∧
    op.valid (resumedProg op.instr r) = true

/-- An instruction that begins runs from its first unit. -/
theorem body_fresh (hx : x.begun = false) (hk : checkString op.operands = none) (hs : (s.regs c).ctl.sres = false)
    (he : op.empty = none) : op.body c bound x s = op.run c bound { x with begun := true } s := by
  simp [StrOp.body, hx, hk, hs, he]

/-- An instruction that resumes runs from the unit that the registers name. -/
theorem body_resumed (hx : x.begun = false) (hk : checkString op.operands = none) (hs : (s.regs c).ctl.sres = true)
    (hr : op.Resumable (s.regs c)) : op.body c bound x s =
      op.run c bound { x with begun := true, prog := resumedProg op.instr (s.regs c), resumed := true } (s.sresTaken c) := by
  obtain ⟨hword, hprog, hvalid⟩ := hr
  have hgood : ¬ (Sparse.get 0 (s.regs c).w 31 ≠ stateWord op.instr ∨ progWords op.instr (resumedProg op.instr (s.regs c)) ≠
      (Sparse.get 0 (s.regs c).w 28, Sparse.get 0 (s.regs c).w 29, Sparse.get 0 (s.regs c).w 30) ∨
      ¬ op.valid (resumedProg op.instr (s.regs c)) = true) := by
    rintro (h | h | h)
    · exact h hword
    · exact h hprog
    · exact h hvalid
  unfold resumedProg at hgood
  simp only [StrOp.body, hx, hk, hs]
  exact if_neg hgood

/-- An instruction that cannot resume from the registers stops with STRING_STATE. -/
theorem body_unresumable (hx : x.begun = false) (hk : checkString op.operands = none) (hs : (s.regs c).ctl.sres = true)
    (hr : ¬ op.Resumable (s.regs c)) : op.body c bound x s = .stop (s.sresTaken c) .stringState 0 := by
  have hbad : Sparse.get 0 (s.regs c).w 31 ≠ stateWord op.instr ∨
      progWords op.instr (resumedProg op.instr (s.regs c)) ≠
        (Sparse.get 0 (s.regs c).w 28, Sparse.get 0 (s.regs c).w 29, Sparse.get 0 (s.regs c).w 30) ∨
      ¬ op.valid (resumedProg op.instr (s.regs c)) = true := by
    simpa only [StrOp.Resumable, not_and_or] using hr
  unfold resumedProg at hbad
  simp only [StrOp.body, hx, hk, hs]
  exact if_pos hbad

end

/-! ### The seven instructions (R254 to R262) -/

/-- Instruction i of core c is string operation op in state s, in at most bound units. -/
def RunsString (s : State) (c : CoreId) (i : Instr) (op : StrOp) (bound : Nat) : Prop :=
  op.instr = i ∧ ∀ x s1, s.carries c i = some (x, s1) → exec i s = .next (s1.settle c i (op.body c bound x s1))

theorem runsString_of {s : State} {c : CoreId} {i : Instr} {op : StrOp} {bound : Nat} {f : CoreRegs → StrOp} {b : CoreRegs → Nat}
    (hi : op.instr = i) (he : exec i s = s.string c i b f) (hf : f (s.regs c) = op) (hb : b (s.regs c) = bound) :
    RunsString s c i op bound := by
  refine ⟨hi, fun x s1 hc => ?_⟩
  rw [he, State.string, instr_carries hc, carries_regs hc, hf, hb]

section
variable (s : State) (c : CoreId)

theorem exec_movc (kd : KReg) (wd : Reg) (ks : KReg) (ws wl : Reg) :
    exec (.movc c kd wd ks ws wl) s = execMovc c kd wd ks ws wl s := rfl
theorem exec_fillc (kd : KReg) (wd wl wf : Reg) : exec (.fillc c kd wd wl wf) s = execFillc c kd wd wl wf s := rfl
theorem exec_movem (kd : KReg) (wd : Reg) (ks : KReg) (ws wl : Reg) (skip strip pad : Bool) :
    exec (.movem c kd wd ks ws wl skip strip pad) s = execMovem c kd wd ks ws wl skip strip pad s := rfl
theorem exec_tr (kd : KReg) (wd : Reg) (ks : KReg) (ws wl : Reg) (kt : KReg) (m : Bool) :
    exec (.tr c kd wd ks ws wl kt m) s = execTr c kd wd ks ws wl kt m s := rfl
theorem exec_scan (wr : Reg) (ks : KReg) (ws wl : Reg) (m : ScanMode) :
    exec (.scan c wr ks ws wl m) s = execScan c wr ks ws wl m s := rfl
theorem exec_cmpc (ka : KReg) (wa : Reg) (kb : KReg) (wb wl : Reg) :
    exec (.cmpc c ka wa kb wb wl) s = execCmpc c ka wa kb wb wl s := rfl
theorem exec_edit (x : DReg) (kd : KReg) (wd : Reg) (kp : KReg) (wp wl : Reg) :
    exec (.edit c x kd wd kp wp wl) s = execEdit c x kd wd kp wp wl s := rfl

theorem runsString_edit (x : DReg) (kd : KReg) (wd : Reg) (kp : KReg) (wp wl : Reg) :
    let r := s.regs c
    let len := (r.wr wl).toNat
    let i : Instr := .edit c x kd wd kp wp wl
    RunsString s c i (editOp c i (strOperand (r.cap kd.val) (r.wr wd) (len % 2 ^ 18) .store)
      (strOperand (r.cap kp.val) (r.wr wp) (len % 2 ^ 18) .load) (r.dr x) (BitVec.ofNat 9 (len / 2 ^ 27)) (len / 2 ^ 18 % 2 ^ 9) wl)
      (unitBound len) := by
  intro r len i
  have hfill : BitVec'.pos (r.wr wl) 0 9 = BitVec.ofNat 9 (len / 2 ^ 27) := by
    apply BitVec.eq_of_toNat_eq
    simp [BitVec'.pos, Nat.shiftRight_eq_div_pow, len]
  have hmin : (BitVec'.pos (r.wr wl) 9 9).toNat = len / 2 ^ 18 % 2 ^ 9 := by
    simp [BitVec'.pos, Nat.shiftRight_eq_div_pow, len]
  refine runsString_of rfl (exec_edit s c x kd wd kp wp wl) ?_ rfl
  rw [← hfill, ← hmin]

end

/-! ### From the run of units to the state left -/

section
variable {s : State} {c : CoreId} {i : Instr} {op : StrOp} {bound : Nat} {x y : Cur} {s1 t : State}

/-- Begun at its first unit and not interrupted, the instruction ends with its result (R247, R253). -/
theorem RunsString.ends (h : RunsString s c i op bound) (hc : s.carries c i = some (x, s1)) (hx : x.begun = false)
    (hk : checkString op.operands = none) (hs : (s.regs c).ctl.sres = false) (he : op.empty = none)
    (hu : op.units c bound { x with begun := true } s1 = some (y, t)) :
    exec i s = .next (s1.finish (t.updR c (op.result y.prog)) c i none (stringSetup i + y.cost)) := by
  obtain ⟨hi, hexec⟩ := h
  rw [hexec x s1 hc, body_fresh hx hk (carries_regs hc ▸ hs) he, run_of_units hu, hi]
  rfl

/-- Interrupted after its first unit, it leaves the state of R250. -/
theorem RunsString.pauses (h : RunsString s c i op (bound + 1)) (hc : s.carries c i = some (x, s1)) (hx : x.begun = false)
    (hk : checkString op.operands = none) (hs : (s.regs c).ctl.sres = false) (he : op.empty = none) {p : StrProg} {n : Nat}
    (hend : op.ended x.prog = false) (hu : op.unit { x with begun := true } s1 = .next p t n)
    (htake : (t.core c).takeable.isSome = true) (hp : op.ended p = false) : ∃ u, exec i s = .next u ∧
      (u.regs c).ctl.sres = true ∧ Sparse.get 0 (u.regs c).w 31 = stateWord i ∧
      (Sparse.get 0 (u.regs c).w 28, Sparse.get 0 (u.regs c).w 29, Sparse.get 0 (u.regs c).w 30) = progWords i p ∧
      (u.core c).pc = (t.core c).pc ∧ (u.core c).cur = none := by
  obtain ⟨hi, hexec⟩ := h
  refine ⟨_, hexec x s1 hc, ?_⟩
  rw [body_fresh hx hk (carries_regs hc ▸ hs) he, run_pauses (x := { x with begun := true }) hend hu htake hp, hi]
  exact settle_pause_registers t s1 c i i p _ rfl

/-- Resumed and not interrupted again, it ends with its result (R251). -/
theorem RunsString.resumes (h : RunsString s c i op bound) (hc : s.carries c i = some (x, s1)) (hx : x.begun = false)
    (hk : checkString op.operands = none) (hs : (s.regs c).ctl.sres = true) (hr : op.Resumable (s.regs c))
    (hu : op.units c bound { x with begun := true, prog := resumedProg i (s.regs c), resumed := true } (s1.sresTaken c) = some (y, t)) :
    exec i s = .next (s1.finish (t.updR c (op.result y.prog)) c i none (stringSetup i + y.cost)) := by
  obtain ⟨hi, hexec⟩ := h
  have hregs := carries_regs hc
  rw [hexec x s1 hc, body_resumed hx hk (hregs ▸ hs) (hregs ▸ hr), hi, hregs, run_of_units hu, hi]
  rfl

/-- From registers that hold no state of it, it raises STRING_STATE (R252). -/
theorem RunsString.refuses (h : RunsString s c i op bound) (hc : s.carries c i = some (x, s1)) (hx : x.begun = false)
    (hk : checkString op.operands = none) (hs : (s.regs c).ctl.sres = true) (hr : ¬ op.Resumable (s.regs c)) :
    exec i s = .next ((s1.sresTaken c).raise c .stringState 0) := by
  obtain ⟨_, hexec⟩ := h
  have hregs := carries_regs hc
  rw [hexec x s1 hc, body_unresumable hx hk (hregs ▸ hs) (hregs ▸ hr)]
  rfl

end

/-! ### The obligation -/

/-- Settles O42: each of the seven is a run of units (`RunsString`), which begins at its first unit or where W28 to W31 say. -/
theorem stringInstructionRuns : Obligations.StringInstructionRuns := by
  intro s c i op bound r len h x s1 hc hx hk
  have hruns : RunsString s c i op bound ∧ ∃ l, bound = unitBound l := by
    rcases h with ⟨kd, wd, ks, ws, wl, rfl, rfl, rfl⟩ | ⟨kd, wd, wl, wf, rfl, rfl, rfl⟩ |
      ⟨kd, wd, ks, ws, wl, skip, strip, pad, rfl, rfl, rfl⟩ | ⟨kd, wd, ks, ws, wl, kt, m, rfl, rfl, rfl⟩ |
      ⟨wr, ks, ws, wl, m, rfl, rfl, rfl⟩ | ⟨ka, wa, kb, wb, wl, rfl, rfl, rfl⟩ | ⟨x, kd, wd, kp, wp, wl, rfl, rfl, rfl⟩
    · exact ⟨runsString_of rfl (exec_movc s c kd wd ks ws wl) rfl rfl, _, rfl⟩
    · exact ⟨runsString_of rfl (exec_fillc s c kd wd wl wf) rfl rfl, _, rfl⟩
    · exact ⟨runsString_of rfl (exec_movem s c kd wd ks ws wl skip strip pad) rfl rfl, _, rfl⟩
    · exact ⟨runsString_of rfl (exec_tr s c kd wd ks ws wl kt m) rfl rfl, _, rfl⟩
    · exact ⟨runsString_of rfl (exec_scan s c wr ks ws wl m) rfl rfl, _, rfl⟩
    · exact ⟨runsString_of rfl (exec_cmpc s c ka wa kb wb wl) rfl rfl, _, rfl⟩
    · exact ⟨runsString_edit s c x kd wd kp wp wl, _, rfl⟩
  obtain ⟨hruns, l, rfl⟩ := hruns
  have hi : op.instr = i := hruns.1
  refine ⟨fun hs he => ⟨fun y t hu => hruns.ends hc hx hk hs he hu, fun p t n hend hu htake hp =>
    hruns.pauses hc hx hk hs he hend hu htake hp⟩, fun hs => ⟨fun hword hprog hvalid y t hu => ?_, fun hbad => ?_⟩⟩
  · refine hruns.resumes hc hx hk hs ⟨?_, ?_, ?_⟩ hu
    · rw [hi]; exact hword
    · rw [hi]; exact hprog
    · rw [hi]; exact hvalid
  · refine hruns.refuses hc hx hk hs fun ⟨hword, hprog, hvalid⟩ => ?_
    rw [hi] at hword hprog hvalid
    rcases hbad with h | h | h
    · exact h hword
    · exact h hprog
    · exact Bool.false_ne_true (h.symm.trans hvalid)

end Sys2Proof.Machine
end
section
/-! PROOF of O44: the stored forms and their rounding (R263, R264, R266, R272), and how the floating-point unit takes up an operation and
writes its result (R267 to R271, R275 to R277). -/

namespace Sys2Proof.Machine

/-! ### Numbers of bits -/

theorem bitLen_pow (k : Nat) : bitLen (2 ^ k) = k + 1 := by
  rw [bitLen, if_neg (Nat.two_pow_pos k).ne', Nat.log2_two_pow]

/-- A number of u bits is at least 2^(u − 1) and less than 2^u. -/
theorem bitLen_bounds {m : Nat} (hm : m ≠ 0) : ∃ k, bitLen m = k + 1 ∧ 2 ^ k ≤ m ∧ m < 2 ^ (k + 1) :=
  ⟨m.log2, if_neg hm, Nat.log2_self_le hm, Nat.lt_log2_self⟩

/-! ### Stored forms (R263, R264) -/

/-- The precision and the exponents of a format: p has an implicit bit, and the exponent field holds 0 and all ones besides the exponents
from 1 − bias to bias. -/
def FFmt.Regular (f : FFmt) : Prop := f.p = f.fw + 1 ∧ 2 ^ f.ew = 2 * f.bias + 2

theorem FFmt.of_regular (l : Bool) : (FFmt.of l).Regular := by cases l <;> exact ⟨rfl, rfl⟩

section
variable (f : FFmt) (s : Bool) {ex fr : Nat}

theorem FFmt.make_eq : f.make s ex fr = 2 ^ f.fw * (2 ^ f.ew * bit s + ex) + fr := by
  unfold FFmt.make
  ring

theorem FFmt.frac_make (hfr : fr < 2 ^ f.fw) : f.frac (f.make s ex fr) = fr := by
  rw [FFmt.frac, FFmt.make_eq, Nat.mul_add_mod, Nat.mod_eq_of_lt hfr]

/-- What is left of a stored form without its fraction. -/
theorem FFmt.make_div (hfr : fr < 2 ^ f.fw) : f.make s ex fr / 2 ^ f.fw = 2 ^ f.ew * bit s + ex := by
  rw [FFmt.make_eq, Nat.mul_add_div (by positivity), Nat.div_eq_of_lt hfr, Nat.add_zero]

theorem FFmt.expo_make (hex : ex < 2 ^ f.ew) (hfr : fr < 2 ^ f.fw) : f.expo (f.make s ex fr) = ex := by
  rw [FFmt.expo, FFmt.make_div f s hfr, Nat.mul_add_mod, Nat.mod_eq_of_lt hex]

theorem FFmt.sign_make (hex : ex < 2 ^ f.ew) (hfr : fr < 2 ^ f.fw) : f.sign (f.make s ex fr) = s := by
  rw [FFmt.sign, pow_add, ← Nat.div_div_eq_div_mul, FFmt.make_div f s hfr, Nat.mul_add_div (by positivity), Nat.div_eq_of_lt hex]
  cases s <;> rfl

/-- A normal number's stored form holds its sign, significand and exponent. -/
theorem FFmt.value_make (hpos : 0 < ex) (hex : ex < 2 ^ f.ew - 1) (hfr : fr < 2 ^ f.fw) :
    f.value (f.make s ex fr) = .fin s (2 ^ f.fw + fr) ((ex : Int) - f.bias - f.fw) := by
  have hlt : ex < 2 ^ f.ew := by omega
  rw [FFmt.value, FFmt.expo_make f s hlt hfr, FFmt.sign_make f s hlt hfr, FFmt.frac_make f s hfr]
  rw [if_neg hex.ne, if_neg hpos.ne']

end

/-- An operation on one operand that is a number other than zero has that number's result and flags, and none for the operand. -/
theorem FFmt.one_of_fin {f : FFmt} {x m : Nat} {s : Bool} {e : Int} (h : f.value x = .fin s m e) (hm : m ≠ 0)
    (q : Bool → Nat → Nat) (op : FVal → Nat × FFlags) : f.one q op x = op (.fin s m e) := by
  have hones : f.expo x ≠ 2 ^ f.ew - 1 := by
    intro hx
    rw [FFmt.value, if_pos hx] at h
    split at h <;> cases h
  have hzero : f.expo x ≠ 0 := by
    intro hx
    rw [FFmt.value, if_neg hones, if_pos hx] at h
    cases h
    exact hm rfl
  have hsub : f.subnormal x = false := by simp [FFmt.subnormal, hzero]
  have hsig : f.signalling x = false := by simp [FFmt.signalling, hones]
  simp only [FFmt.one, h, hsub, hsig, Bool.or_false]

/-! ### Rounding (R266, R272) -/

theorem roundsUp_exact (mode : Nat) (neg odd : Bool) : roundsUp mode neg false false false odd = false := by
  unfold roundsUp
  split <;> rfl

/-- Dropping bits that are all 0 is exact in every mode. -/
theorem roundShift_exact (mode : Nat) (neg : Bool) {m n : Nat} (h : m % 2 ^ n = 0) :
    roundShift mode neg m n false = (m / 2 ^ n, false) := by
  have hne : ¬ 0 = 2 ^ n := (Nat.two_pow_pos n).ne
  simp [roundShift, h, hne, roundsUp_exact, bit]

/-- RTZ drops the bits. -/
theorem roundShift_truncates (neg : Bool) (m n : Nat) : roundShift 2 neg m n false = (m / 2 ^ n, decide (m % 2 ^ n ≠ 0)) := by
  simp [roundShift, roundsUp, bit]

/-- The significand of p bits that m rounds to, before a carry out of it, and whether it is inexact. -/
def FFmt.significand (f : FFmt) (mode : Nat) (neg : Bool) (m : Nat) : Nat × Bool :=
  if bitLen m ≤ f.p then (m * 2 ^ (f.p - bitLen m), false) else roundShift mode neg m (bitLen m - f.p) false

section
variable (f : FFmt) {mode : Nat} {neg nx : Bool} {m q : Nat} {e : Int}

/-- A significand without a carry whose exponent is in range is stored, and only NX can be raised. -/
theorem FFmt.round_of_inRange (hq : f.significand mode neg m = (q, nx)) (hlt : q < 2 ^ f.p)
    (hlo : 1 - (f.bias : Int) ≤ e + bitLen m - 1) (hhi : e + bitLen m - 1 ≤ f.bias) :
    f.round mode neg m e false = (f.make neg (e + bitLen m - 1 + f.bias).toNat (q - 2 ^ f.fw), { FFlags.none with nx := nx }) := by
  have hcarry : decide (q = 2 ^ f.p) = false := decide_eq_false hlt.ne
  unfold FFmt.significand at hq
  simp only [FFmt.round, hq, hcarry, bit]
  rw [if_neg (by simpa using hhi), if_neg (by simpa using hlo)]
  simp

/-- … and reads back as that significand with its exponent. -/
theorem FFmt.value_round (hf : f.Regular) (hq : f.significand mode neg m = (q, nx)) (hge : 2 ^ f.fw ≤ q) (hlt : q < 2 ^ f.p)
    (hlo : 1 - (f.bias : Int) ≤ e + bitLen m - 1) (hhi : e + bitLen m - 1 ≤ f.bias) :
    ∃ v, f.round mode neg m e false = (v, { FFlags.none with nx := nx }) ∧ f.value v = .fin neg q (e + bitLen m - f.p) := by
  obtain ⟨hp, hew⟩ := hf
  refine ⟨_, f.round_of_inRange hq hlt hlo hhi, ?_⟩
  have hfr : q - 2 ^ f.fw < 2 ^ f.fw := by
    rw [hp, pow_succ] at hlt
    omega
  rw [FFmt.value_make f neg (by omega) (by omega) hfr, Nat.add_sub_cancel' hge]
  congr 1
  omega

/-- A number of at most p bits is stored exactly, in every mode. -/
theorem FFmt.round_of_fits (hf : f.Regular) (mode : Nat) (neg : Bool) (hm : m ≠ 0) (hfit : bitLen m ≤ f.p)
    (hlo : 1 - (f.bias : Int) ≤ e + bitLen m - 1) (hhi : e + bitLen m - 1 ≤ f.bias) :
    ∃ v, f.round mode neg m e false = (v, FFlags.none) ∧
      f.value v = .fin neg (m * 2 ^ (f.p - bitLen m)) (e - (f.p - bitLen m : Nat)) := by
  obtain ⟨k, hk, hkm, hmk⟩ := bitLen_bounds hm
  have hexp : e - (f.p - bitLen m : Nat) = e + bitLen m - f.p := by omega
  have hfw : f.fw = k + (f.p - bitLen m) := by have := hf.1; omega
  have hp : f.p = k + 1 + (f.p - bitLen m) := by omega
  rw [hexp]
  refine f.value_round hf (if_pos hfit) ?_ ?_ hlo hhi
  · rw [hfw, pow_add]
    exact Nat.mul_le_mul_right _ hkm
  · conv_rhs => rw [hp, pow_add]
    exact Nat.mul_lt_mul_of_pos_right hmk (Nat.two_pow_pos _)

/-- The bits kept of a longer number fill the significand. -/
theorem FFmt.kept_bounds (hf : f.Regular) (hm : m ≠ 0) (hlong : f.p < bitLen m) :
    2 ^ f.fw ≤ m / 2 ^ (bitLen m - f.p) ∧ m / 2 ^ (bitLen m - f.p) < 2 ^ f.p := by
  obtain ⟨k, hk, hkm, hmk⟩ := bitLen_bounds hm
  have hfw : k = f.fw + (bitLen m - f.p) := by have := hf.1; omega
  have hp : k + 1 = f.p + (bitLen m - f.p) := by omega
  rw [hfw, pow_add] at hkm
  rw [hp, pow_add] at hmk
  exact ⟨(Nat.le_div_iff_mul_le (Nat.two_pow_pos _)).2 hkm, (Nat.div_lt_iff_lt_mul (Nat.two_pow_pos _)).2 hmk⟩

/-- RTZ keeps the first p bits of a longer number, and raises NX where a bit dropped is 1. -/
theorem FFmt.round_truncates (hf : f.Regular) (neg : Bool) (hm : m ≠ 0) (hlong : f.p < bitLen m)
    (hlo : 1 - (f.bias : Int) ≤ e + bitLen m - 1) (hhi : e + bitLen m - 1 ≤ f.bias) :
    ∃ v, f.round 2 neg m e false = (v, { FFlags.none with nx := decide (m % 2 ^ (bitLen m - f.p) ≠ 0) }) ∧
      f.value v = .fin neg (m / 2 ^ (bitLen m - f.p)) (e + (bitLen m - f.p : Nat)) := by
  have hexp : e + (bitLen m - f.p : Nat) = e + bitLen m - f.p := by omega
  obtain ⟨hge, hlt⟩ := f.kept_bounds hf hm hlong
  rw [hexp]
  exact f.value_round hf ((if_neg hlong.not_ge).trans (roundShift_truncates neg m _)) hge hlt hlo hhi

/-- A power of two has the significand of the implicit bit alone. -/
theorem FFmt.significand_pow (hf : f.Regular) (mode : Nat) (neg : Bool) (k : Nat) :
    f.significand mode neg (2 ^ k) = (2 ^ f.fw, false) := by
  have hp := hf.1
  rw [FFmt.significand, bitLen_pow]
  split
  next hfit => rw [← pow_add, show k + (f.p - (k + 1)) = f.fw by omega]
  next hlong =>
    have hk : k = f.fw + (k + 1 - f.p) := by omega
    have hsplit : 2 ^ k = 2 ^ f.fw * 2 ^ (k + 1 - f.p) := (congrArg (2 ^ ·) hk).trans (pow_add 2 _ _)
    rw [roundShift_exact mode neg (hsplit ▸ Nat.mul_mod_left _ _)]
    conv_lhs => rw [hsplit, Nat.mul_div_cancel _ (Nat.two_pow_pos _)]

/-- A power of two in range is stored exactly, in every mode. -/
theorem FFmt.exact_pow (hf : f.Regular) (mode : Nat) (neg : Bool) (k : Nat) {ex : Nat} (hex : e + k + f.bias = ex) (hpos : 0 < ex)
    (hmax : ex ≤ 2 * f.bias) : f.exact mode neg (2 ^ k) e = (f.make neg ex 0, FFlags.none) := by
  have hexp : e + bitLen (2 ^ k) - 1 = e + k := by rw [bitLen_pow]; omega
  have hlt : 2 ^ f.fw < 2 ^ f.p := Nat.pow_lt_pow_right one_lt_two (by have := hf.1; omega)
  rw [FFmt.exact, if_neg (Nat.two_pow_pos k).ne',
    f.round_of_inRange (f.significand_pow hf mode neg k) hlt (by omega) (by omega), hexp, hex, Nat.sub_self]
  rfl

end

/-! ### The unit takes up an operation and writes its result (R162, R267, R275 to R277) -/

theorem bit_mul (b : Bool) (n : Nat) : bit b * n = if b then n else 0 := by cases b <;> simp [bit]

/-- What an operation writes: value v, of format lo, to word register d or to d and its successor. -/
def CoreRegs.fpWrites (r : CoreRegs) (lo : Bool) (d : Reg) (v : Nat) : List (Nat × Word) :=
  if lo then [(r.wKey d, (fpWords lo v).headD 0), (r.wKey (Reg.next d), (fpWords lo v).getD 1 0)]
  else [(r.wKey d, (fpWords lo v).headD 0)]

section
variable (r : CoreRegs) (d : Reg)

theorem CoreRegs.wKey_next_ne : r.wKey (Reg.next d) ≠ r.wKey d := by
  have hd := d.isLt
  have hnext : (Reg.next d).val = (d.val + 1) % 32 := rfl
  unfold CoreRegs.wKey
  split <;> split <;> omega

/-- Once they are written, the registers hold the words. -/
theorem CoreRegs.fpWrites_written (lo : Bool) (v : Nat) (m : Sparse Word) : ∀ w ∈ r.fpWrites lo d v,
    Sparse.get 0 ((r.fpWrites lo d v).foldl (fun m e => Sparse.set 0 m e.1 e.2) m) w.1 = w.2 := by
  cases lo with
  | false => simp [CoreRegs.fpWrites]
  | true => simp [CoreRegs.fpWrites, Sparse.get_set, (r.wKey_next_ne d).symm]

end

/-- The operation that an instruction at address pc with registers r starts, due at the cycle given. -/
def FpDesc.op (x : FpDesc) (r : CoreRegs) (pc due : Nat) (root lo : Bool) (res : Nat × FFlags) : FpOp :=
  { writes := r.fpWrites lo x.d res.1, flags := res.2.word, traps := trapsUnder r.govFmode res.2.word, root := root, due := due,
    record := [x.word res.2.word r.ctl.bk1, BitVec.ofNat 36 (pc % 2 ^ 18)] ++ x.a ++ x.b ++ fpWords lo res.1 }

/-- The unit takes up an operation. -/
def Core.floats (o : Core → FpOp) (k : Core) : Core := { k with u := { k.u with fp := k.u.fp ++ [o k] } }

/-- Instruction i of core c starts the operation that x describes, and where it is the only one its result is written. -/
def FloatStarts (s : State) (c : CoreId) (i : Instr) (cc lat : Nat) (root lo : Bool) (x : FpDesc) (res : Nat × FFlags) : Prop :=
  let r := s.regs c
  ((s.core c).u.fp = [] →
    Completes s c i (.floatResult c) (fun z => ∀ o ∈ z.u.fp, o.due ≤ z.r.cnt.clk) (r.fpWrites lo x.d res.1)) ∧
  Starts s c i cc (Core.floats fun z => x.op r (s.core c).pc (r.cnt.clk + cc + bit z.atLoopEnd + lat) root lo res)

theorem startFp_eq (t : State) (c : CoreId) (cc lat : Nat) (root lo : Bool) (x : FpDesc) (res : Nat × FFlags) :
    t.startFp c cc lat root lo res.1 res.2 x = .done (t.updCore c (Core.floats fun z =>
      x.op (t.regs c) (t.core c).pc ((t.regs c).cnt.clk + cc + bit z.atLoopEnd + lat) root lo res)) none cc := by
  simp only [Nat.add_assoc (t.regs c).cnt.clk cc]
  exact congrArg (Act.done · none cc) (updCore_congr t c rfl)

section
variable {s : State} {c : CoreId} {i : Instr} {cc : Nat} {o : Core → FpOp}

/-- The one operation of the unit writes its words as soon as it is due. -/
theorem completes_float (h : Starts s c i cc (Core.floats o)) (hidle : (s.core c).u.fp = []) {l : List (Nat × Word)}
    (hwrites : ∀ k, (o k).writes = l) (hl : ∀ m : Sparse Word, ∀ w ∈ l,
      Sparse.get 0 (l.foldl (fun m e => Sparse.set 0 m e.1 e.2) m) w.1 = w.2) :
    Completes s c i (.floatResult c) (fun k => ∀ o ∈ k.u.fp, o.due ≤ k.r.cnt.clk) l := by
  intro x s1 hc
  obtain ⟨t, ht, hu⟩ := starts_units h hc
  refine ⟨t, ht, ?_⟩
  intro n t1 hdue
  have hfp : (s1.core c).u.fp = [] := (congrArg Beside.fp (carries_units hc)).trans hidle
  have hunit : (t1.core c).u.fp = [o (s1.core c)] := (congrArg Beside.fp (hu n)).trans (congrArg (· ++ _) hfp)
  have hnext : nextFp (t1.core c).u.fp = some (o (s1.core c)) := congrArg nextFp hunit
  refine ⟨_, exec_floatResult_due hnext (hdue _ (hunit ▸ List.mem_singleton_self _)), ?_⟩
  rw [State.regs, State.updCore_core, if_pos rfl, Core.floatDone, hwrites]
  exact hl _

end

section
variable {s : State} {c : CoreId} {i : Instr} {d b : Reg} {l li lo root : Bool} {lat : Nat}

/-- An instruction whose own part starts an operation of the unit. -/
theorem floatStarts_of {cc : Nat} {x : FpDesc} {res : Nat × FFlags} {body} (he : exec i s = .next (s.instr c i body))
    (hb : ∀ y s1, s1.regs c = s.regs c → body y s1 = s1.startFp c cc lat root lo res.1 res.2 x) :
    FloatStarts s c i cc lat root lo x res := by
  have hstarts : Starts s c i cc (Core.floats fun z =>
      x.op (s.regs c) (s.core c).pc ((s.regs c).cnt.clk + cc + bit z.atLoopEnd + lat) root lo res) := by
    refine starts_of he fun y s1 hc => ?_
    have hregs := carries_regs hc
    rw [hb y s1 hregs, startFp_eq, hregs, carries_pc hc]
  exact ⟨fun hidle => completes_float hstarts hidle (fun _ => rfl) ((s.regs c).fpWrites_written x.d lo res.1), hstarts⟩

/-- FADD, FSUB, FMUL and FDIV. -/
theorem floatStarts_fpTwo {rm : BitVec 3} {op : FFmt → Nat → FVal → FVal → Nat × FFlags} {f : FVal → FVal → Nat × FFlags}
    (he : exec i s = s.fpTwo c i d b l rm lat root op) (hop : op (FFmt.of l) ((s.regs c).fpMode rm) = f) :
    let r := s.regs c
    FloatStarts s c i 2 lat root l
      { minor := i.minor, l := l, d := d, mode := r.fpMode rm, a := fpWords l (r.fpIn l d), b := fpWords l (r.fpIn l b) }
      ((FFmt.of l).two f (r.fpIn l d) (r.fpIn l b)) := by
  intro r
  subst hop
  refine floatStarts_of he fun y s1 hr => ?_
  rw [hr]

/-- The operations on one operand. -/
theorem floatStarts_fpOne {mode : CoreRegs → Nat} {op : Nat → Nat → Nat × FFlags} {m : Nat} {p : List Word} {res : Nat × FFlags}
    (he : exec i s = s.fpOne c i d b li lo l mode lat root op) (hm : mode (s.regs c) = m)
    (hp : fpWords li ((s.regs c).fpIn li b) = p) (hres : op m ((s.regs c).fpIn li b) = res) :
    FloatStarts s c i 2 lat root lo { minor := i.minor, l := l, d := d, mode := m, a := p, b := [0, 0] } res := by
  subst hm hp hres
  refine floatStarts_of he fun y s1 hr => ?_
  rw [hr]

end

/-! ### The instructions (R268 to R271) -/

section
variable (s : State) (c : CoreId) (d a b : Reg) (l : Bool) (rm : BitVec 3)

theorem exec_fadd : exec (.fadd c d b l rm) s =
    s.fpTwo c (.fadd c d b l rm) d b l rm (if l then 6 else 4) false fun f m => f.add m := rfl
theorem exec_fsub : exec (.fsub c d b l rm) s =
    s.fpTwo c (.fsub c d b l rm) d b l rm (if l then 6 else 4) false fun f m u v => f.add m u v.negate := rfl
theorem exec_fmul : exec (.fmul c d b l rm) s =
    s.fpTwo c (.fmul c d b l rm) d b l rm (if l then 6 else 4) false fun f m => f.mulV m := rfl
theorem exec_fdiv : exec (.fdiv c d b l rm) s =
    s.fpTwo c (.fdiv c d b l rm) d b l rm (if l then 30 else 14) true fun f m => f.divV m := rfl
theorem exec_fsqrt : exec (.fsqrt c d b l rm) s = s.fpOne c (.fsqrt c d b l rm) d b l l l (·.fpMode rm) (if l then 34 else 16) true
    fun m => (FFmt.of l).one (FFmt.of l).quiet ((FFmt.of l).sqrtV m) := rfl
theorem exec_fcvtfi : exec (.fcvtfi c d b l rm) s = s.fpOne c (.fcvtfi c d b l rm) d b l false l (·.fpMode rm) (if l then 6 else 4) false
    fun m => (FFmt.of l).toInt m := rfl
theorem exec_fcvtif : exec (.fcvtif c d b l rm) s = s.fpOne c (.fcvtif c d b l rm) d b false l l (·.fpMode rm) (if l then 6 else 4) false
    fun m x => (FFmt.of l).ofInt m (BitVec.ofNat 36 x).toInt := rfl
theorem exec_fneg : exec (.fneg c d b l) s = s.fpOne c (.fneg c d b l) d b l l l (fun _ => 0) 2 false fun _ x =>
    ((FFmt.of l).make (!(FFmt.of l).sign x) ((FFmt.of l).expo x) ((FFmt.of l).frac x), .none) := rfl
theorem exec_fabs : exec (.fabs c d b l) s = s.fpOne c (.fabs c d b l) d b l l l (fun _ => 0) 2 false fun _ x =>
    ((FFmt.of l).make false ((FFmt.of l).expo x) ((FFmt.of l).frac x), .none) := rfl
theorem exec_fcmp : exec (.fcmp c d a b l) s = execFcmp c d a b l s := rfl

/-- FCVTSL's result (R271, R273); the instruction has no rounding mode and gives 0 for m. -/
def fcvtslResult (m x : Nat) : Nat × FFlags :=
  FFmt.short.one (fun n fr => FFmt.long.quiet n (fr * 2 ^ 33)) (fun v => match v with
    | .inf n => (FFmt.long.infinity n, .none)
    | .fin n a e => FFmt.long.exact m n a e
    | .nan _ _ => invalid .long) x

/-- FCVTLS's result under rounding mode m (R271, R273). -/
def fcvtlsResult (m x : Nat) : Nat × FFlags :=
  FFmt.long.one (fun n fr => FFmt.short.quiet n (fr / 2 ^ 33)) (fun v => match v with
    | .inf n => (FFmt.short.infinity n, .none)
    | .fin n a e => FFmt.short.exact m n a e
    | .nan _ _ => invalid .short) x

theorem exec_fcvtsl : exec (.fcvtsl c d b) s =
    s.fpOne c (.fcvtsl c d b) d b false true false (fun _ => 0) 2 false fcvtslResult := rfl
theorem exec_fcvtls : exec (.fcvtls c d b rm) s =
    s.fpOne c (.fcvtls c d b rm) d b true false false (·.fpMode rm) 4 false fcvtlsResult := rfl

end

section
variable {x : Nat}

theorem fcvtslResult_one (m : Nat) (h : FFmt.short.value x = .fin false (2 ^ 27) (-27)) :
    fcvtslResult m x = (FFmt.long.make false 1023 0, FFlags.none) := by
  rw [fcvtslResult, FFmt.one_of_fin h (Nat.two_pow_pos 27).ne']
  exact FFmt.long.exact_pow (FFmt.of_regular true) m false 27 (by decide) (by decide) (by decide)

theorem fcvtlsResult_one (m : Nat) (h : FFmt.long.value x = .fin false (2 ^ 60) (-60)) :
    fcvtlsResult m x = (FFmt.short.make false 127 0, FFlags.none) := by
  rw [fcvtlsResult, FFmt.one_of_fin h (Nat.two_pow_pos 60).ne']
  exact FFmt.short.exact_pow (FFmt.of_regular false) m false 60 (by decide) (by decide) (by decide)

end

section
variable (r : CoreRegs) (b : Reg)

theorem ofNat_fpIn_short : BitVec.ofNat 36 (r.fpIn false b) = r.wr b := by simp [CoreRegs.fpIn]

theorem fpWords_fpIn_short : fpWords false (r.fpIn false b) = [r.wr b, 0] := congrArg (fun w => [w, 0]) (ofNat_fpIn_short r b)

end

/-! ### The obligation -/

/-- Settles O44: each instruction starts its operation (`floatStarts_fpTwo`, `floatStarts_fpOne`), the unit's command writes what it holds
(`completes_float`), and a significand in range is stored as it is (`FFmt.value_round`). -/
theorem floatOperationStarts : Obligations.FloatOperationStarts := by
  intro s c d a b l rm r f m x y start two
  have hstart {i : Instr} {cc lat : Nat} {root lo l : Bool} {mode : Nat} {p q : List Word} {res : Nat × FFlags}
      (h : FloatStarts s c i cc lat root lo { minor := i.minor, l := l, d := d, mode := mode, a := p, b := q } res) :
      start i cc lat root lo l mode p q res := by
    obtain ⟨hwrites, hstarts⟩ := h
    refine ⟨hwrites, ?_⟩
    simp only [← bit_mul _ (2 ^ 27), ← bit_mul _ (2 ^ 8)]
    exact hstarts
  refine ⟨hstart (floatStarts_fpTwo (exec_fadd s c d b l rm) rfl), hstart (floatStarts_fpTwo (exec_fsub s c d b l rm) rfl),
    hstart (floatStarts_fpTwo (exec_fmul s c d b l rm) rfl), hstart (floatStarts_fpTwo (exec_fdiv s c d b l rm) rfl),
    hstart (floatStarts_fpOne (exec_fsqrt s c d b l rm) rfl rfl rfl), hstart (floatStarts_fpOne (exec_fcvtfi s c d b l rm) rfl rfl rfl),
    hstart (floatStarts_fpOne (exec_fcvtif s c d b l rm) rfl (fpWords_fpIn_short r b) ?integer),
    hstart (floatStarts_fpOne (exec_fneg s c d b l) rfl rfl rfl), hstart (floatStarts_fpOne (exec_fabs s c d b l) rfl rfl rfl), ?fcmp,
    ⟨_, hstart (floatStarts_fpOne (exec_fcvtsl s c d b) rfl (fpWords_fpIn_short r b) rfl), fcvtslResult_one 0⟩,
    ⟨_, hstart (floatStarts_fpOne (exec_fcvtls s c d b rm) rfl rfl rfl), fcvtlsResult_one m⟩,
    ?rounding⟩
  case integer => rw [ofNat_fpIn_short]
  case fcmp =>
    refine hstart (floatStarts_of (exec_fcmp s c d a b l) fun _ s1 hr => ?_)
    dsimp only
    rw [hr]
    rfl
  case rounding =>
    intro mode neg n e hn u hlo hhi
    refine ⟨fun hfit => f.round_of_fits (FFmt.of_regular l) mode neg hn hfit hlo hhi, fun hlong => ?_⟩
    obtain ⟨v, hround, hvalue⟩ := f.round_truncates (FFmt.of_regular l) neg hn hlong hlo hhi
    exact ⟨v, _, hround, hvalue, decide_eq_true_iff, rfl, rfl⟩

end Sys2Proof.Machine
end
